-- ==== Sys2Proof/Word.lean ====
section
/-! DEFINITION. The word types of the block: bytes, 16-, 32- and 64-bit words (00_scope.md, Conventions). -/

namespace Sys2Proof

/-- A byte. -/
abbrev Byte := BitVec 8
/-- A half-word of a packet or register. -/
abbrev Hword := BitVec 16
/-- A register: every register of the block is 32 bits wide (R200). -/
abbrev Word := BitVec 32
/-- A 64-bit word: messages, stamps, digests, memory words. -/
abbrev Dword := BitVec 64

end Sys2Proof
end

