-- ==== Sys2Proof/Syntax.lean ====
section
/-! DEFINITION. The commands of the block (spec/opcode_table.json, one constructor per row) and the kinds of
operands they carry. What the surroundings decide (a temperature, a flit received, a test's result, bit errors in
stored words) is an operand of the command that reports it. -/

namespace Sys2Proof

/-- The halves (Table 0-5). -/
inductive Half where
  | west | east
deriving DecidableEq, Repr

/-- Who writes a register: a host through its port, Gallery, Keep, or the BMC through the management port. -/
inductive Writer where
  | host (p : Fin 4) | gallery | keep | bmc
deriving DecidableEq, Repr

/-- The register blocks (Table 8-7, BLOCK_TYPE). -/
inductive Block where
  | drm | arr | tst | hbm | lan | lnk | fab | pwr | thm | flt | sec | ocu | hst | hstQ
deriving DecidableEq, Repr

/-- Where an access lands: a register by block, instance and offset; the port's own partition block, queue pages,
Oculus table, MSI-X table or pending-bit array (Table 10-3); a place outside every block; or an offset in BAR0, which
Table 10-3 and the BLOCK records resolve to one of these. -/
inductive Target where
  | block (b : Block) (inst off : Nat)
  | ownPart (off : Nat)
  | queue (qp : Fin 16) (off : Nat)
  | oculus (off : Nat)
  | msixTable (off : Nat)
  | msixPba (off : Nat)
  | outside (off : Nat)
  | galleryCode (off : Nat)
  | bar0 (off : Nat)
deriving DecidableEq, Repr

/-- An SPDM request that names a certificate slot: the endpoint and the slot (R471). -/
structure CertAsk where
  port : Fin 4
  slot : Fin 16
deriving DecidableEq, Repr

/-- The SPDM request codes that have rows of their own (SPDM 1.3): GET_DIGESTS, GET_CERTIFICATE, CHALLENGE, GET_VERSION,
GET_MEASUREMENTS, GET_CAPABILITIES, NEGOTIATE_ALGORITHMS. -/
def spdmRows : List (BitVec 8) := [0x81, 0x82, 0x83, 0x84, 0xE0, 0xE1, 0xE3]

/-- An SPDM request named by its code: RESPOND_IF_READY (0xFF), or one that Keep does not support (R471). -/
structure OtherAsk where
  port : Fin 4
  code : BitVec 8
deriving DecidableEq, Repr

/-- A wide value named by its WIDE_VALUE record: block, instance and VALUE_ID (Table 8-8). -/
structure WideRef where
  block : Block
  inst : Nat
  id : Nat
deriving DecidableEq, Repr

/-- Whether a crossing into a register domain completed within its bound (R203); when it did not, whether a write had
taken effect all the same, which the manual leaves open. -/
inductive Crossing where
  | inTime
  | late (took : Bool)
deriving DecidableEq, Repr

/-- Bit errors that a stored HBM word has picked up before the access: DPA of the word and the bits inverted, numbered
as R152 numbers the information vector (0-63 data, 64 POISON, 65-91 location) and then CHK[14:0] (92-106); and whether
command, address or data parity errors of the access have persisted across three retries (R157). -/
structure Upset where
  addr : Nat
  mask : BitVec 107
  parity : Bool := false
deriving DecidableEq, Repr

/-- An upset of one configuration-register bit (R218): domain, place of the register in it, bit. -/
structure CfgUpset where
  domain : Nat
  index : Nat
  bit : Nat
deriving DecidableEq, Repr

/-- What one member of a group contributes to a collective: its rank and its bytes (R101, R404). -/
structure Contribution where
  rank : Nat
  bytes : List Byte
deriving DecidableEq, Repr

/-- Errors of the code of tile store and far cache met while a tile was written (R161): a single one, corrected; a double one
in an operand tile or a far-cache line, which is read again from where it came; a double one in a result tile, which exists
nowhere else. -/
inductive TstEvent where
  | clean
  | single (half : Half)
  | reread (half : Half) (off : Nat)
  | lost (half : Half) (off : Nat)
deriving DecidableEq, Repr

/-- A 66-bit block as a lane receives it: H[1:0] and the 64 bits after it, still scrambled, the first in bit 0 (R296). -/
structure RawBlock where
  head : BitVec 2
  bits : BitVec 64
deriving DecidableEq, Repr

/-- Why a lane is taken out (R309): the blocks that it has received, for its invalid headers; a low figure of merit; lost
alignment. -/
inductive LaneCause where
  | invalidHeaders (blocks : List RawBlock)
  | lowFom
  | lostAlignment
deriving DecidableEq, Repr

/-- What a receiver's eye monitor sees in 65,536 bits (R301): bit i of `phase` and of `level` is 1 where phase step i at the
middle threshold, and threshold step i at the middle phase, show no error. -/
structure Eye where
  phase : BitVec 64
  level : BitVec 64
deriving DecidableEq, Repr

/-- What training a lane at one speed found (Table 13-3, steps 2-5): the 64-bit word that the receiver delivers over and over
while the alignment word is sent, none when its words differ; its skew in blocks; its eye at each equaliser code; the invalid
headers over 65,536 blocks. -/
structure LaneTry where
  word : Option (BitVec 64)
  skew : Nat
  eyes : List Eye
  invalid : Nat
deriving DecidableEq, Repr

/-- Why a wavelength lane is taken out (R359): the codewords that its decoder has received; a ring out of lock for 100 µs. -/
inductive LambdaCause where
  | codewords (words : List (List (BitVec 10)))
  | ringLost
deriving DecidableEq, Repr

/-- A wavelength that is taken out, and why. -/
structure LambdaLoss where
  wave : Fin 16
  cause : LambdaCause
deriving DecidableEq, Repr

/-- What an attempt to lock a wavelength again finds (R355, R357, R359): the codewords received, its skew in blocks against the
port's other wavelengths, and whether it ran clean for 1 ms. -/
structure RelockTry where
  words : List (List (BitVec 10))
  skew : Nat
  clean : Bool
deriving DecidableEq, Repr

/-- What a lock loop measures at an update (R347, R350): the detuning of a modulator ring, or of a laser against its reference
ring, in heater steps towards the red; a drop ring's photodiode current one heater step below its code, at it, and one above. -/
inductive RingReading where
  | detuning (d : Int)
  | currents (below here above : Nat)
deriving DecidableEq, Repr

/-- What a receive fibre's bring-up finds (R377, Table 15-14): the wavelengths that locked, and of each wavelength in ascending
order its power in 0.1 dBm and its symbol errors before correction over 10 s. -/
structure RampFound where
  locked : BitVec 16
  powers : List Int
  errors : List Nat
deriving DecidableEq, Repr

/-- The receive power of a wavelength lane, in 0.1 dBm (R361). -/
structure LanePower where
  lantern : Fin 8
  port : Fin 16
  wave : Fin 16
  power : Int
deriving DecidableEq, Repr

/-- A Lantern whose fibres are dark, with what the monitor taps of its 16 closed shutters find: each one's attenuation in 0.1 dB,
in fibre order (R378). -/
structure DarkTest where
  lantern : Fin 8
  shutters : List Nat
deriving DecidableEq, Repr

/-- A debounced edge of a Lantern's SVC_REQ_N (R380). -/
structure ButtonEdge where
  lantern : Fin 8
  pressed : Bool
deriving DecidableEq, Repr

/-- A die's temperature samples in 1/16 degrees (R423), and, of a Lantern whose fibres are dark, its shutters' attenuations in
0.1 dB (R378). -/
structure ThermalRead where
  temps : List Int
  shutters : List Nat
deriving DecidableEq, Repr

/-- The spare that a WIDTH_SWITCH names, and on how many lanes of the old set the receiver saw it (R341). -/
structure SwitchSeen where
  spare : Nat
  lanes : Nat
deriving DecidableEq, Repr

/-- A scan of the test access port's instruction register: its time, and the opcode shifted in. -/
structure TapScan where
  time : Nat
  opcode : BitVec 8
deriving DecidableEq, Repr

/-- The limits of a stack's own specification (R425), in 1/16 degrees Celsius. -/
structure StackLimits where
  maxTemp : Int
  trip : Int
deriving DecidableEq, Repr

/-- A link: one of the 16 bundles or one of the 128 fabric ports (R320). -/
inductive LinkId where
  | bundle (b : Fin 16)
  | port (lantern : Fin 8) (port : Fin 16)
deriving DecidableEq, Repr

/-- The action of a width command (R343). -/
inductive WidthAction where
  | drop | add | replace
deriving DecidableEq, Repr

/-- A ring of a Lantern: the modulator or the receive filter of a port and wavelength, or of a spare (R350). -/
inductive RingId where
  | tx (port : Fin 16) (wave : Fin 16)
  | rx (port : Fin 16) (wave : Fin 16)
  | mux (laser : Fin 18)
deriving DecidableEq, Repr

/-- What the cold procedure finds on a bundle (Table 13-3): for each speed from 14 Gb/s up that may be tried, every physical
lane; and every lane again at the speed chosen, for when that is not the last one tried (step 7). -/
structure BundleTrain where
  tries : List (List LaneTry)
  again : List LaneTry
deriving DecidableEq, Repr

/-- What steps 4 and 5 of Table 13-3 and the check of 65,536 blocks find of a lane at a warm start or a retrain (R306, Table
14-6): the word that it delivers over and over, none when its words differ; its skew in blocks; its invalid headers. -/
structure LaneCheck where
  lane : Nat
  word : Option (BitVec 64)
  skew : Nat
  invalid : Nat
deriving DecidableEq, Repr

/-- What a start finds on a bundle (R306): its lanes verified where it starts from stored parameters, and what the cold
procedure finds where it trains. -/
structure BundleStart where
  lanes : List LaneCheck
  cold : BundleTrain
deriving DecidableEq, Repr

/-- The link whose retrain is complete, a bundle with what it finds of its lanes (Table 14-6). -/
inductive Retrained where
  | bundle (b : Fin 16) (lanes : List LaneCheck)
  | port (lantern : Fin 8) (port : Fin 16)
deriving DecidableEq, Repr

/-- What the Drum reads of the identity fuses at a start (R317): dies that cannot be read, dies with a field in uncorrectable
error, and the hash of its stacks' identities that each Spire makes. -/
structure IdentityRead where
  unread : List (Fin 11)
  spoiled : List (Fin 11)
  westStacks : BitVec 64
  eastStacks : BitVec 64
deriving DecidableEq, Repr

/-- The sensors of Table 19-10. -/
inductive PldmSensor where
  | dieTemp (die : Fin 11) | power | cap | security | powerState | safeState
deriving DecidableEq, Repr

/-- The quota effecters of Table 19-10. -/
inductive QuotaKind where
  | slotQuota | guarantee | limit
deriving DecidableEq, Repr

/-- The conditions that assert the package reset (R513). -/
inductive PackageCause where
  | resetPin | powerGoodLow | vinMainLow | refclkLost
deriving DecidableEq, Repr

/-- What the warm start of one half found (R498 step 7, R500): bundles verified or trained, the quick check's failed
columns, the attenuation in 0.1 dB of each Lantern's 16 shutters, the UCIe modules not repaired (R313), whether identity
matched. -/
structure HalfReport where
  identity : IdentityRead
  bundles : List (Fin 16 × BundleStart)
  failedCols : List Nat
  shutters : List (Fin 8 × List Nat)
  badModules : List (Fin 8 × Fin 5)
deriving DecidableEq, Repr

/-- What a cold start's sweep finds of a ring (R384, R386): the heater code at which it locks, and a modulator ring's set
point. -/
structure RingFound where
  lantern : Fin 8
  ring : RingId
  code : BitVec 16
  point : BitVec 16
deriving DecidableEq, Repr

/-- What commissioning measures of a laser at a wavelength (R384, R385, Table 15-14): its output at nominal bias and at its
ceiling, in 0.01 dBm, and its tuning and heater code. A fixed laser has its own wavelength only. -/
structure LaserFound where
  lantern : Fin 8
  laser : Fin 18
  wave : Fin 16
  output : Int
  top : Int
  code : BitVec 16
deriving DecidableEq, Repr

/-- What a start found (Table 20-2): each step's measured results, the temperature of each Lantern in 1/16 degrees and the
attenuations in 0.1 dB of its 16 shutters among them. -/
structure StartReport where
  selfTestOk : Bool
  identity : IdentityRead
  fuseCorrected : List (BitVec 12 × Fin 16)
  imageOk0 : Bool
  imageOk1 : Bool
  chainOk : Bool
  trained : List BundleStart
  westFailed : List Nat
  eastFailed : List Nat
  badRows : List Nat
  shutters : List (Fin 8 × List Nat)
  badModules : List (Fin 8 × Fin 5)
  lanTemps : List Int
  lasers : List LaserFound
  rings : List RingFound
  brokenSensors : List (Fin 11 × Nat)
  badLedger : List (BitVec 32)
  completes : Bool
deriving DecidableEq, Repr

/-- The commands of the block: one constructor per row of the table. The first operand of every
command is the Drum time base, in ns, at which the event takes place. -/
inductive Instr where
  /-- COMMAND_FETCH (R250). Gallery picks the next fetchable SQ entry by the partition and urgency rotation, reads the packet and its extension, and runs the acceptance checks of Table 11-3. -/
  | commandFetch (t : Nat)
  /-- GET_OCULUS (R262). Copies a consistent Oculus table to host memory when the buffer is large enough. -/
  | getOculus (t : Nat) (id : Nat)
  /-- SET_POWER_STATE (R263). Starts the transition to the target power state P0-P3. -/
  | setPowerState (t : Nat) (id : Nat)
  /-- MEM_ALLOC (R264). Maps fresh zeroed frames at a partition range with the given placement, all or none. -/
  | memAlloc (t : Nat) (id : Nat)
  /-- MEM_FREE (R265). Unmaps and zeroes a mapped range once earlier runs of the partition have completed. -/
  | memFree (t : Nat) (id : Nat)
  /-- MEM_COPY (R266). Copies bytes exactly between partition and host memory, carrying poison. -/
  | memCopy (t : Nat) (id : Nat)
  /-- MEM_FILL (R266). Writes a 64-bit pattern to every word of a range, clearing poison. -/
  | memFill (t : Nat) (id : Nat)
  /-- SEQ_OPEN (R268). Opens a sequence slot with its geometry and sampling items, reserving and zeroing its KV pages. -/
  | seqOpen (t : Nat) (id : Nat)
  /-- SEQ_CLOSE (R270). Cancels any work of a slot, frees it and returns its pages. -/
  | seqClose (t : Nat) (id : Nat)
  /-- SEQ_STEP (R271). Queues a feed or generate step for a slot, to run in a later run. -/
  | seqStep (t : Nat) (id : Nat)
  /-- SEQ_CANCEL (R134). Removes a slot's queued steps, discards its speculative and uncommitted work, optionally raises its generation, and replies after every CANCELLED reply. -/
  | seqCancel (t : Nat) (id : Nat)
  /-- SEQ_SAVE (R274). Writes an image of an OPEN slot's committed state to partition memory. -/
  | seqSave (t : Nat) (id : Nat)
  /-- SEQ_RESTORE (R269). Checks a sequence image and opens a slot from it. -/
  | seqRestore (t : Nat) (id : Nat)
  /-- OPLIST_LOAD (R275). Checks every descriptor statically and loads the list into both halves' memory. -/
  | oplistLoad (t : Nat) (id : Nat)
  /-- OPLIST_RUN (R276). Accepts a run of a loaded list without a row map. -/
  | oplistRun (t : Nat) (id : Nat)
  /-- DIGEST_READ (R277). Writes the 64-byte digest report of the last run of a list or the last step of a slot. -/
  | digestRead (t : Nat) (id : Nat)
  /-- FAB_ROUTE_SET (R278). Writes route entries together, or assigns the device ID. -/
  | fabRouteSet (t : Nat) (id : Nat)
  /-- FAB_PORT_STATE (R279). Reads a fabric port, gives it a new role and generation, or takes it down. -/
  | fabPortState (t : Nat) (id : Nat)
  /-- LANTERN_STATUS (R280). Returns a Lantern's status and optionally writes its 432-byte status record. -/
  | lanternStatus (t : Nat) (id : Nat)
  /-- LASER_SWAP (R281). Swaps a wavelength onto a spare laser in the next gap or at once, or retires it. -/
  | laserSwap (t : Nat) (id : Nat)
  /-- CAL_GAP_POLICY (R282). Sets, holds off or forces the calibration-gap policy of the Lanterns named. -/
  | calGapPolicy (t : Nat) (id : Nat)
  /-- SERVICE_DRAIN (R283). Drains a Lantern for unplugging, restores light after re-plugging, or abandons a drain. -/
  | serviceDrain (t : Nat) (id : Nat)
  /-- PWR_CAP_SET (R284). Sets the package power cap and replies once it is enforced. -/
  | pwrCapSet (t : Nat) (id : Nat)
  /-- THERM_STATUS (R285). Returns a die's thermal state and optionally writes its thermal record. -/
  | thermStatus (t : Nat) (id : Nat)
  /-- MARGIN_REPORT (R286). Writes the 256-byte margin-ledger summary. -/
  | marginReport (t : Nat) (id : Nat)
  /-- FAULT_READ (R287). Writes attributed log entries in log order from a given index. -/
  | faultRead (t : Nat) (id : Nat)
  /-- FAULT_ACK (R288). Acknowledges a log entry whose index and message match. -/
  | faultAck (t : Nat) (id : Nat)
  /-- FAULT_CLEAR (R288). Clears and acknowledges a matching log entry unless its cause persists. -/
  | faultClear (t : Nat) (id : Nat)
  /-- ATTEST (R289). Keep writes a signed SPDM measurements transcript for the indices requested. -/
  | attest (t : Nat) (id : Nat)
  /-- DEBUG_UNLOCK (R290). Keep issues a challenge, enters DEBUG_AUTH with a verified response, or returns to LOCKED. -/
  | debugUnlock (t : Nat) (id : Nat)
  /-- FW_UPDATE (R291). Opens, fills, verifies and marks, or abandons a Gallery image update session. -/
  | fwUpdate (t : Nat) (id : Nat)
  /-- LANE_BITSLIP (R292). Reads or slips the deserialiser of a lane that is out of service. -/
  | laneBitslip (t : Nat) (id : Nat)
  /-- LANE_FOM_READ (R293). Returns a lane's figure of merit, equaliser code, speed and role. -/
  | laneFomRead (t : Nat) (id : Nat)
  /-- FAULT_INJECT (R294). In FACTORY, injects a Belfry message marked as injected, with the reactions that its flag allows. -/
  | faultInject (t : Nat) (id : Nat)
  /-- FACTORY_COMMAND (R261). A factory-class opcode is accepted only in FACTORY and refused otherwise with SECURITY_DENIED. -/
  | factoryCommand (t : Nat) (id : Nat)
  /-- HST_SQ_TAIL (R238). The SQ doorbell write sets a new SQ tail, making entries fetchable. -/
  | hstSqTail (t : Nat) (port : Fin 4) (qp : Fin 16) (value : BitVec 32) (writes : List (Nat × BitVec 8)) (bad : List Nat)
  /-- HST_CQ_HEAD (R245). The CQ head write consumes replies, releases CQ back-pressure and re-signals MSI-X when replies remain. -/
  | hstCqHead (t : Nat) (port : Fin 4) (qp : Fin 16) (value : BitVec 32)
  /-- QUEUE_ENABLE (R256). Writing ENABLE 1 while ACTIVE is 0 resets the ring indices and phase and starts the queue pair. -/
  | queueEnable (t : Nat) (port : Fin 4) (qp : Fin 16) (value : BitVec 32)
  /-- QUEUE_DISABLE (R256). Writing ENABLE 0 stops fetching at once, and the queue drains to ACTIVE 0. -/
  | queueDisable (t : Nat) (port : Fin 4) (qp : Fin 16) (value : BitVec 32)
  /-- OCU_GEN_OFFER (R190). The first offer write locks the field and selects the generation; a second write is a relock violation. -/
  | ocuGenOffer (t : Nat) (port : Fin 4) (value : BitVec 32)
  /-- DRM_MBX_SEL (R213). A select write captures a wide value indivisibly into the mailbox data words. -/
  | drmMbxSel (t : Nat) (w : Writer) (wide : Option WideRef)
  /-- DRM_MBX_D3_READ (R213). A read of D3 returns the top word and clears VALID. -/
  | drmMbxD3Read (t : Nat) (w : Writer)
  /-- CFG_OPEN (R217). DRM_CFG_COMMIT with OPEN disarms a domain's configuration check. -/
  | cfgOpen (t : Nat) (w : Writer) (domain : Nat)
  /-- CFG_COMMIT (R217). DRM_CFG_COMMIT with COMMIT waits for earlier writes and starts a fresh reference scan. -/
  | cfgCommit (t : Nat) (w : Writer) (domain : Nat)
  /-- CFG_COMMIT_COMPLETE (R217). The commit scan ends, stores REF, arms the check and clears COMMIT_BUSY. -/
  | cfgCommitComplete (t : Nat) (domain : Nat)
  /-- CFG_SCAN (R218). Every 100 µs each domain's LIVE CRC is recomputed and compared with REF while the domain is armed. -/
  | cfgScan (t : Nat) (upset : Option CfgUpset)
  /-- REGISTER_WRITE (R5). A write to a register with no row of its own takes effect by its access code. -/
  | registerWrite (t : Nat) (w : Writer) (target : Target) (width : Nat) (value : BitVec 64) (cross : Crossing)
  /-- GOARD_BURST (R232). A partition's dropped or unmapped count passing 65,536 in one second logs one contained fault. -/
  | goardBurst (t : Nat) (port : Fin 4) (unmapped : Bool)
  /-- HST_PART_RESET (R234). A keyed write resets one partition under Table 10-16. -/
  | hstPartReset (t : Nat) (w : Writer) (partition : Fin 4) (value : BitVec 32)
  /-- DRM_STEWARD (R229). A write moves the steward role and raises both partitions' generations. -/
  | drmSteward (t : Nat) (w : Writer) (value : BitVec 32)
  /-- ORDERLY_HALF_RESET (R498). DRM_RESET_CTRL action 1 or 2 resets a half in the orderly way, keeping its state. -/
  | orderlyHalfReset (t : Nat) (w : Writer) (half : Half) (key : Nat)
  /-- DECLARE_HALF_LOST (R501). DRM_RESET_CTRL action 3 or 4 declares a half lost. -/
  | declareHalfLost (t : Nat) (w : Writer) (half : Half) (key : Nat)
  /-- SINGLE_HALF_OPERATION (R502). DRM_RESET_CTRL action 5 unmaps the lost half's frames and runs the device on the remaining half. -/
  | singleHalfOperation (t : Nat) (w : Writer) (key : Nat)
  /-- DEVICE_RESET (R484). DRM_RESET_CTRL action 6 resets the device, and a start follows. -/
  | deviceReset (t : Nat) (w : Writer) (key : Nat)
  /-- DEVICE_RESET_COLD (R484). DRM_RESET_CTRL action 7 resets the device with a cold start requested. -/
  | deviceResetCold (t : Nat) (w : Writer) (key : Nat)
  /-- REQUEST_COLD_START (R485). DRM_RESET_CTRL action 8 requests a cold next start without a reset. -/
  | requestColdStart (t : Nat) (w : Writer) (key : Nat)
  /-- WITHDRAW_COLD_REQUEST (R485). DRM_RESET_CTRL action 9 withdraws a pending cold-start request. -/
  | withdrawColdRequest (t : Nat) (w : Writer) (key : Nat)
  /-- FLT_ENTRY_ACK (R455). Writing 1 to UNACKED of FLT_ENTRY acknowledges the selected entry. -/
  | fltEntryAck (t : Nat) (w : Writer)
  /-- FLT_ENTRY_CLEAR (R455). Writing 1 to UNCLEARED of FLT_ENTRY clears and acknowledges the entry unless its cause persists. -/
  | fltEntryClear (t : Nat) (w : Writer)
  /-- BAR2_READ (R226). A BAR2 read is translated through the frame map and served, poisoned, or completed with Unsupported Request. -/
  | bar2Read (t : Nat) (port : Fin 4) (offset : Nat) (len : Nat) (upsets : List Upset)
  /-- BAR2_WRITE (R226). A BAR2 write is translated and written coherently, or dropped when unmapped. -/
  | bar2Write (t : Nat) (port : Fin 4) (offset : Nat) (bytes : List (BitVec 8))
  /-- HOST_LINK_UP (R222). A host port link trains and is judged against the minimum width and rate. -/
  | hostLinkUp (t : Nat) (port : Fin 4) (width : Nat) (rate : Nat)
  /-- FUNCTION_LEVEL_RESET (R234). A function-level reset resets the endpoint's partition and function state. -/
  | functionLevelReset (t : Nat) (port : Fin 4)
  /-- HOT_RESET (R234). A hot reset or loss of the data link resets the partition, and the link retrains. -/
  | hotReset (t : Nat) (port : Fin 4)
  /-- PERST_N_ASSERT (R234). PERST_N asserted on a host port resets the partition and the port's PHY. -/
  | perstNAssert (t : Nat) (port : Fin 4)
  /-- D3HOT_ENTRY (R223). Entry to D3hot stops the partition's queue fetching and interrupts, keeping its state. -/
  | d3hotEntry (t : Nat) (port : Fin 4)
  /-- FRAME_ZEROING_DONE (R167). Zeroing of released frames completes, returning them to the pool and letting waiting allocations proceed. -/
  | frameZeroingDone (t : Nat) (half : Half)
  /-- RUN_FORM (R122). When the arrays are about to become free, Gallery forms the next run, writes the row map and checks each step against the slot pointers. -/
  | runForm (t : Nat)
  /-- MATMUL (R87). Matrix product in the exact or deterministic class with its fused epilogue. -/
  | matmul (t : Nat) (peers : List Contribution) (upsets : List Upset)
  /-- ATTEND (R94). Writes each row's K and V into the KV pages and attends over the slot's positions. -/
  | attend (t : Nat) (upsets : List Upset)
  /-- NORM (R96). RMS or layer normalisation of each row with exact sums. -/
  | norm (t : Nat) (upsets : List Upset)
  /-- ACT (R89). Applies an activation table element by element. -/
  | act (t : Nat) (upsets : List Upset)
  /-- ROPE (R97). Rotary position encoding of the rotated pairs. -/
  | rope (t : Nat) (upsets : List Upset)
  /-- SAMPLE (R126). Draws one token per row with the position-keyed sampler. -/
  | sample (t : Nat) (upsets : List Upset)
  /-- DRAFT (R127). Chooses a draft token per row from the drafter logits. -/
  | draft (t : Nat) (upsets : List Upset)
  /-- VERIFY (R128). Compares the drafts with the sampled tokens, commits tokens, moves the pointers and writes the token record. -/
  | verify (t : Nat) (upsets : List Upset)
  /-- GATHER (R99). Writes table rows selected by index. -/
  | gather (t : Nat) (upsets : List Upset)
  /-- SCATTER (R99). Writes rows into a table by index, replacing or adding. -/
  | scatter (t : Nat) (order : List Nat) (upsets : List Upset)
  /-- COPY (R77). Raw or converting copy. -/
  | copy (t : Nat) (upsets : List Upset)
  /-- XSEND (R100). Sends bytes to one rank of a group. -/
  | xsend (t : Nat) (upsets : List Upset)
  /-- XRECV (R100). Completes when all bytes from the named rank and tag have been written. -/
  | xrecv (t : Nat)
  /-- XREDUCE (R101). All-reduce of FP32 or BF16 over a group in rank or arrival order. -/
  | xreduce (t : Nat) (peers : List Contribution) (order : List Nat) (upsets : List Upset)
  /-- EXACT_REDUCE (R92). Sums exact partial records with the anchor check, then applies the epilogue and rounds once. -/
  | exactReduce (t : Nat) (peers : List Contribution) (upsets : List Upset)
  /-- DIGEST_MARK (R102). Writes a 32-byte digest record at D. -/
  | digestMark (t : Nat)
  /-- FENCE (R103). Waits for earlier operations, a memory semaphore or a group barrier. -/
  | fence (t : Nat)
  /-- FENCE_SATISFIED (R103). The condition of a waiting FENCE is met and resolve and streaming continue. -/
  | fenceSatisfied (t : Nat)
  /-- FENCE_TIMEOUT (R103). A FENCE waiting past P1 µs is refused with BUSY and its group epoch is spent. -/
  | fenceTimeout (t : Nat)
  /-- LOOP (R104). Repeats the body descriptors COUNT times with advanced addresses. -/
  | loop (t : Nat)
  /-- DRAFTER_ITERATION (R131). Gallery runs one drafter iteration of the drafter section for the slots of a run. -/
  | drafterIteration (t : Nat)
  /-- DRAFT_EARLY_START (R37). When VERIFY enters the epilogue, drafter work begins on the assumption that every draft is accepted. -/
  | draftEarlyStart (t : Nat)
  /-- OPERATION_BOUNDARY (R31). Both halves exchange operation-complete tokens, column bindings take effect, and the next operation may start. -/
  | operationBoundary (t : Nat)
  /-- TILE_WRITE (R30). A result tile whose slab checks passed is written and its CRC is added to the digest. -/
  | tileWrite (t : Nat) (k : Nat) (tst : TstEvent)
  /-- SLAB_CHECK_FAIL (R43). A residue or dual-rail code check fails, and the tile is re-executed or the slab is declared failed. -/
  | slabCheckFail (t : Nat) (half : Half) (column : Nat) (row : Nat) (code : Bool) (k : Nat)
  /-- SLAB_STALL_WATCHDOG (R42). A slab without handshake progress for 2 µs is declared failed. -/
  | slabStallWatchdog (t : Nat) (half : Half) (column : Nat) (row : Nat) (k : Nat)
  /-- SENTINEL_SAMPLE (R47). Every 100 ms each ageing sentinel is counted and its slowdown is reported. -/
  | sentinelSample (t : Nat) (half : Half) (counts : List (Nat × Int))
  /-- PROACTIVE_RESERVE (R48). A column slow for one hour is placed in reserve at the next boundary. -/
  | proactiveReserve (t : Nat) (half : Half) (column : Nat)
  /-- ARR_RATE_UPDATE (R51). Every 100 µs the measured wave rate is updated. -/
  | arrRateUpdate (t : Nat) (half : Half) (measured : Nat)
  /-- SCRUB_PASS (R156). Patrol scrub reads each word and row tag of a half once per period. -/
  | scrubPass (t : Nat) (half : Half) (upsets : List Upset) (badTags : List Nat) (parity : List Nat)
  /-- RETIRE_PENDING_RESOLVE (R158). A frame freed in the half lets a pending retirement copy be made. -/
  | retirePendingResolve (t : Nat) (half : Half)
  /-- PC_RELOCATION_DONE (R159). The background copy of a fenced pseudo-channel completes. -/
  | pcRelocationDone (t : Nat) (half : Half)
  /-- FENCE_PENDING_RESOLVE (R159). Frames freed let a pending pseudo-channel fence proceed. -/
  | fencePendingResolve (t : Nat) (half : Half)
  /-- HBM_TEMP_SAMPLE (R160). A stack temperature readout sets the refresh rate and the streaming limit. -/
  | hbmTempSample (t : Nat) (stack : Fin 32) (temp : Int) (limits : StackLimits)
  /-- LANE_FOM_MEASURE (R309). Every 1 ms each lane's figure of merit is measured. -/
  | laneFomMeasure (t : Nat) (bundle : Fin 16) (eyes : List Eye)
  /-- LANE_FAILURE (R309). A lane with too many invalid headers, a low figure of merit or lost alignment is replaced by a spare or dropped, or the bundle is fenced. -/
  | laneFailure (t : Nat) (bundle : Fin 16) (lane : Nat) (cause : LaneCause)
  /-- SPARE_EQ_SWEEP (R302). Every second each spare lane's equaliser code is re-swept. -/
  | spareEqSweep (t : Nat) (bundle : Fin 16) (lane : Nat) (eyes : List Eye)
  /-- BUNDLE_SLEEP (R307). A bundle idle for IDLE_TIME enters light or deep sleep. -/
  | bundleSleep (t : Nat) (bundle : Fin 16)
  /-- BUNDLE_WAKE (R308). A flit due on a sleeping bundle wakes it with a wake burst and ALIGN. -/
  | bundleWake (t : Nat) (bundle : Fin 16)
  /-- TIME_BLOCK (R315). Every 1 µs the Drum sends a TIME block that each Spire corrects and relays. -/
  | timeBlock (t : Nat) (half : Half) (arrived : Bool)
  /-- UCIE_MODULE_LOSS (R313). A UCIe module losing its link is taken out of use, and the Lantern may be fenced. -/
  | ucieModuleLoss (t : Nat) (lantern : Fin 8) (module : Fin 5)
  /-- FLIT_TRANSMIT (R325). At a flit boundary the transmitter sends the next flit that holds a credit, by precedence. -/
  | flitTransmit (t : Nat) (link : LinkId)
  /-- FLIT_RECEIVE (R329). A received flit is checked and delivered, discarded as stale or duplicate, or NAKed. -/
  | flitReceive (t : Nat) (link : LinkId) (flit : List (BitVec 8))
  /-- ACK_COALESCE_TIMER (R328). The coalescing count or time elapses and an ACK is sent. -/
  | ackCoalesceTimer (t : Nat) (link : LinkId)
  /-- ACK_RECEIVE (R330). A cumulative ACK frees replay-buffer entries. -/
  | ackReceive (t : Nat) (link : LinkId) (seq : BitVec 12)
  /-- NAK_RECEIVE (R330). A NAK acknowledges the earlier flits and starts a replay. -/
  | nakReceive (t : Nat) (link : LinkId) (seq : BitVec 12)
  /-- CREDIT_REPORT (R327). The receiver sends FREED after 16 buffers, 32 ns after an advance, or each 1 µs. -/
  | creditReport (t : Nat) (link : LinkId) (vc : Fin 4) (taken : Nat)
  /-- CREDIT_RECEIVE (R327). A CREDIT block returns credits as the difference in FREED. -/
  | creditReceive (t : Nat) (link : LinkId) (vc : Fin 4) (freed : BitVec 12)
  /-- REPLAY_TIMEOUT (R330). OLDEST unchanged for REPLAY_TIMEOUT starts a replay, or a retrain, or puts the link down. -/
  | replayTimeout (t : Nat) (link : LinkId)
  /-- RETRAIN_COMPLETE (R334). A retrain ends within its bound and the link resumes. -/
  | retrainComplete (t : Nat) (found : Retrained)
  /-- REPLAY_RATE_FAULT (R344). More than 1,000 replays on a link in one second logs one corrected fault. -/
  | replayRateFault (t : Nat) (link : LinkId)
  /-- DOWN_RETRY (R335). While a link is down, both ends try training again each DOWN_RETRY. -/
  | downRetry (t : Nat) (link : LinkId) (train : Option BundleTrain)
  /-- HELLO_RECEIVE (R336). A HELLO resumes the link, starts it afresh, or holds it in training on a LINK_GEN mismatch. -/
  | helloReceive (t : Nat) (link : LinkId) (fresh : Bool) (nextRx : BitVec 12) (gen : BitVec 16)
  /-- INIT_RECEIVE (R336). An INIT advertises a virtual channel's credits after a fresh start. -/
  | initReceive (t : Nat) (link : LinkId) (vc : Fin 4) (credits : BitVec 12)
  /-- FENCE_NOTE_RECEIVE (R337). The transmitter resends a fenced bundle's flits from NEXT_RX on a sibling. -/
  | fenceNoteReceive (t : Nat) (bundle : Fin 16) (nextRx : BitVec 12)
  /-- WIDTH_REQ (R341). A width request makes the transmitter finish its flit and switch the lane set. -/
  | widthReq (t : Nat) (link : LinkId) (cmd : BitVec 8) (action : WidthAction) (lane : Nat) (spare : Nat)
  /-- WIDTH_SWITCH (R341). The receiver rebinds its lanes on seeing WIDTH_SWITCH, and the new set carries the stream. -/
  | widthSwitch (t : Nat) (link : LinkId) (cmd : BitVec 8) (action : WidthAction) (lane : Nat) (seen : SwitchSeen)
  /-- WIDTH_DONE (R343). Completion of a width change lets the next one proceed. -/
  | widthDone (t : Nat) (link : LinkId) (cmd : BitVec 8)
  /-- RING_LOCK_UPDATE (R350). Every 4 µs each ring and laser lock loop adjusts its heater. -/
  | ringLockUpdate (t : Nat) (lantern : Fin 8) (ring : RingId) (seen : RingReading)
  /-- LASER_CHECK (R367). Every 100 ms each laser is compared with its baseline for warning and the forced threshold. -/
  | laserCheck (t : Nat) (lantern : Fin 8) (laser : Fin 18) (bias : Nat) (output : Int) (freq : Int) (offGrid : Bool)
  /-- SPARE_LOCKED (R348). A spare finishes tuning and locks on the dump port. -/
  | spareLocked (t : Nat) (lantern : Fin 8) (spare : Fin 2)
  /-- SPARE_LOCK_FAIL (R370). A spare that fails to lock within 50 ms is marked failed and the other spare is tried. -/
  | spareLockFail (t : Nat) (lantern : Fin 8) (spare : Fin 2)
  /-- CAL_GAP_START (R364). A calibration gap drops a wavelength, checks its laser, re-centres its rings and performs a due swap. -/
  | calGapStart (t : Nat) (lantern : Fin 8)
  /-- CAL_GAP_TIMEOUT (R364). A port whose ADD has not come 5 ms after the gap keeps the wavelength dropped. -/
  | calGapTimeout (t : Nat) (lantern : Fin 8) (port : Fin 16)
  /-- LAMBDA_FAIL (R359). A wavelength lane losing lock or showing uncorrectable codewords is dropped by WIDTH_REQ. -/
  | lambdaFail (t : Nat) (lantern : Fin 8) (port : Fin 16) (loss : LambdaLoss)
  /-- MOD_RING_LOCK_LOSS (R360). A transmit lane whose modulator ring cannot hold lock is dropped by the transmitting side. -/
  | modRingLockLoss (t : Nat) (lantern : Fin 8) (port : Fin 16) (wave : Fin 16)
  /-- LAMBDA_RELOCK_ATTEMPT (R359). Every 10 ms the Lantern tries to re-lock a dropped lane, and re-adds it after 1 ms clean. -/
  | lambdaRelockAttempt (t : Nat) (lantern : Fin 8) (port : Fin 16) (wave : Fin 16) (tx : Bool) (found : RelockTry)
  /-- LAMBDA_DROP_TIMEOUT (R359). A lane still dropped after 1 s logs a contained fault. -/
  | lambdaDropTimeout (t : Nat) (lantern : Fin 8) (port : Fin 16) (wave : Fin 16) (tx : Bool)
  /-- SER_CHECK (R361). A lane's pre-FEC symbol error ratio over 1 s above 1e-6 logs a corrected fault. -/
  | serCheck (t : Nat) (lantern : Fin 8) (port : Fin 16) (wave : Fin 16) (errors : Nat) (symbols : Nat)
  /-- SHELL_OPEN (R374). FIBRE_PRESENT_N high takes every fibre of the Lantern DARK. -/
  | shellOpen (t : Nat) (dark : DarkTest)
  /-- SHELL_CLOSED (R374). FIBRE_PRESENT_N low for 50 ms takes the fibres from DARK to KEEP_ALIVE unless a drain holds them. -/
  | shellClosed (t : Nat) (lantern : Fin 8)
  /-- RX_LIGHT_LOSS (R374). Receive power below -14 dBm for 100 µs takes the fibre to KEEP_ALIVE. -/
  | rxLightLoss (t : Nat) (lantern : Fin 8) (port : Fin 16)
  /-- BEACON_RECEIVE (R376). A valid beacon frame advances the handshake toward RAMP. -/
  | beaconReceive (t : Nat) (lantern : Fin 8) (port : Fin 16) (frame : BitVec 64)
  /-- RAMP_TIMEOUT (R376). Full light not arriving 10 ms after RAMP returns the port to KEEP_ALIVE. -/
  | rampTimeout (t : Nat) (lantern : Fin 8) (port : Fin 16)
  /-- BEACON_TIMEOUT (R376). No valid frame for 5 ms before RAMP returns the port to KEEP_ALIVE. -/
  | beaconTimeout (t : Nat) (lantern : Fin 8) (port : Fin 16)
  /-- READY_RETRY (R376). 100 ms after a failed handshake the port may send READY again. -/
  | readyRetry (t : Nat) (lantern : Fin 8) (port : Fin 16)
  /-- PORT_RAMP_COMPLETE (R377). Rings relock, the fibre enters FULL, and the link comes up through HELLO. -/
  | portRampComplete (t : Nat) (lantern : Fin 8) (port : Fin 16) (found : RampFound)
  /-- SVC_BUTTON_PRESS (R381). A debounced SVC_REQ_N press starts a drain or restores light. -/
  | svcButtonPress (t : Nat) (edge : ButtonEdge)
  /-- DRAIN_PORTS_EMPTY (R381). When the ports have nothing queued or unacknowledged they go down and the fibres go DARK. -/
  | drainPortsEmpty (t : Nat) (dark : DarkTest)
  /-- DRAIN_TIMEOUT (R381). DRAIN_TIMEOUT expiry takes the ports down, holding their traffic. -/
  | drainTimeout (t : Nat) (dark : DarkTest)
  /-- AUTO_RESTORE (R381). With AUTO_RESTORE set, a shell closed for 1 s restores light. -/
  | autoRestore (t : Nat) (lantern : Fin 8)
  /-- LANTERN_PLL_UNLOCK (R495). A Lantern PLL out of lock for 1 µs resets that Lantern. -/
  | lanternPllUnlock (t : Nat) (lantern : Fin 8)
  /-- LANTERN_RETURN (R496). When the cause ends, the Lantern retrains UCIe, relocks, tests shutters and brings its ports up. -/
  | lanternReturn (t : Nat) (lantern : Fin 8) (badModules : List (Fin 5)) (shutters : List Nat)
  /-- LANTERN_RETURN_TIMEOUT (R496). A Lantern not back 1 s after its cause ends, or reset three times in 60 s, is fenced. -/
  | lanternReturnTimeout (t : Nat) (lantern : Fin 8)
  /-- LANTERN_STOP_EXIT (R431). A Lantern below 80 °C for 1 s leaves stop and its light returns through the handshake. -/
  | lanternStopExit (t : Nat) (lantern : Fin 8)
  /-- FABRIC_MESSAGE_RECEIVE (R399). A fabric message is routed onward or checked and delivered to the exchange area. -/
  | fabricMessageReceive (t : Nat) (lantern : Fin 8) (port : Fin 16) (msg : List (BitVec 8))
  /-- ROUTER_RELEASE (R390). A held message is placed once a port of its trunk becomes usable or its route changes. -/
  | routerRelease (t : Nat) (k : Nat)
  /-- ROLE_NOTICE (R407). A ROLE_NOTICE discards held messages of the ended partition generation. -/
  | roleNotice (t : Nat) (dev : Nat) (partition : Fin 4) (gen : BitVec 16)
  /-- POWER_SAMPLE (R416). Every 10 µs package power is measured and the cap controller acts. -/
  | powerSample (t : Nat) (losses : Nat) (voltages : List Nat) (currents : List Nat) (risen : List (Fin 14 × Nat))
  /-- VOLTAGE_ADJUST (R418). Every 10 µs VDD_ARRAY moves by at most 10 mV toward the rate target. -/
  | voltageAdjust (t : Nat) (half : Half) (measured : Nat) (temp : Int)
  /-- TELEMETRY_TIMEOUT (R412). A die silent for 1 ms is treated as throttled and its half's voltage is floored. -/
  | telemetryTimeout (t : Nat) (die : Fin 11) (back : Bool)
  /-- IDLE_ENTRY (R415). Arrays quiescent for IDLE_ENTRY take the device to P1. -/
  | idleEntry (t : Nat)
  /-- P2_SUSPEND (R141). After the run in the array finishes, slots are suspended and the device enters P2. -/
  | p2Suspend (t : Nat)
  /-- RAIL_BELOW_WARNING (R420). A rail below warning records a droop and holds the issue of new operations. -/
  | railBelowWarning (t : Nat) (rail : Fin 14) (millivolts : Nat)
  /-- DROOP_HOLD_RELEASE (R420). Rails above warning for 50 µs release the hold on new operations. -/
  | droopHoldRelease (t : Nat)
  /-- DROOP_RATE (R422). More than 16 droop events on a rail in one second logs a corrected fault. -/
  | droopRate (t : Nat) (rail : Fin 14)
  /-- RAIL_BELOW_RESET (R419). A rail below its reset level for 200 ns causes the reset that Table 17-4 gives. -/
  | railBelowReset (t : Nat) (rail : Fin 14) (millivolts : Nat)
  /-- HALF_PLL_UNLOCK (R495). A half's PLLs out of lock for 1 µs reset that half abruptly. -/
  | halfPllUnlock (t : Nat) (half : Half)
  /-- ORDERLY_RESET_TIMEOUT (R495). Orderly preparation passing 5 ms turns the reset abrupt. -/
  | orderlyResetTimeout (t : Nat) (half : Half)
  /-- HALF_RETURN (R499). A reset half completes its warm start, restores its links, and the abandoned operation continues. -/
  | halfReturn (t : Nat) (half : Half) (report : HalfReport)
  /-- HALF_START_FAILURE (R501). Two consecutive failed starts of a half declare it lost. -/
  | halfStartFailure (t : Nat) (half : Half)
  /-- THERMAL_SAMPLE (R425). Every 20 µs sensors are checked for broken sensors, levels and rate of rise. -/
  | thermalSample (t : Nat) (die : Fin 11) (read : ThermalRead)
  /-- THROTTLE_ADJUST (R425). The thermal controller lowers the target 2 % per ms at throttle and raises it 1 % per 10 ms after. -/
  | throttleAdjust (t : Nat) (half : Half)
  /-- HARD_TRIP (R430). A die's trip comparator removes the array and laser rails and enters the safe state. -/
  | hardTrip (t : Nat) (die : Fin 11) (temp : Int)
  /-- LEDGER_RECORD (R434). Each hour a signed margin-ledger record is appended and the plan is redone. -/
  | ledgerRecord (t : Nat) (powers : List LanePower)
  /-- BELFRY_MESSAGE_ARRIVAL (R448). A fault message reaches the Belfry and waits in the 50 µs reorder window. -/
  | belfryMessageArrival (t : Nat) (msg : BitVec 64) (stamp : Nat)
  /-- BELFRY_LOG (R448). When its window closes the message is escalated or counted as a repeat, logged, and its reaction taken. -/
  | belfryLog (t : Nat)
  /-- BELFRY_PARITY (R447). A parity fault in the Belfry enters the safe state at once. -/
  | belfryParity (t : Nat) (location : BitVec 16)
  /-- UPDATE_SESSION_TIMEOUT (R470). An update session idle for 60 s ends, leaving its slot unmarked. -/
  | updateSessionTimeout (t : Nat)
  /-- GET_VERSION (R471). SPDM GET_VERSION request over DOE answered by Keep. -/
  | spdmGetVersion (t : Nat) (port : Fin 4)
  /-- GET_CAPABILITIES (R471). SPDM GET_CAPABILITIES request answered by Keep. -/
  | spdmGetCapabilities (t : Nat) (port : Fin 4)
  /-- NEGOTIATE_ALGORITHMS (R471). SPDM NEGOTIATE_ALGORITHMS request answered by Keep. -/
  | spdmNegotiateAlgorithms (t : Nat) (port : Fin 4)
  /-- GET_DIGESTS (R471). SPDM GET_DIGESTS request answered by Keep. -/
  | spdmGetDigests (t : Nat) (port : Fin 4)
  /-- GET_CERTIFICATE (R464). SPDM GET_CERTIFICATE served from the flash chain. -/
  | spdmGetCertificate (t : Nat) (ask : CertAsk) (offset : Nat) (len : Nat)
  /-- CHALLENGE (R471). SPDM CHALLENGE signed by Keep. -/
  | spdmChallenge (t : Nat) (ask : CertAsk) (nonce : List (BitVec 8)) (slow : Bool)
  /-- GET_MEASUREMENTS (R472). SPDM GET_MEASUREMENTS returns the measurement indices. -/
  | spdmGetMeasurements (t : Nat) (ask : CertAsk) (index : BitVec 8) (sign : Bool) (nonce : List (BitVec 8)) (slow : Bool)
  /-- RESPOND_IF_READY (R471). SPDM RESPOND_IF_READY returns a deferred response. -/
  | spdmRespondIfReady (t : Nat) (ask : OtherAsk)
  /-- GET_TID (R482). PLDM type 0 GetTID request. -/
  | pldmGetTid (t : Nat)
  /-- GET_PLDM_VERSION (R482). PLDM type 0 GetPLDMVersion request. -/
  | pldmGetVersion (t : Nat) (type : BitVec 8)
  /-- GET_PLDM_TYPES (R482). PLDM type 0 GetPLDMTypes request. -/
  | pldmGetTypes (t : Nat)
  /-- GET_PLDM_COMMANDS (R482). PLDM type 0 GetPLDMCommands request. -/
  | pldmGetCommands (t : Nat) (type : BitVec 8)
  /-- PLDM_READ_SENSOR (R482). A PLDM type 2 sensor read of temperature, power or state. -/
  | pldmReadSensor (t : Nat) (sensor : PldmSensor)
  /-- PLDM_SET_POWER_CAP (R482). The PLDM power-cap effecter acts as PWR_CAP_SET. -/
  | pldmSetPowerCap (t : Nat) (watts : Nat)
  /-- PLDM_SET_POWER_STATE (R482). The PLDM power-state effecter acts as SET_POWER_STATE. -/
  | pldmSetPowerState (t : Nat) (target : Nat)
  /-- PLDM_SET_STEWARD (R482). The PLDM steward effecter writes DRM_STEWARD. -/
  | pldmSetSteward (t : Nat) (partition : Nat)
  /-- PLDM_PARTITION_RESET (R482). The PLDM partition-reset effecter acts as HST_PART_RESET. -/
  | pldmPartitionReset (t : Nat) (partition : Nat)
  /-- PLDM_SET_QUOTA (R482). A PLDM quota effecter sets a partition's slot quota, guarantee or limit. -/
  | pldmSetQuota (t : Nat) (partition : Fin 4) (which : QuotaKind) (value : Nat)
  /-- PLDM_LANTERN_SERVICE (R482). The PLDM Lantern-service effecter acts as SERVICE_DRAIN. -/
  | pldmLanternService (t : Nat) (value : Nat)
  /-- PLDM_POLL_EVENT (R482). PollForPlatformEventMessage returns the next fault entry and acknowledges it. -/
  | pldmPollEvent (t : Nat) (ack : Option (BitVec 32))
  /-- PLDM_FAULT_CLEAR (R482). The PLDM fault-clear effecter clears a log entry unless its cause persists. -/
  | pldmFaultClear (t : Nat) (index : BitVec 32)
  /-- REQUEST_UPDATE (R470). PLDM type 5 RequestUpdate opens the update session. -/
  | pldmRequestUpdate (t : Nat) (imageLen : Nat)
  /-- PASS_COMPONENT_TABLE (R470). PLDM type 5 PassComponentTable for the single image component. -/
  | pldmPassComponentTable (t : Nat) (components : Nat)
  /-- UPDATE_COMPONENT (R470). PLDM type 5 UpdateComponent starts the image transfer. -/
  | pldmUpdateComponent (t : Nat)
  /-- REQUEST_FIRMWARE_DATA (R470). PLDM type 5 firmware data transfer of image chunks. -/
  | pldmRequestFirmwareData (t : Nat) (offset : Nat) (chunk : List (BitVec 8))
  /-- TRANSFER_COMPLETE (R470). PLDM type 5 TransferComplete ends the transfer. -/
  | pldmTransferComplete (t : Nat)
  /-- VERIFY_COMPLETE (R470). PLDM type 5 VerifyComplete after Keep verifies the image. -/
  | pldmVerifyComplete (t : Nat)
  /-- APPLY_COMPLETE (R470). PLDM type 5 ApplyComplete. -/
  | pldmApplyComplete (t : Nat)
  /-- ACTIVATE_FIRMWARE (R470). PLDM type 5 ActivateFirmware marks the slot for the next start. -/
  | pldmActivateFirmware (t : Nat)
  /-- GET_STATUS (R470). PLDM type 5 GetStatus returns the session state. -/
  | pldmGetStatus (t : Nat)
  /-- CANCEL_UPDATE (R470). PLDM type 5 CancelUpdate abandons the session. -/
  | pldmCancelUpdate (t : Nat)
  /-- BYPASS (R318). JTAG BYPASS selects the one-bit register. -/
  | jtagBypass (scan : TapScan)
  /-- IDCODE (R318). JTAG IDCODE selects the identification register. -/
  | jtagIdcode (t : Nat)
  /-- SAMPLE_PRELOAD (R318). JTAG SAMPLE/PRELOAD captures or loads the boundary-scan register. -/
  | jtagSamplePreload (t : Nat) (load : Option (BitVec 46)) (balls : BitVec 46)
  /-- EXTEST (R318). JTAG EXTEST drives the balls from the boundary-scan register. -/
  | jtagExtest (t : Nat)
  /-- CLAMP (R318). JTAG CLAMP holds the balls and selects bypass. -/
  | jtagClamp (t : Nat)
  /-- HIGHZ (R318). JTAG HIGHZ puts every output ball in high impedance. -/
  | jtagHighz (t : Nat)
  /-- DIE_SELECT (R318). JTAG DIE_SELECT opens the IEEE 1838 path where the security state allows. -/
  | jtagDieSelect (t : Nat)
  /-- TAP_LEAVE_TEST_INSTRUCTION (R319). The TAP leaving EXTEST, CLAMP or HIGHZ takes a device reset. -/
  | tapLeaveTestInstruction (t : Nat)
  /-- POWER_ON (R512). VIN_AUX rising from Off brings the Drum rails up and the time base starts. -/
  | powerOn (t : Nat)
  /-- PACKAGE_RESET (R513). PKG_RESET_N, PWR_GOOD low, a VIN_MAIN dip or loss of REFCLK asserts package reset and takes the rails down. -/
  | packageReset (t : Nat) (cause : PackageCause)
  /-- PACKAGE_RESET_RELEASE (R512). With every power-on condition met the Drum leaves reset and sequences the rails. -/
  | packageResetRelease (t : Nat) (tbref : Bool) (mgmtAddr : BitVec 3)
  /-- POWER_OFF (R514). VIN_AUX below 10.8 V for 20 µs is Off, losing the log, the cap and the time base. -/
  | powerOff (t : Nat)
  /-- TBREF_LOSS (R516). TBREF_25 lost or out of range makes the time base continue from REFCLK and sets TBREF_LOST. -/
  | tbrefLoss (t : Nat)
  /-- COLD_START (R487). Cold start: measured boot, full training, HBM initialisation, full BIST and ring sweeps. -/
  | coldStart (t : Nat) (report : StartReport)
  /-- WARM_START (R489). Warm start: stored parameters are checked instead of remeasured. -/
  | warmStart (t : Nat) (report : StartReport)
  /-- START_FAILURE (R492). A start not reaching step 13 within its watchdog logs CORE_HANG and enters the safe state. -/
  | startFailure (t : Nat) (core : Fin 4)
  /-- AUTO_DEVICE_RESET (R493). 100 ms after a failed start's safe state the Drum resets the device, unless four starts have failed. -/
  | autoDeviceReset (t : Nat)
  /-- TRAINING_PARAMS_WRITE (R494). The older copy of the stored parameters is written within 1 s of a change. -/
  | trainingParamsWrite (t : Nat)
  /-- CAL_GAP_HOLD_END (R282). The HOLD_MS of a CAL_GAP_POLICY MODE 1 hold-off runs out, the policy returns to automatic, and a gap that fell due during the hold runs. -/
  | calGapHoldEnd (t : Nat) (lantern : Fin 8)
  /-- RETRAIN_TIMEOUT (R333). A retrain that does not complete within its bound of Table 14-6 puts the link down and holding. -/
  | retrainTimeout (t : Nat) (link : LinkId)
  /-- D3HOT_EXIT (R223). A host configuration write returning the function from D3hot to D0 resumes the partition's queue fetching and interrupts. -/
  | d3hotExit (t : Nat) (port : Fin 4)
  /-- LASER_SUDDEN_FADE (R367). A laser whose output falls 6 dB within 1 ms, or whose frequency stays over 20 GHz off grid for 1 ms, is at the forced threshold at once and is dropped and swapped or retired. -/
  | laserSuddenFade (t : Nat) (lantern : Fin 8) (laser : Fin 18)
  /-- REGISTER_READ (R203). A register read that reaches a domain in reset, lost or off sets DOMAIN_DOWN, and one whose crossing misses its bound returns all ones, sets STALL_TIMEOUT and logs a contained fault. -/
  | registerRead (t : Nat) (port : Fin 4) (target : Target) (width : Nat) (cross : Crossing)
  /-- ENDPOINT_ID_ASSIGNMENT (R518). The BMC assigns the management port's MCTP endpoint ID. -/
  | endpointIdAssignment (t : Nat) (eid : BitVec 8)
  /-- DYNAMIC_ADDRESS_ASSIGNMENT (R518). The BMC assigns an I3C dynamic address with SETDASA or ENTDAA. -/
  | dynamicAddressAssignment (t : Nat) (address : BitVec 7)
  /-- DOE_DISCOVERY (R223). A DOE discovery request on an endpoint's DOE mailbox is answered with the protocols supported. -/
  | doeDiscovery (t : Nat) (port : Fin 4) (index : BitVec 8)
deriving DecidableEq, Repr

end Sys2Proof
end

