-- ==== Sys2Proof/Decode.lean ====
section
/-! DEFINITION. The decoder of the table's words. The table of this block gives no row any bits: its commands are events
and packets, not words. -/

namespace Sys2Proof

/-- The command that a word of `nbits` bits spells by the table's bits: no row has any, so none. -/
def decodeTableWord (_nbits _w : Nat) : Option Instr := none

end Sys2Proof
end

