-- ==== Sys2Proof/Machine/Bits.lean ====
section
/-! DEFINITION. Byte order, bit fields and the CRCs of the manual (00_scope.md Conventions, R177, R189). -/

namespace Sys2Proof.Machine

/-- The `n` little-endian bytes of a number (00_scope.md: multi-byte fields are little-endian). -/
def leBytes (n v : Nat) : List Byte := (List.range n).map fun i => BitVec.ofNat 8 (v >>> (8 * i))

/-- The number that little-endian bytes spell. -/
def ofLe : List Byte → Nat
  | [] => 0
  | b :: bs => b.toNat + 256 * ofLe bs

/-- `n` bytes of a byte string from offset `off`; places beyond the end read zero. -/
def slice (bs : List Byte) (off n : Nat) : List Byte :=
  let r := (bs.drop off).take n
  r ++ List.replicate (n - r.length) 0

/-- The little-endian number in `n` bytes at an offset of a packet, descriptor or record. -/
def le (bs : List Byte) (off n : Nat) : Nat := ofLe (slice bs off n)

/-- Bits [hi:lo] of a number. -/
def bitsOf (v hi lo : Nat) : Nat := (v >>> lo) % 2 ^ (hi + 1 - lo)

/-- Bit `i` of a number. -/
def bitOf (v i : Nat) : Bool := Nat.testBit v i

/-- 1 for true, as a register bit. -/
def b2n (b : Bool) : Nat := if b then 1 else 0

/-- A number read as signed at a width of `n` bits. -/
def signedOf (n v : Nat) : Int := if 2 ^ (n - 1) ≤ v % 2 ^ n then (v % 2 ^ n : Int) - 2 ^ n else (v % 2 ^ n : Int)

/-- The `n`-bit two's complement code of an integer. -/
def codeOf (n : Nat) (v : Int) : Nat := (v % (2 ^ n : Int)).toNat

/-- The number with bits in the places given: pairs of (place of the least significant bit, value). -/
def packBits : List (Nat × Nat) → Nat
  | [] => 0
  | (p, v) :: r => v <<< p + packBits r

/-- A number held at most at a limit: saturating counters. -/
def satTo (limit v : Nat) : Nat := if limit < v then limit else v

/-- Rounding up to a multiple. -/
def roundUp (v m : Nat) : Nat := (v + m - 1) / m * m

/-- The ceiling of a quotient. -/
def ceilDiv (a b : Nat) : Nat := (a + b - 1) / b

/-- All bytes zero: the check on reserved bytes (R2). -/
def allZero (bs : List Byte) : Bool := bs.all (· == 0)

/-- A function applied `n` times. -/
def iterate {α : Type} (f : α → α) : Nat → α → α
  | 0, x => x
  | n + 1, x => iterate f n (f x)

/-- One bit of the non-reflected CRC-64 (R177). -/
def crc64Bit (r : BitVec 64) : BitVec 64 :=
  if r.msb then (r <<< 1) ^^^ 0x42F0E1EBA9EA3693#64 else r <<< 1

/-- One byte into the CRC-64 register, most significant bit first. -/
def crc64Byte (r : BitVec 64) (b : Byte) : BitVec 64 :=
  iterate crc64Bit 8 (r ^^^ ((b.setWidth 64) <<< 56))

/-- CRC-64/ECMA-182 with a given initial register value (R177). -/
def crc64 (init : BitVec 64) (bs : List Byte) : BitVec 64 := bs.foldl crc64Byte init

/-- One bit of the reflected CRC-32C (R189). -/
def crc32cBit (r : BitVec 32) : BitVec 32 :=
  if r.getLsbD 0 then (r >>> 1) ^^^ 0x82F63B78#32 else r >>> 1

/-- One byte into the CRC-32C register. -/
def crc32cByte (r : BitVec 32) (b : Byte) : BitVec 32 := iterate crc32cBit 8 (r ^^^ b.setWidth 32)

/-- CRC-32C: reflected, initial value and final exclusive-or all ones (R189). -/
def crc32c (bs : List Byte) : BitVec 32 := bs.foldl crc32cByte 0xFFFFFFFF#32 ^^^ 0xFFFFFFFF#32

end Sys2Proof.Machine
end

