-- ==== Sys2Proof/Machine/Blocks.lean ====
section
/-! DEFINITION. The serial lanes' bits: 66-bit blocks and their types, the scrambler, the figure of merit, the slip search, the
check of LINK blocks (R296-R304, R324). -/

namespace Sys2Proof.Machine

/-! ### Blocks (R296, R299, R322) -/

/-- A 66-bit block: whether it is a data block, and its payload. -/
structure Block66 where
  data : Bool
  payload : BitVec 64
deriving DecidableEq, Repr

/-- Eight bytes as a payload, the first byte in bits 0-7 (R322). -/
def payloadOf (bs : List Byte) : BitVec 64 := BitVec.ofNat 64 (le bs 0 8)

/-- IDLE (Table 13-2). -/
def idleBlock : Block66 := ⟨false, 0x1E⟩

/-- ALIGN, with the physical lane and the bundle. -/
def alignBlock (lane bundle : Nat) : Block66 := ⟨false, payloadOf ([0x2D#8] ++ leBytes 1 lane ++ leBytes 1 bundle)⟩

/-- TIME, with the low 56 bits of the time base. -/
def timeBlock (now : Nat) : Block66 := ⟨false, payloadOf ([0x33#8] ++ leBytes 7 now)⟩

/-- SLEEP (R307). -/
def sleepBlock : Block66 := ⟨false, 0x55⟩

/-- TRAIN: the highest speed this end supports, whether its receiver accepts the present one, its good lanes (R303). -/
def trainBlock (speed : Nat) (accepts : Bool) (good : Nat) : Block66 :=
  ⟨false, payloadOf ([0x66#8] ++ leBytes 1 speed ++ leBytes 1 (b2n accepts) ++ leBytes 2 good)⟩

/-- The types of control blocks (Table 13-2). -/
def controlTypes : List Nat := [0x1E, 0x2D, 0x33, 0x4B, 0x55, 0x66]

/-- The logical lane that carries block `j` of a stream over `w` lanes (R298, R355). -/
def laneOfBlock (j w : Nat) : Nat := j % w

/-! ### Scrambling (R297) -/

/-- The scrambler's register: the last 58 bits on the line, the latest in bit 0. -/
abbrev LineState := BitVec 58

/-- The register after one more bit on the line. -/
def LineState.push (r : LineState) (b : Bool) : LineState := (r <<< 1) ||| (BitVec.ofBool b).setWidth 58

/-- What the polynomial 1 + x^39 + x^58 adds to the next bit. -/
def LineState.tap (r : LineState) : Bool := r.getLsbD 38 != r.getLsbD 57

/-- Payload bits scrambled in the order sent; the register after them. -/
def scramble : LineState → List Bool → List Bool × LineState
  | r, [] => ([], r)
  | r, b :: rest => ((b != r.tap) :: (scramble (r.push (b != r.tap)) rest).1, (scramble (r.push (b != r.tap)) rest).2)

/-- Line bits descrambled with the same polynomial. -/
def descramble : LineState → List Bool → List Bool × LineState
  | r, [] => ([], r)
  | r, b :: rest => ((b != r.tap) :: (descramble (r.push b) rest).1, (descramble (r.push b) rest).2)

/-- A payload's bits in the order sent. -/
def bitsOfPayload (p : BitVec 64) : List Bool := (List.range 64).map p.getLsbD

/-- The number that bits spell, the first the least significant. -/
def bitsNat : List Bool → Nat
  | [] => 0
  | b :: r => b2n b + 2 * bitsNat r

/-- A block on the line: the header unscrambled, H[0] first, then the payload scrambled (R296, R297). -/
def Block66.line (x : Block66) (r : LineState) : List Bool × LineState :=
  ([x.data, !x.data] ++ (scramble r (bitsOfPayload x.payload)).1, (scramble r (bitsOfPayload x.payload)).2)

/-! ### Receiving (R296, R299, R324) -/

/-- A lane's receiver as its blocks come: the descrambler, invalid headers, and LINK blocks discarded. -/
structure LaneRx where
  line : LineState
  invalid : Nat
  badLink : Nat
deriving DecidableEq, Repr

/-- One bit of the CRC-8 of R324. -/
def crc8Bit (r : BitVec 8) : BitVec 8 := if r.msb then (r <<< 1) ^^^ 0x07#8 else r <<< 1

/-- CRC-8 with polynomial x^8 + x^2 + x + 1 (R324). -/
def crc8 (bs : List Byte) : Byte := bs.foldl (fun r b => iterate crc8Bit 8 (r ^^^ b)) 0

/-- Whether a LINK block's CHECK is good and its OP is one of Table 14-3. -/
def linkOk (bs : List Byte) : Bool :=
  crc8 (slice bs 0 7) == (slice bs 7 1).headD 0 && decide (1 ≤ le bs 1 1) && decide (le bs 1 1 ≤ 9)

/-- One block received: a header of 0b00 or 0b11, or a control block of another type than Table 13-2's, is an invalid header,
and the block is discarded; so is a LINK block that fails R324. -/
def LaneRx.take (x : LaneRx) (b : RawBlock) : LaneRx :=
  let d := descramble x.line (bitsOfPayload b.bits)
  let payload := leBytes 8 (bitsNat d.1)
  let x := { x with line := d.2 }
  if b.head = 0 ∨ b.head = 3 then { x with invalid := x.invalid + 1 }
  else if b.head = 1 then x
  else if !controlTypes.contains (le payload 0 1) then { x with invalid := x.invalid + 1 }
  else if le payload 0 1 = 0x4B ∧ !linkOk payload then { x with badLink := x.badLink + 1 }
  else x

/-- Blocks received in order. -/
def LaneRx.run (line : LineState) (bs : List RawBlock) : LaneRx := bs.foldl LaneRx.take ⟨line, 0, 0⟩

/-! ### The figure of merit (R301) -/

/-- The first step of `lo` to `hi` from which on all are taken to be clean, by a binary search of `n` points. -/
def searchEdge (clean : Nat → Bool) : Nat → Nat → Nat → Nat
  | 0, _, hi => hi
  | n + 1, lo, hi =>
    if hi ≤ lo then hi
    else if clean ((lo + hi) / 2) then searchEdge clean n lo ((lo + hi) / 2) else searchEdge clean n ((lo + hi) / 2 + 1) hi

/-- The open span at the centre of 64 steps: each edge is found by a binary search of six points. -/
def openSpan (m : BitVec 64) : Nat :=
  (32 - searchEdge m.getLsbD 6 0 32) + (32 - searchEdge (fun i => m.getLsbD (63 - i)) 6 0 32)

/-- FOM of an eye of open width and height. -/
def fomOf (w h : Nat) : Nat := min 255 (w * h / 16)

/-- The figure of merit that the monitor finds. -/
def Eye.fom (x : Eye) : Nat := fomOf (openSpan x.phase) (openSpan x.level)

/-! ### The slip search (R304) -/

/-- The alignment word that every lane sends before block coding (Table 13-3). -/
def alignWord : BitVec 64 := 0x4B2D1E8796F0C35A

/-- The word that a lane delivers over and over, its stream delayed by one more bit: the last bit before a word is now its
first, bit 0 being the bit received first (DEDUCED, notes/assumptions, row 89). -/
def slipOne (w : BitVec 64) : BitVec 64 := w.rotateLeft 1

/-- Gallery's search: SLIP_POS at which the alignment word is read, over `n` tries; none when no position matches. -/
def bitslipSearch : Nat → BitVec 64 → Nat → Option Nat
  | 0, _, _ => none
  | n + 1, w, pos => if w = alignWord then some pos else bitslipSearch n (slipOne w) ((pos + 1) % 64)

end Sys2Proof.Machine
end

