-- ==== Sys2Proof/Config.lean ====
section
/-! DEFINITION. What an implementation fixes and what the manual leaves open: constants without a body,
so that no proof can lean on a value the manual does not state. -/

namespace Sys2Proof.Config

/-- BAR0 offset of a register block, published by its BLOCK record only (R187).
Arguments: BLOCK_TYPE code of Table 8-7 and BLOCK_INSTANCE. -/
opaque blockBase : Nat → Nat → BitVec 32
/-- Size in bytes of a register block, as its BLOCK record gives it (R187). -/
opaque blockSize : Nat → BitVec 32
/-- Mailbox select code of a wide value: BLOCK_TYPE, BLOCK_INSTANCE, VALUE_ID (R187, R214). -/
opaque wideSelect : Nat → Nat → Nat → BitVec 16
/-- Offset of a tile-store region in 64 KiB units, as the TILE_STORE record lists it (R194). -/
opaque tileRegionOffset : Nat → BitVec 32
/-- The set of a far cache in which a line is held (R161): the manual does not say which of the 8,192. -/
opaque farSet : Nat → BitVec 13
/-- The place within a fence's new place, as a line number, of a line of the pseudo-channel fenced (R159): pseudo-channel of
the half, line index within it. -/
opaque fenceLine : Nat → Nat → BitVec 22
/-- The place in a half's firmware area, in units of 128 bytes, of the first descriptor of a list's copy (R29, R145). -/
opaque listPlace : Nat → BitVec 24
/-- A fresh value of the machine that the manual leaves open, by the model's own count of such values. -/
opaque freeValue : Nat → BitVec 64
/-- A fresh answer to a choice the manual leaves open, by the same count. -/
opaque freeBool : Nat → Bool
/-- Bytes of Keep's random source (nonces, R476, R471): the n-th draw and the byte within it. -/
opaque nonceByte : Nat → Nat → Byte
/-- A signature made by Keep (ECDSA P-384, 96 bytes, R461): the seed that the identity key is derived from (R463), the bytes
signed. -/
opaque signature : List Byte → List Byte → Nat → Byte
/-- IDENTITY_SEED as the factory wrote it (R463), byte by byte. -/
opaque identitySeed : Nat → Byte
/-- SHA-384 of a byte string, byte by byte (R466, R472): the algorithm is an external standard's. -/
opaque sha384 : List Byte → Nat → Byte
/-- Whether an ECDSA P-384 signature verifies: public key, signed bytes, signature (R466, R476). -/
opaque verifies : List Byte → List Byte → List Byte → Bool
/-- The SPDM certificate chain held in flash (R464). -/
opaque certChain : List Byte
/-- What SPDM 1.3, and not this manual, puts ahead of the fields that this manual gives in a message (R471, R473): message
code, argument, byte. -/
opaque spdmByte : Nat → Nat → Nat → Byte
/-- Length of that part. -/
opaque spdmLen : Nat → Nat → Nat
/-- The terminus ID that GetTID answers (R482): PLDM, and not this manual, gives it. -/
opaque pldmTid : Byte
/-- The version that GetPLDMVersion answers for a PLDM type (R482). -/
opaque pldmVersion : Nat → BitVec 32
/-- The shell suffix of the package: 0 MA, 1 MF, 2 EB (R3, R194). -/
opaque shellSuffix : Fin 3
/-- What measurements digest that no command reads or writes: the ROM, and an image that an external programmer left (R472). -/
opaque measuredBytes : Nat → List Byte
/-- Key-hash fuses (R463): fuse number and byte. Fuses 0-2 are FW_KEY_HASH, 3 DEV_KEY_HASH, 4-5 DEBUG_KEY_HASH, 6
DECOM_KEY_HASH. -/
opaque keyHash : Nat → Nat → Byte
/-- REVOKED fuses of those hashes (R463). -/
opaque keyRevoked : Nat → Bool
/-- The fused baseline rate of an array (M waves/s) at millivolts and 1/16 degrees (R435). -/
opaque baselineRate : Nat → Nat → Int → Nat
/-- The fused baseline of a sentinel (R47, Table 13-6): its oscillations over 10 µs when new, by half, physical column,
millivolts and 1/16 degrees. -/
opaque sentinelBaseline : Nat → Nat → Nat → Int → Nat
/-- A laser's heater code at another temperature (R386), which the manual says is adjusted and not how: code, temperature at which
it locked, temperature now, in 1/16 degrees. -/
opaque laserAdjust : Nat → Int → Int → Nat
/-- Stack temperature limits, in 1/16 degrees: maximum operating and catastrophic, by stack (R425). -/
opaque stackMaxTemp : Nat → Int
/-- Catastrophic temperature of a stack (R425). -/
opaque stackTripTemp : Nat → Int
/-- Which of two rules that differ the additions of SCATTER MODE 1 follow: nearest (R75), or RMODE (R99). -/
opaque scatterNearest : Bool
/-- Whether a NORM row of zeros gives zeros where the steps of R96 do not, as Table 3-5 says (R76). -/
opaque zeroRow : Bool
/-- Nominal voltage in mV of the HBM rails, which the stacks' specification gives (R419). -/
opaque hbmRailNominal : Nat → Nat

end Sys2Proof.Config
end

