-- ==== Sys2Proof/Machine/Numfmt.lean ====
section
/-! DEFINITION. Number formats: decoding, correct rounding, overflow, block quantisation (R54-R62, R77, R78). -/

namespace Sys2Proof.Machine

/-- A value of an element: NaN, an infinity, or sign and magnitude m * 2^e (signed zeros kept). -/
inductive FVal where
  | nan
  | inf (neg : Bool)
  | fin (neg : Bool) (m : Nat) (e : Int)
deriving DecidableEq, Repr

/-- A binary layout: exponent bits, mantissa bits, bias, whether it has infinities, its largest finite code and its
canonical NaN (Table 3-1, R55). -/
structure FLayout where
  ebits : Nat
  mbits : Nat
  bias : Nat
  hasInf : Bool
  hasNan : Bool
  maxCode : Nat
  nanCode : Nat
deriving DecidableEq, Repr

/-- E2M1, the JB4 element. -/
def layE2M1 : FLayout := ⟨2, 1, 1, false, false, 7, 0⟩
/-- E4M3. -/
def layE4M3 : FLayout := ⟨4, 3, 7, false, true, 0x7E, 0x7F⟩
/-- E5M2. -/
def layE5M2 : FLayout := ⟨5, 2, 15, true, true, 0x7B, 0x7E⟩
/-- BF16. -/
def layBF16 : FLayout := ⟨8, 7, 127, true, true, 0x7F7F, 0x7FC0⟩
/-- FP32. -/
def layFP32 : FLayout := ⟨8, 23, 127, true, true, 0x7F7FFFFF, 0x7FC00000⟩

/-- The sign bit's weight of a layout. -/
def FLayout.signBit (l : FLayout) : Nat := 2 ^ (l.ebits + l.mbits)

/-- The value of a code (R54). -/
def decodeF (l : FLayout) (code : Nat) : FVal :=
  let neg := bitOf code (l.ebits + l.mbits)
  let e := bitsOf code (l.ebits + l.mbits - 1) l.mbits
  let m := code % 2 ^ l.mbits
  let mag := code % l.signBit
  if l.hasInf && e == 2 ^ l.ebits - 1 then (if m == 0 then .inf neg else .nan)
  else if l.hasNan && decide (l.maxCode < mag) then .nan
  else if e == 0 then .fin neg m (1 - (l.bias : Int) - l.mbits)
  else .fin neg (2 ^ l.mbits + m) ((e : Int) - l.bias - l.mbits)

/-- ⌊log2 (num / den)⌋ for positive num and den. -/
def ratLog2 (num den : Nat) : Int :=
  let g : Int := (Nat.log2 num : Int) - Nat.log2 den
  let ge (k : Int) : Bool := if 0 ≤ k then decide (den * 2 ^ k.toNat ≤ num) else decide (den ≤ num * 2 ^ (-k).toNat)
  if ge (g + 1) then g + 1 else if ge g then g else g - 1

/-- num / den rounded to an integer by a rounding mode of R57: 0 nearest-even, 1 toward zero, 2 toward +∞, 3 toward −∞;
`neg` is the sign of the value whose magnitude is rounded. -/
def roundInt (mode : Nat) (neg : Bool) (num den : Nat) : Nat :=
  let q := num / den
  let r := num % den
  if r = 0 then q
  else match mode with
    | 0 => if den < 2 * r || (den == 2 * r && q % 2 == 1) then q + 1 else q
    | 1 => q
    | 2 => if neg then q else q + 1
    | _ => if neg then q + 1 else q

/-- num * 2^k / den as a pair (numerator, denominator). -/
def scaleRat (num den : Nat) (k : Int) : Nat × Nat :=
  if 0 ≤ k then (num * 2 ^ k.toNat, den) else (num, den * 2 ^ (-k).toNat)

/-- The code of the overflow result (R58). -/
def overflowCode (l : FLayout) (mode : Nat) (sat neg : Bool) : Nat :=
  let big := l.maxCode + (if neg then l.signBit else 0)
  let away := mode == 0 || (mode == 2 && !neg) || (mode == 3 && neg)
  if sat || !away then big
  else if l.hasInf then (l.maxCode + 1) + (if neg then l.signBit else 0)
  else if l.hasNan then l.nanCode
  else big

/-- The magnitude (num / den) * 2^e with a sign, rounded once to a layout (R57, R58); zero keeps the sign given. -/
def roundF (l : FLayout) (mode : Nat) (sat neg : Bool) (num den : Nat) (e : Int) : Nat :=
  let sgn := if neg then l.signBit else 0
  if num = 0 then sgn
  else
    let lg := ratLog2 num den + e
    let emin : Int := 1 - (l.bias : Int)
    let ex := max lg emin
    -- the unit in the last place is 2^(ex - mbits)
    let sc := scaleRat num den (e - (ex - l.mbits))
    let q := roundInt mode neg sc.1 sc.2
    let code := if q < 2 ^ l.mbits then q
                else ((ex + l.bias).toNat - 1) * 2 ^ l.mbits + q
    if l.maxCode < code then overflowCode l mode sat neg else code + sgn

/-- A value rounded to a layout (R55, R58); an infinity that the layout lacks follows Table 3-6. -/
def roundVal (l : FLayout) (mode : Nat) (sat : Bool) : FVal → Nat
  | .nan => l.nanCode
  | .inf neg => if l.hasInf then (l.maxCode + 1) + (if neg then l.signBit else 0)
                else if sat || !l.hasNan then l.maxCode + (if neg then l.signBit else 0) else l.nanCode
  | .fin neg m e => roundF l mode sat neg m 1 e

/-- A value rounded to FP32 and read back (round_fp32). An overflow goes by the rounding mode alone: R69 and R87 name no SAT for
the steps before the last rounding (DESIGN CHOICE, notes/assumptions, row 100). -/
def fp32 (mode : Nat) (v : FVal) : FVal := decodeF layFP32 (roundVal layFP32 mode false v)

/-- A value rounded to BF16, nearest-even, and read back. -/
def bf16 (v : FVal) : FVal := decodeF layBF16 (roundVal layBF16 0 false v)

/-- The finite value's magnitude scaled to a common exponent, signed. -/
def scaledInt (neg : Bool) (m : Nat) (e base : Int) : Int :=
  let v : Int := (m : Int) * 2 ^ (e - base).toNat
  if neg then -v else v

/-- A finite sum, exact, with the sign of a zero as IEEE 754-2019 gives it: the common sign, else + (− toward −∞). -/
def addFin (mode : Nat) (n1 : Bool) (m1 : Nat) (e1 : Int) (n2 : Bool) (m2 : Nat) (e2 : Int) : FVal :=
  let base := min e1 e2
  let s := scaledInt n1 m1 e1 base + scaledInt n2 m2 e2 base
  if s = 0 then .fin (if n1 == n2 then n1 else mode == 3) 0 0
  else .fin (decide (s < 0)) s.natAbs base

/-- An exact sum of two values (∞ − ∞ is NaN, Table 3-5). -/
def addVal (mode : Nat) : FVal → FVal → FVal
  | .nan, _ => .nan
  | _, .nan => .nan
  | .inf a, .inf b => if a == b then .inf a else .nan
  | .inf a, _ => .inf a
  | _, .inf b => .inf b
  | .fin n1 m1 e1, .fin n2 m2 e2 => addFin mode n1 m1 e1 n2 m2 e2

/-- An exact product (∞ × 0 is NaN). -/
def mulVal : FVal → FVal → FVal
  | .nan, _ => .nan
  | _, .nan => .nan
  | .inf a, .inf b => .inf (a != b)
  | .inf a, .fin n m _ => if m = 0 then .nan else .inf (a != n)
  | .fin n m _, .inf b => if m = 0 then .nan else .inf (n != b)
  | .fin n1 m1 e1, .fin n2 m2 e2 => .fin (n1 != n2) (m1 * m2) (e1 + e2)

/-- The value times a power of two, exactly (OUT_SCALE, block scales). -/
def scaleVal (k : Int) : FVal → FVal
  | .fin n m e => .fin n m (e + k)
  | v => v

/-- The negated value. -/
def negVal : FVal → FVal
  | .nan => .nan
  | .inf s => .inf (!s)
  | .fin n m e => .fin (!n) m e

/-- Whether a finite-or-infinite value is below another; NaN compares false. -/
def ltVal : FVal → FVal → Bool
  | .nan, _ => false
  | _, .nan => false
  | .inf a, .inf b => a && !b
  | .inf a, _ => a
  | _, .inf b => !b
  | .fin n1 m1 e1, .fin n2 m2 e2 => decide (scaledInt n1 m1 e1 (min e1 e2) < scaledInt n2 m2 e2 (min e1 e2))

/-- Equal in value (+0 and −0 equal). -/
def eqVal (a b : FVal) : Bool :=
  match a, b with
  | .nan, _ => false
  | _, .nan => false
  | x, y => !ltVal x y && !ltVal y x

/-- ⌊log2 |x|⌋ of a finite non-zero value. -/
def exponentOf : FVal → Option Int
  | .fin _ m e => if m = 0 then none else some ((Nat.log2 m : Int) + e)
  | _ => none

/-- The format codes of Table 3-3 that are block scaled. -/
def isBlockFmt (f : Nat) : Bool := f == 1 || f == 2 || f == 3

/-- The element layout of a format code. -/
def fmtLayout (f : Nat) : FLayout :=
  match f with
  | 1 => layE2M1 | 2 => layE4M3 | 3 => layE5M2 | 4 => layE4M3 | 5 => layE5M2 | 6 => layBF16 | _ => layFP32

/-- Bits of one element of a format code (R61); U32 has 32. -/
def fmtBits (f : Nat) : Nat :=
  match f with
  | 1 => 4 | 2 => 8 | 3 => 8 | 4 => 8 | 5 => 8 | 6 => 16 | _ => 32

/-- Bytes of a row of `n` elements. -/
def rowBytes (f n : Nat) : Nat := n * fmtBits f / 8

/-- Scale bytes of a row of `n` elements. -/
def scaleBytes (f n : Nat) : Nat := if isBlockFmt f then n / 32 else 0

/-- e_max of R64. -/
def eMax (f : Nat) : Int := match f with | 1 => 2 | 2 => 8 | _ => 15

/-- Element code `i` of a row's bytes (R61: JB4 low nibble first). -/
def elemCode (f : Nat) (bs : List Byte) (i : Nat) : Nat :=
  match fmtBits f with
  | 4 => (bs.getD (i / 2) 0).toNat / 16 ^ (i % 2) % 16
  | 8 => (bs.getD i 0).toNat
  | 16 => le bs (2 * i) 2
  | _ => le bs (4 * i) 4

/-- The bytes that element codes pack into (R61). -/
def packElems (f : Nat) (cs : List Nat) : List Byte :=
  match fmtBits f with
  | 4 => (List.range (cs.length / 2)).map fun j => BitVec.ofNat 8 (cs.getD (2 * j) 0 + 16 * cs.getD (2 * j + 1) 0)
  | 8 => cs.map (BitVec.ofNat 8)
  | 16 => cs.flatMap (leBytes 2)
  | _ => cs.flatMap (leBytes 4)

/-- A row of operands read: each element's value, and each block's exponent (R59, R64). -/
structure RowVals where
  vals : List FVal
  blocks : List (Option Int)
deriving DecidableEq, Repr

/-- The largest of optional exponents: entries without one take no part (R64). -/
def maxExp (l : List (Option Int)) : Option Int :=
  l.foldl (fun a b => match a, b with | none, y => y | x, none => x | some x, some y => some (max x y)) none

/-- Consecutive groups of `n`. -/
def chunks {α : Type} (n : Nat) : Nat → List α → List (List α)
  | 0, _ => []
  | fuel + 1, l => match l with
    | [] => []
    | _ => l.take n :: chunks n fuel (l.drop n)

/-- The block exponents of unscaled values: 32 consecutive elements a block (R64). -/
def blockExps (vs : List FVal) : List (Option Int) :=
  (chunks 32 vs.length vs).map fun b => maxExp (b.map exponentOf)

/-- A row decoded from its bytes and scale bytes (R59, R64). A block with no finite non-zero element has no block
exponent, whatever its scale. -/
def readRow (f n : Nat) (bs sc : List Byte) : RowVals :=
  if isBlockFmt f then
    let vals := (List.range n).map fun i =>
      let x := (sc.getD (i / 32) 0).toNat
      if x == 0xFF then FVal.nan else scaleVal ((x : Int) - 127) (decodeF (fmtLayout f) (elemCode f bs i))
    let blocks := ((blockExps vals).zip (List.range (n / 32))).map fun b =>
      b.1.map fun _ => ((sc.getD b.2 0).toNat : Int) - 127 + eMax f
    ⟨vals, blocks⟩
  else
    let vals := (List.range n).map fun i => decodeF (fmtLayout f) (elemCode f bs i)
    ⟨vals, blockExps vals⟩

/-- Whether a value is NaN or infinite. -/
def notFinite : FVal → Bool
  | .fin .. => false
  | _ => true

/-- One block of 32 quantised (R78): scale byte and element codes. -/
def quantBlock (f mode : Nat) (sat : Bool) (v : List FVal) : Nat × List Nat :=
  let l := fmtLayout f
  if v.any notFinite then (0xFF, v.map fun _ => 0)
  else match maxExp (v.map exponentOf) with
    | none => (0x7F, v.map fun _ => 0)
    | some lg =>
      let x0 := lg - eMax f
      if 127 < x0 && !sat then (0xFF, v.map fun _ => 0)
      else
        let x := max (-127) (min 127 x0)
        ((x + 127).toNat, v.map fun y => roundVal l mode true (scaleVal (-x) y))

/-- A row of exact values converted to a format: its bytes and its scale bytes (R69, R78). -/
def writeRow (f mode : Nat) (sat : Bool) (vs : List FVal) : List Byte × List Byte :=
  if isBlockFmt f then
    let qs := (chunks 32 vs.length vs).map (quantBlock f mode sat)
    (packElems f (qs.flatMap (·.2)), qs.map fun q => BitVec.ofNat 8 q.1)
  else (packElems f (vs.map (roundVal (fmtLayout f) mode sat)), [])

end Sys2Proof.Machine
end

