-- ==== Sys2Proof/Machine/Exact.lean ====
section
/-! DEFINITION. The exact accumulator, its partial records, exact sums, and the correctly rounded root and
exponential (R63-R75, R126, R527, R529). -/

namespace Sys2Proof.Machine

/-- An accumulator with its flags (R66, R68): the sum in units of 2^(anchor − 96). -/
structure Accum where
  acc : Int
  anchor : Option Int
  invalid : Bool
  posInf : Bool
  negInf : Bool
deriving DecidableEq, Repr

/-- An empty accumulator with an anchor. -/
def Accum.empty (a : Option Int) : Accum := ⟨0, a, false, false, false⟩

/-- A magnitude truncated toward zero at weight 2^(a − 96) (R66). -/
def toFixed (a : Int) (neg : Bool) (m : Nat) (e : Int) : Int :=
  let k := e - (a - 96)
  let q : Nat := if 0 ≤ k then m * 2 ^ k.toNat else m / 2 ^ (-k).toNat
  if neg then -(q : Int) else q

/-- One term added (R66, R68). -/
def Accum.add (c : Accum) : FVal → Accum
  | .nan => { c with invalid := true }
  | .inf false => { c with posInf := true }
  | .inf true => { c with negInf := true }
  | .fin n m e => match c.anchor with
    | none => c
    | some a => { c with acc := c.acc + toFixed a n m e }

/-- The value of an accumulator (R68, R70), before any rounding. -/
def Accum.value (c : Accum) : FVal :=
  if c.invalid || (c.posInf && c.negInf) then .nan
  else if c.posInf then .inf false
  else if c.negInf then .inf true
  else match c.anchor with
    | none => .fin false 0 0
    | some a => .fin (decide (c.acc < 0)) c.acc.natAbs (a - 96)

/-- The anchor of R65: the sum of two maxima, none when either is empty. -/
def anchorOf (x w : Option Int) : Option Int :=
  match x, w with
  | some a, some b => some (a + b)
  | _, _ => none

/-- An exact dot product with a given anchor (R63, R66). -/
def dotAt (a : Option Int) (xs ws : List FVal) : Accum :=
  (List.zipWith mulVal xs ws).foldl Accum.add (Accum.empty a)

/-- An exact dot product over a whole reduction held by one participant (R65). -/
def exactDot (x w : RowVals) : Accum := dotAt (anchorOf (maxExp x.blocks) (maxExp w.blocks)) x.vals w.vals

/-- An exact sum of single terms (R527). -/
def exactSum (vs : List FVal) : Accum := vs.foldl Accum.add (Accum.empty (maxExp (blockExps vs)))

/-- An FP32 sum of some values in the order given, from the first one, under a rounding mode; the flags of R68 over all of
them decide the special values (R75). -/
def flagSum (mode : Nat) (vs : List FVal) : FVal :=
  let f := vs.foldl Accum.add (Accum.empty none)
  if f.invalid || f.posInf || f.negInf then f.value
  else match vs with
    | [] => .fin false 0 0
    | v :: r => r.foldl (fun a b => fp32 mode (addVal mode a b)) v

/-- The elements of a row cut into passes of `kt` elements, with their blocks (R74). -/
def passes (kt : Nat) (r : RowVals) : List RowVals :=
  List.zipWith RowVals.mk (chunks kt r.vals.length r.vals) (chunks (kt / 32) r.blocks.length r.blocks)

/-- A deterministic-class dot product (R74): pass values rounded to FP32 and summed in FP32, flags over the whole. The sum
starts from +0 (DESIGN CHOICE, notes/assumptions, row 100). -/
def passDot (kt : Nat) (x w : RowVals) : FVal :=
  let ps := List.zipWith exactDot (passes kt x) (passes kt w)
  let inv := ps.any (·.invalid)
  let pos := ps.any (·.posInf)
  let ng := ps.any (·.negInf)
  if inv || (pos && ng) then .nan
  else if pos then .inf false
  else if ng then .inf true
  else ps.foldl (fun s p => fp32 0 (addVal 0 s (fp32 0 p.value))) (.fin false 0 0)

/-- The 32-byte exact partial record (Table 3-4). -/
def Accum.record (c : Accum) : List Byte :=
  leBytes 16 (codeOf 128 c.acc) ++ leBytes 2 (codeOf 16 (c.anchor.getD (-32768)))
    ++ [BitVec.ofNat 8 (b2n c.invalid + 2 * b2n c.posInf + 4 * b2n c.negInf), 1] ++ List.replicate 12 0

/-- A partial record read back (R72); VERSION and the reserved bits are not looked at (DESIGN CHOICE, notes/assumptions,
row 76). -/
def Accum.ofRecord (bs : List Byte) : Accum :=
  let a := signedOf 16 (le bs 16 2)
  let f := le bs 18 1
  ⟨signedOf 128 (le bs 0 16), if a = -32768 then none else some a, bitOf f 0, bitOf f 1, bitOf f 2⟩

/-- Two partial records added; none when their anchors differ (R73). The sum of records that no MATMUL made is kept whole
when it leaves 128 bits, and a sum without an anchor has the value zero (DESIGN CHOICE, notes/assumptions, row 76). -/
def Accum.merge (a b : Accum) : Option Accum :=
  let fl (an : Option Int) : Accum :=
    ⟨a.acc + b.acc, an, a.invalid || b.invalid, a.posInf || b.posInf, a.negInf || b.negInf⟩
  if a.anchor = b.anchor then some (fl a.anchor)
  else if a.anchor = none ∧ a.acc = 0 then some (fl b.anchor)
  else if b.anchor = none ∧ b.acc = 0 then some (fl a.anchor)
  else none

/-- One step of the bit-by-bit integer square root. -/
def isqrtStep (n : Nat) (r : Nat) (b : Nat) : Nat := if (r + 2 ^ b) * (r + 2 ^ b) ≤ n then r + 2 ^ b else r

/-- ⌊√n⌋. -/
def isqrt (n : Nat) : Nat := (List.range (Nat.log2 n / 2 + 1)).reverse.foldl (isqrtStep n) 0

/-- 1 / √v for a positive finite v, as a value good for one correct rounding (R96): q with a sticky bit below it. -/
def rsqrtVal : FVal → FVal
  | .fin false m e =>
    if m = 0 then .inf false
    else
      -- 1/√(m 2^e) = √(2^(2k - e) / m) 2^(-k), with k large enough for 40 bits
      let k : Int := 40 + ((Nat.log2 m : Int) + e) / 2 + 2
      let j := 2 * k - e
      let nd := scaleRat 1 m j
      let q := isqrt (nd.1 / nd.2)
      .fin false (2 * q + (if q * q * nd.2 = nd.1 then 0 else 1)) (-k - 1)
  | .inf false => .fin false 0 0
  | _ => .nan

/-- A quotient of a value by a positive number, as sign, numerator, denominator and exponent; rounded by `roundF`. -/
def divFp32 (mode : Nat) (v : FVal) (d : Nat) (de : Int) : FVal :=
  match v with
  | .nan => .nan
  | .inf s => .inf s
  | .fin n m e => decodeF layFP32 (roundF layFP32 mode false n m d (e - de))

/-- e^(−y/2^p) at `prec` fraction bits, as lower and upper bounds, for y/2^p in [0, 128). -/
def expBounds (prec : Nat) (y p : Nat) : Nat × Nat :=
  let one := 2 ^ prec
  -- t = y / 2^(p+8) scaled, below 1/2
  let t := y * one / 2 ^ (p + 8)
  -- Σ (−t)^i / i!, kept as alternating terms
  let rec go (fuel i term sum : Nat) (neg : Bool) : Nat :=
    match fuel with
    | 0 => sum
    | f + 1 =>
      let term' := term * t / one / i
      if term' = 0 then sum
      else go f (i + 1) term' (if neg then sum - term' else sum + term') (!neg)
  let a := go prec 1 one one true
  let err := prec + 8
  let lo := iterate (fun x => x * x / one) 8 (a - err)
  let hi := iterate (fun x => x * x / one + 1) 8 (a + err)
  (lo, hi)

/-- A rounding of e^x, x = −y/2^p ≤ 0, correct because both bounds round alike; precision doubles until they do. -/
def expRound (round : Nat → Nat → Nat) (y p : Nat) : Nat → Nat → Nat
  | 0, prec => round (expBounds prec y p).1 prec
  | fuel + 1, prec =>
    let b := expBounds prec y p
    let lo := round b.1 prec
    if lo = round b.2 prec then lo else expRound round y p fuel (2 * prec)

/-- e^x for x ≤ 0 given as a value, rounded by a function of (numerator, fraction bits); x ≤ −128 gives what 0 gives. -/
def expNeg (round : Nat → Nat → Nat) : FVal → Nat
  | .fin _ m e =>
    let y := if 0 ≤ e then m * 2 ^ e.toNat else m
    let p := if 0 ≤ e then 0 else (-e).toNat
    if m = 0 then round 1 0
    else if 128 * 2 ^ p ≤ y then round 0 0
    else expRound round y p 8 256
  | _ => round 0 0

/-- round_bf16 (e^x), nearest-even, for x ≤ 0 (R94). -/
def expBf16 (x : FVal) : FVal := decodeF layBF16 (expNeg (fun n p => roundF layBF16 0 false false n 1 (-(p : Int))) x)

/-- Nearest integer to 2^24 e^x for x ≤ 0 (R126). -/
def expWeight (x : FVal) : Nat := expNeg (fun n p => roundInt 0 false (n * 2 ^ 24) (2 ^ p)) x

end Sys2Proof.Machine
end

