-- ==== Sys2Proof/Machine/Reed.lean ====
section
/-! DEFINITION. The wavelengths' Reed-Solomon code: encoder, decoder, codeword lock, and the blocks that a decoder passes on
(R355-R357). -/

namespace Sys2Proof.Machine

/-! ### Symbols and the encoder (R356) -/

/-- A symbol of GF(2^10). -/
abbrev Sym := BitVec 10

/-- A symbol times α, with x^10 = x^3 + 1. -/
def Sym.timesAlpha (a : Sym) : Sym := if a.msb then (a <<< 1) ^^^ 0x009#10 else a <<< 1

/-- The product of two symbols. -/
def Sym.times (a b : Sym) : Sym :=
  ((List.range 10).foldl (fun (x : Sym × Sym) i => (if b.getLsbD i then x.1 ^^^ x.2 else x.1, x.2.timesAlpha)) (0, a)).1

/-- α^i. -/
def alphaPow (i : Nat) : Sym := iterate Sym.timesAlpha i 1

/-- The square of a symbol, `n` times over, and the product of the squares on the way: a^(2 + 4 + … + 2^n). -/
def Sym.squares : Nat → Sym → Sym → Sym
  | 0, _, acc => acc
  | n + 1, a, acc => Sym.squares n (Sym.times a a) (Sym.times acc (Sym.times a a))

/-- The inverse of a symbol other than 0: a^1022. -/
def Sym.inverse (a : Sym) : Sym := Sym.squares 9 a 1

/-- A monic polynomial times (x − α^i); both are given by their lower coefficients, that of x^0 first. -/
def timesRoot (p : List Sym) (i : Nat) : List Sym :=
  let a := alphaPow i
  let q := p ++ [1#10]
  (List.range q.length).map fun k => (if k = 0 then 0#10 else q.getD (k - 1) 0#10) ^^^ Sym.times a (q.getD k 0#10)

/-- g(x) without its leading coefficient 1, that of x^0 first. -/
def rsGenerator : List Sym := (List.range 8).foldl timesRoot []

/-- One more message symbol: the remainder of m(x) x^8, the coefficient of x^7 first. -/
def rsStep (g : List Sym) (r : List Sym) (m : Sym) : List Sym :=
  let f := m ^^^ r.headD 0
  List.zipWith (fun a c => a ^^^ Sym.times f c) (r.drop 1 ++ [0#10]) g.reverse

/-- The codeword of 128 message symbols, in the order sent (R356). -/
def rsEncode (m : List Sym) : List Sym := m ++ m.foldl (rsStep rsGenerator) (List.replicate 8 0#10)

/-- The symbols of a block stream's bits, the first bit of a symbol being its bit 0. -/
def symbolsOf (bits : List Bool) : List Sym :=
  (List.range (bits.length / 10)).map fun i => BitVec.ofNat 10 (bitsNat ((bits.drop (10 * i)).take 10))

/-! ### The decoder (R356) -/

/-- A received word's value at α^i: zero for every i below 8 when the word is a codeword. -/
def rsSyndrome (i : Nat) (c : List Sym) : Sym :=
  let a := alphaPow i
  c.foldl (fun v s => Sym.times v a ^^^ s) 0

/-- The eight syndromes. -/
def rsSyndromes (c : List Sym) : List Sym := (List.range 8).map fun i => rsSyndrome i c

/-- A polynomial's value, its coefficients from that of x^0. -/
def polyEval (p : List Sym) (x : Sym) : Sym := p.foldr (fun c v => c ^^^ Sym.times v x) 0

/-- The sum of two polynomials. -/
def polyAdd (a b : List Sym) : List Sym :=
  (List.range (max a.length b.length)).map fun i => a.getD i 0 ^^^ b.getD i 0

/-- A polynomial times a symbol and x^m. -/
def polyShift (p : List Sym) (f : Sym) (m : Nat) : List Sym := List.replicate m 0 ++ p.map (Sym.times f)

/-- The search for the error locator: the locator, the one before its last change of length with its discrepancy, its length,
and the steps since that change. -/
structure Locator where
  c : List Sym
  b : List Sym
  d : Sym
  len : Nat
  gap : Nat
deriving DecidableEq, Repr

/-- One more syndrome taken in. -/
def Locator.step (s : List Sym) (x : Locator) (n : Nat) : Locator :=
  let d := (List.range (x.len + 1)).foldl (fun v i => v ^^^ Sym.times (x.c.getD i 0) (s.getD (n - i) 0)) 0
  let next := polyAdd x.c (polyShift x.b (Sym.times d x.d.inverse) x.gap)
  if d = 0 then { x with gap := x.gap + 1 }
  else if 2 * x.len ≤ n then ⟨next, x.c, d, n + 1 - x.len, 1⟩
  else { x with c := next, gap := x.gap + 1 }

/-- The error locator of eight syndromes. -/
def locatorOf (s : List Sym) : Locator := (List.range 8).foldl (Locator.step s) ⟨[1], [1], 1, 0, 1⟩

/-- The error at a place of which the locator says that it is one. -/
def errorAt (s loc : List Sym) (e : Nat) : Sym :=
  let x := alphaPow e
  let y := x.inverse
  let omega := (List.range 8).map fun k => (List.range (k + 1)).foldl (fun v i => v ^^^ Sym.times (loc.getD i 0) (s.getD (k - i) 0)) 0
  let slope := (List.range loc.length).map fun i => if i % 2 = 0 then loc.getD (i + 1) 0 else 0
  Sym.times x (Sym.times (polyEval omega y) (polyEval slope y).inverse)

/-- A received word corrected, up to four symbols of it, with the number corrected; none when it cannot be (R356). -/
def rsDecode (c : List Sym) : Option (List Sym × Nat) :=
  let s := rsSyndromes c
  if s.all (· == 0) then some (c, 0)
  else
    let l := locatorOf s
    let places := (List.range c.length).filter fun i => polyEval l.c (alphaPow (c.length - 1 - i)).inverse == 0
    let fixed := (List.range c.length).map fun i =>
      if places.contains i then c.getD i 0 ^^^ errorAt s l.c (c.length - 1 - i) else c.getD i 0
    if 4 < l.len ∨ places.length ≠ l.len then none
    else if (rsSyndromes fixed).all (· == 0) then some (fixed, places.length) else none

/-! ### Lock and delivery (R357) -/

/-- A decoder's lock: whether it is locked, codewords in a row with zero syndrome, and uncorrectable ones in a row. -/
structure FecLock where
  locked : Bool
  good : Nat
  bad : Nat
deriving DecidableEq, Repr

/-- A decoder not locked. -/
def FecLock.init : FecLock := ⟨false, 0, 0⟩

/-- One codeword at the position looked at: four in a row of zero syndrome lock, eight uncorrectable ones in a row lose the
lock. -/
def FecLock.take (x : FecLock) (c : List Sym) : FecLock :=
  if x.locked then match rsDecode c with
    | some _ => { x with bad := 0 }
    | none => if 8 ≤ x.bad + 1 then FecLock.init else { x with bad := x.bad + 1 }
  else if (rsSyndromes c).all (· == 0) then (if 4 ≤ x.good + 1 then ⟨true, 0, 0⟩ else { x with good := x.good + 1 })
  else FecLock.init

/-- Of codewords received in order, those before the lock is lost. -/
def FecLock.held : FecLock → List (List Sym) → List (List Sym)
  | _, [] => []
  | x, c :: r => if x.locked then c :: FecLock.held (x.take c) r else []

/-- A decoder's search over the codewords at one bit position (R357). -/
def FecLock.search (ws : List (List Sym)) : FecLock := ws.foldl FecLock.take FecLock.init

/-- Codewords that cannot be corrected. -/
def uncorrectable (ws : List (List Sym)) : Nat := (ws.filter fun w => (rsDecode w).isNone).length

/-- What a codeword gives of the block stream: its 1,280 message bits, each with whether the codeword is one to rely on. -/
def wordBits (c : List Sym) : List (Bool × Bool) :=
  let w := match rsDecode c with
    | some r => (r.1, true)
    | none => (c, false)
  (w.1.take 128).flatMap fun s => (List.range 10).map fun i => (s.getLsbD i, w.2)

/-- The blocks that a decoder passes on: those of an uncorrectable codeword with the header 0b00 (R357). -/
def wordBlocks (ws : List (List Sym)) : List RawBlock :=
  let bits := ws.flatMap wordBits
  (List.range (bits.length / 66)).map fun i =>
    let b := (bits.drop (66 * i)).take 66
    if b.all (·.2) then ⟨BitVec.ofNat 2 (bitsNat ((b.take 2).map (·.1))), BitVec.ofNat 64 (bitsNat ((b.drop 2).map (·.1)))⟩
    else ⟨0, BitVec.ofNat 64 (bitsNat ((b.drop 2).map (·.1)))⟩

end Sys2Proof.Machine
end

