-- ==== Sys2Proof/Machine/Table.lean ====
section
/-! DEFINITION. Sparse tables in one canonical form: keys strictly rising, and no entry equal to what an unlisted key
reads as. Device memory, host memory and the numbered resources of the block are held so. -/

namespace Sys2Proof.Machine

/-- A sparse table: a key that is not listed holds the table's default. -/
abbrev Tbl (α : Type) := List (Nat × α)

/-- The value at a key, the default `d` where it is not listed. -/
def tget {α : Type} (d : α) : Tbl α → Nat → α
  | [], _ => d
  | (k', v) :: r, k => if k = k' then v else if k < k' then d else tget d r k

/-- A value stored at a key; storing the default takes the entry out. -/
def tset {α : Type} [DecidableEq α] (d : α) : Tbl α → Nat → α → Tbl α
  | [], k, v => if v = d then [] else [(k, v)]
  | (k', v') :: r, k, v =>
    if k < k' then (if v = d then (k', v') :: r else (k, v) :: (k', v') :: r)
    else if k = k' then (if v = d then r else (k, v) :: r)
    else (k', v') :: tset d r k v

/-- A value changed in place. -/
def tmod {α : Type} [DecidableEq α] (d : α) (m : Tbl α) (k : Nat) (f : α → α) : Tbl α := tset d m k (f (tget d m k))

/-- The entries from key `lo` up to but not including `hi` taken out. -/
def tclear {α : Type} (m : Tbl α) (lo hi : Nat) : Tbl α := m.filter fun e => !(decide (lo ≤ e.1) && decide (e.1 < hi))

/-- Every listed key is above `k`, keys rise, and no entry holds the default. -/
def twfFrom {α : Type} [DecidableEq α] (d : α) : Option Nat → Tbl α → Bool
  | _, [] => true
  | lo, (k, v) :: r => (match lo with | none => true | some l => decide (l < k)) && decide (v ≠ d) && twfFrom d (some k) r

/-- The canonical form. -/
def twf {α : Type} [DecidableEq α] (d : α) (m : Tbl α) : Bool := twfFrom d none m

/-- The lowest key from `from_` below `limit` that the sorted key list does not hold. -/
def lowestGap (limit : Nat) : List Nat → Nat → Option Nat
  | [], k => if k < limit then some k else none
  | x :: r, k => if x < k then lowestGap limit r k
                 else if x = k then lowestGap limit r (k + 1)
                 else if k < limit then some k else none

/-- The lowest `n` numbers from `k` below `limit` that the sorted key list does not hold, rising. -/
def lowestGaps (limit : Nat) : Nat → List Nat → Nat → List Nat
  | n, [], k => (List.range (min n (limit - k))).map (k + ·)
  | n, x :: r, k =>
    if x < k then lowestGaps limit n r k
    else
      let c := min n (min x limit - k)
      (List.range c).map (k + ·) ++ lowestGaps limit (n - c) r (x + 1)

/-- Entries with rising keys, none of them the default, put into a table in one pass. -/
def tinsertAll {α : Type} : Tbl α → List (Nat × α) → Tbl α
  | m, [] => m
  | m, e :: es => m.takeWhile (fun x => decide (x.1 < e.1)) ++ e :: tinsertAll (m.dropWhile fun x => decide (x.1 ≤ e.1)) es

/-- The entries from key `lo` up to but not including `hi`. -/
def tslice {α : Type} (m : Tbl α) (lo hi : Nat) : Tbl α :=
  (m.dropWhile fun x => decide (x.1 < lo)).takeWhile fun x => decide (x.1 < hi)

/-- Consecutive bytes read from a byte table. -/
def readBytes (d : Byte) (m : Tbl Byte) (a n : Nat) : List Byte := (List.range n).map fun i => tget d m (a + i)

/-- Consecutive bytes written to a byte table. -/
def writeBytes (d : Byte) (m : Tbl Byte) (a : Nat) : List Byte → Tbl Byte
  | [] => m
  | b :: bs => writeBytes d (tset d m a b) (a + 1) bs

/-! ### The same in one pass, for evaluation -/

/-- The value at a key that is at most the table's first. -/
def headAt {α : Type} (d : α) (a : Nat) : Tbl α → α
  | [] => d
  | (k, v) :: _ => if k = a then v else d

/-- `readBytes` in one pass over the table. -/
def readBytesRun (d : Byte) : Tbl Byte → Nat → Nat → List Byte
  | _, _, 0 => []
  | m, a, n + 1 =>
    let r := m.dropWhile fun x => decide (x.1 < a)
    headAt d a r :: readBytesRun d r (a + 1) n

/-- The first entry taken out when it holds a key. -/
def cutKey {α : Type} (a : Nat) : Tbl α → Tbl α
  | [] => []
  | (k, v) :: r => if k = a then r else (k, v) :: r

/-- `writeBytes` in one pass over the table. -/
def writeBytesRun (d : Byte) : Tbl Byte → Nat → List Byte → Tbl Byte
  | m, _, [] => m
  | m, a, b :: bs =>
    let lo := m.takeWhile fun x => decide (x.1 < a)
    let hi := cutKey a (m.dropWhile fun x => decide (x.1 < a))
    lo ++ ((if b = d then [] else [(a, b)]) ++ writeBytesRun d hi (a + 1) bs)

theorem tget_dropWhile {α : Type} (d : α) (m : Tbl α) (a k : Nat) (h : a ≤ k) :
    tget d (m.dropWhile fun x => decide (x.1 < a)) k = tget d m k := by
  induction m with
  | nil => rfl
  | cons e r ih =>
    by_cases he : e.1 < a
    · have h1 : k ≠ e.1 := by omega
      have h2 : ¬ k < e.1 := by omega
      simp [he, tget, h1, h2, ih]
    · simp [he]

theorem tget_head {α : Type} (d : α) (m : Tbl α) (a : Nat) (h : ∀ e ∈ m.head?, a ≤ e.1) :
    tget d m a = headAt d a m := by
  cases m with
  | nil => rfl
  | cons e r =>
    have := h e (by simp)
    by_cases he : a = e.1
    · simp [tget, headAt, he]
    · have h2 : a < e.1 := by omega
      simp [tget, headAt, he, h2, Ne.symm he]

theorem head_dropWhile {α : Type} (m : Tbl α) (a : Nat) : ∀ e ∈ (m.dropWhile fun x => decide (x.1 < a)).head?, a ≤ e.1 := by
  induction m with
  | nil => simp
  | cons e r ih =>
    by_cases he : e.1 < a
    · simpa [he] using ih
    · intro e' h'
      simp [he] at h'
      subst h'
      omega

theorem readBytes_run (d : Byte) (n : Nat) : ∀ (m : Tbl Byte) (a : Nat), readBytes d m a n = readBytesRun d m a n := by
  induction n with
  | zero => intro m a; rfl
  | succ n ih =>
    intro m a
    have e : readBytes d m a (n + 1) = tget d m a :: readBytes d m (a + 1) n := by
      simp [readBytes, List.range_succ_eq_map, Function.comp_def, Nat.add_assoc, Nat.add_comm 1]
    have e2 : readBytes d (m.dropWhile fun x => decide (x.1 < a)) (a + 1) n = readBytes d m (a + 1) n := by
      simp only [readBytes]
      apply List.map_congr_left
      intro i _
      exact tget_dropWhile d m a (a + 1 + i) (by omega)
    rw [e, ← e2, ih, readBytesRun, ← tget_dropWhile d m a a (Nat.le_refl a), tget_head d _ a (head_dropWhile m a)]

/-- Reading runs in one pass. -/
@[csimp] theorem readBytes_eq_run : @readBytes = @readBytesRun := by
  funext d m a n
  exact readBytes_run d n m a

theorem tset_append {α : Type} [DecidableEq α] (d : α) (x y : Tbl α) (k : Nat) (v : α) (h : ∀ e ∈ x, e.1 < k) :
    tset d (x ++ y) k v = x ++ tset d y k v := by
  induction x with
  | nil => rfl
  | cons e r ih =>
    have he := h e (by simp)
    have h1 : ¬ k < e.1 := by omega
    have h2 : k ≠ e.1 := by omega
    simp [tset, h1, h2, ih fun e' h' => h e' (by simp [h'])]

theorem tset_head {α : Type} [DecidableEq α] (d : α) (m : Tbl α) (k : Nat) (v : α) (h : ∀ e ∈ m.head?, k ≤ e.1) :
    tset d m k v = (if v = d then [] else [(k, v)]) ++ cutKey k m := by
  cases m with
  | nil => by_cases hv : v = d <;> simp [tset, cutKey, hv]
  | cons e r =>
    have := h e (by simp)
    by_cases he : k = e.1
    · subst he
      by_cases hv : v = d <;> simp [tset, cutKey, hv]
    · have h2 : k < e.1 := by omega
      by_cases hv : v = d <;> simp [tset, cutKey, h2, hv, Ne.symm he]

theorem takeWhile_lt {α : Type} (m : Tbl α) (a : Nat) : ∀ e ∈ m.takeWhile fun x => decide (x.1 < a), e.1 < a := by
  induction m with
  | nil => simp
  | cons e r ih =>
    by_cases he : e.1 < a
    · simp only [List.takeWhile_cons, he, decide_true, if_true, List.mem_cons]
      rintro e' (rfl | h)
      · exact he
      · exact ih e' h
    · simp [he]

theorem writeBytes_append (d : Byte) (bs : List Byte) : ∀ (x y : Tbl Byte) (a : Nat), (∀ e ∈ x, e.1 < a) →
    writeBytes d (x ++ y) a bs = x ++ writeBytes d y a bs := by
  induction bs with
  | nil => intros; rfl
  | cons b bs ih =>
    intro x y a h
    rw [writeBytes, tset_append d x y a b h, ih x _ (a + 1) fun e he => Nat.lt_succ_of_lt (h e he), writeBytes]

theorem writeBytes_run (d : Byte) (bs : List Byte) : ∀ (m : Tbl Byte) (a : Nat),
    writeBytes d m a bs = writeBytesRun d m a bs := by
  induction bs with
  | nil => intros; rfl
  | cons b bs ih =>
    intro m a
    have hm : m.takeWhile (fun x => decide (x.1 < a)) ++ m.dropWhile (fun x => decide (x.1 < a)) = m :=
      List.takeWhile_append_dropWhile
    conv => lhs; rw [writeBytes, ← hm, tset_append d _ _ a b (takeWhile_lt m a), tset_head d _ a b (head_dropWhile m a),
      writeBytes_append d bs _ _ (a + 1) fun e he => Nat.lt_succ_of_lt (takeWhile_lt m a e he)]
    rw [writeBytes_append d bs _ _ (a + 1) (by intro e he; split at he <;> simp_all), ih]
    rfl

/-- Writing runs in one pass. -/
@[csimp] theorem writeBytes_eq_run : @writeBytes = @writeBytesRun := by
  funext d m a bs
  exact writeBytes_run d bs m a

end Sys2Proof.Machine
end

