-- ==== Sys2Proof/Machine/State.lean ====
section
/-! DEFINITION. The state of the block: every register, counter, mode, table, buffer and pin the manual gives it,
as plain data, and its value right after reset. -/

namespace Sys2Proof.Machine

/-- One value for each half. -/
structure Both (α : Type) where
  west : α
  east : α
deriving DecidableEq, Repr

/-- The classes of a fault message (Table 18-1). -/
inductive FClass where
  | corrected | contained | fatal
deriving DecidableEq, Repr

/-- A Belfry message (Table 18-1): source, class, kind, address. -/
structure Msg where
  src : Nat
  cls : FClass
  kind : Nat
  addr : Nat
deriving DecidableEq, Repr

/-- A message waiting in the reorder window (R448); `act` says whether a reaction that is the safe state is taken (R294); `own`
is the free-running count with which an unsynchronised die stamped it, the mark that it is unsynchronised (R315). -/
structure Held where
  msg : Msg
  stamp : Nat
  injected : Bool
  act : Bool
  own : Option Nat
deriving DecidableEq, Repr

/-- A log entry (Table 12-12). -/
structure LogEntry where
  index : Word
  msg : Msg
  stamp : Nat
  acked : Bool
  cleared : Bool
  injected : Bool
  repeats : Nat
deriving DecidableEq, Repr

/-- The Belfry (chapter 18): the log in ascending order of index, the messages still in the window, the counts. -/
structure Belfry where
  log : List LogEntry
  next : Word
  waiting : List Held
  notLogged : Nat
  escalated : Nat
  fullEpisode : Bool
  sel : Word
deriving DecidableEq, Repr

/-- The status of one register domain (Table 9-6) with its scan results (R216). -/
structure Dom where
  commitBusy : Bool
  armed : Bool
  down : Bool
  stall : Bool
  crcBad : Bool
  badValue : Bool
  accessErr : Bool
  lockViol : Bool
  live : Word
  ref : Word
deriving DecidableEq, Repr

/-- A domain as reset leaves it: open, nothing set. -/
def Dom.init : Dom := ⟨false, false, false, false, false, false, false, false, 0, 0⟩

/-- A mailbox (R212-R214). -/
structure Mbx where
  seq : Nat
  selErr : Bool
  valid : Bool
  data : Nat
deriving DecidableEq, Repr

/-- A mailbox as reset leaves it. -/
def Mbx.init : Mbx := ⟨0, false, false, 0⟩

/-- The Drum's own registers: domains, the settings that Gallery keeps of domains under reset (R219), mailboxes of the four
endpoints, of Gallery (4) and of Keep (5), steward, Oculus change count, clock status. -/
structure Drm where
  doms : Tbl Dom
  kept : Tbl (List Nat)
  mbx : Tbl Mbx
  steward : Fin 4
  change : Nat
  tbPresent : Bool
  tbLost : Bool
  tbSource : Bool
deriving DecidableEq, Repr

/-- Where the package stands between Off and running. -/
inductive Phase where
  | off | held | starting | running
deriving DecidableEq, Repr

/-- The kinds of start (Table 20-7). -/
inductive StartKind where
  | cold | warm | commissioning
deriving DecidableEq, Repr

/-- The role of a physical lane (Table 13-11). -/
inductive LaneRole where
  | idle | service | spare | failed | fused
deriving DecidableEq, Repr

/-- A physical lane of a bundle: role, logical lane, slip, equaliser code, figure of merit, low measurements in a row; its
descrambler (R297), and the invalid headers of one aligned millisecond (R309, R528). -/
structure Lane where
  role : LaneRole
  logical : Nat
  slip : Nat
  ctle : Nat
  fom : Nat
  low : Nat
  line : BitVec 58
  window : Nat
  invalid : Nat
deriving DecidableEq, Repr

/-- A lane not trained. -/
def Lane.init : Lane := ⟨.idle, 127, 0, 0, 0, 0, 0, 0, 0⟩

/-- A die's own identity fuses (Table 13-6). -/
structure DieFuses where
  id : Dword
  serial : Dword
  stepping : Byte
deriving DecidableEq, Repr

/-- Fuses as a die leaves the wafer. -/
def DieFuses.blank : DieFuses := ⟨0, 0, 0⟩

/-- The identity fuses of the package (Table 13-6): the eleven dies' own, in the order of the THERMAL records; the lanes fused
out at assembly, by received bundle; each Spire's hash of its stacks' identities; each laser's nominal bias, absolute limit and
output in 0.01 dBm as the factory left it (R385), key 18 × Lantern + laser. -/
structure Fuses where
  dies : Tbl DieFuses
  lanes : Tbl (List Nat)
  stackIds : Both Dword
  lasers : Tbl (Nat × Nat × Int)
deriving DecidableEq, Repr

/-- Where a fence has put the lines of its pseudo-channel (R159): a slot of the fence reserve, or 512 frames of the half's
pool. -/
inductive FencePlace where
  | slot (k : Nat)
  | frames (l : List Nat)
deriving DecidableEq, Repr

/-- Stored training parameters (R494): one copy is kept, the newest valid one: columns, fenced Lanterns, broken sensors
(die, sensor), retired frames, fenced pseudo-channels, bundles that an injected fault has fenced, each bundle's speed and lanes, each Lantern's ring codes and its
temperature at them. -/
structure Stored where
  valid : Bool
  failedCols : Both (List Nat)
  reserveCols : Both (List Nat)
  fencedLanterns : List Nat
  broken : List (Nat × Nat)
  retired : Both (List Nat)
  fencedPcs : Both (List (Nat × FencePlace))
  fencedBundles : List Nat
  lanes : Tbl (Nat × Tbl Lane)
  rings : Tbl (Tbl Nat)
  temps : Tbl (Option Int)
deriving DecidableEq, Repr

/-- Start and reset state (chapter 20), with the start record and settings held in flash (R493, Table 21-7). -/
structure Start where
  phase : Phase
  done : Bool
  kind : StartKind
  cause : Nat
  paramsValid : Bool
  coldRequested : Bool
  failedRun : Nat
  failedWarm : Nat
  markSet : Bool
  lastWarm : Bool
  singleHalf : Bool
  wasLost : Bool
  startedAt : Nat
  safe : Bool
  safeNoFetch : Bool
  safeAt : Nat
  flashSteward : Option (Fin 4)
  flashSubsystem : Option (Hword × Hword)
  stored : Stored
deriving DecidableEq, Repr

/-- One MSI-X vector: address, data, mask bit. -/
structure MsixVec where
  addr : Nat
  data : Nat
  masked : Bool
deriving DecidableEq, Repr

/-- A vector as reset leaves it: masked. -/
def MsixVec.init : MsixVec := ⟨0, 0, true⟩

/-- The stage an SPDM requester has reached on an endpoint (R471). -/
inductive SpdmStage where
  | none | version | caps | algos
deriving DecidableEq, Repr

/-- What an endpoint's DOE mailbox answered last; message bodies that SPDM lays out are bytes. -/
inductive DoeAnswer where
  | none
  | discovery (vendor protocol next : Nat)
  | bytes (b : List Byte)
  | error (code : Nat)
deriving DecidableEq, Repr

/-- A host port (chapter 10): link, power management state, MSI-X table and pending bits, DOE. -/
structure Port where
  width : Nat
  rate : Nat
  slow : Bool
  d3 : Bool
  msix : Tbl MsixVec
  pba : Nat
  spdm : SpdmStage
  deferred : Option DoeAnswer
  doe : DoeAnswer
  transcript : List Byte
  certs : List Byte
  measures : List Byte
deriving DecidableEq, Repr

/-- A port with its link down. -/
def Port.init : Port := ⟨0, 0, false, false, [], 0, .none, none, .none, [], [], []⟩

/-- A partition (chapter 10). -/
structure Part where
  gen : Hword
  resetting : Bool
  slotQuota : Nat
  guarantee : Nat
  limit : Nat
  bar2 : Nat
  unmapped : Nat
  dropped : Nat
  stale : Nat
  offer : Option Nat
  rateWindow : Nat
  rateDropped : Nat
  rateUnmapped : Nat
  lastBurst : Option Nat
  turnUrgent : Bool
  ptrUrgent : Nat
  ptrNormal : Nat
  runs : Nat
  faultIrq : Bool
deriving DecidableEq, Repr

/-- A partition as power-on leaves it. Its generation is raised to the 0x0001 of Table 10-6 by the first start (R490);
until then no register can be read (R491) and no generation has been issued (R228). -/
def Part.init : Part :=
  ⟨0, false, 16, 0, 0xFFFFF, 0, 0, 0, 0, none, 0, 0, 0, none, false, 0, 0, 0, true⟩

/-- A queue pair (chapter 11). -/
structure QPair where
  sizeLog2 : Nat
  irqEn : Bool
  urgent : Bool
  enable : Bool
  sqBase : Nat
  cqBase : Nat
  sqHead : Nat
  sqTail : Nat
  cqTail : Nat
  cqHead : Nat
  phase : Bool
  error : Bool
  outstanding : Nat
  armed : Bool
deriving DecidableEq, Repr

/-- A queue pair as reset leaves it (Tables 11-6 to 11-11). -/
def QPair.init : QPair := ⟨12, true, false, false, 0, 0, 0, 0, 0, 0, true, false, 0, true⟩

/-- A fetched command: its number, where it came from, its packet and extension entries, the commits that the slot it
names had seen when it was fetched (for an accepted OPLIST_RUN, its RUN_NUMBER; for a FAULT_INJECT, the time), whether a reset of its partition has
ended it without a reply (R243), and whether the slot it names has been closed since it was accepted (R248). -/
structure Acc where
  id : Nat
  part : Fin 4
  qp : Fin 16
  keep : Bool
  pkt : List Byte
  ext : List Byte
  mark : Nat
  dead : Bool
  closed : Bool := false
deriving DecidableEq, Repr

/-- What an accepted command that cannot reply yet waits for. -/
inductive WaitKind where
  | power (target prev susp cancelled : Nat)
  | memFree (runs : List Nat)
  | memHalf
  | cap (prev : Nat)
  | portUp (lantern port : Nat)
  | swap (lantern wave : Nat)
  | drain (lantern action : Nat)
  | zeroing (low : Bool)
deriving DecidableEq, Repr

/-- A command in progress. -/
structure Waiter where
  acc : Acc
  kind : WaitKind
deriving DecidableEq, Repr

/-- Gallery's command engine (R249-R253): whose turn it is, the accepted commands whose effect is still to come, the
commands held for Keep, the commands in progress. -/
structure Gallery where
  turn : Fin 4
  nextId : Nat
  accepted : List Acc
  keepQ : List Acc
  waiters : List Waiter
deriving DecidableEq, Repr

/-- What a frame of a half's allocatable pool is used for (R145, R158, R159, R167). -/
inductive FrameUse where
  | free
  | mapped (p : Fin 4) (f : Nat)
  | kv (slot i : Nat)
  | zeroing (p : Fin 4)
  | retired
  | fence
deriving DecidableEq, Repr

/-- One correction in a row: time, pseudo-channel of the half, row, and whether it was a double-bit one (R157). -/
structure RowEvent where
  time : Nat
  pc : Nat
  row : Nat
  double : Bool
deriving DecidableEq, Repr

/-- The HBM of one half (chapter 6): `fencedPcs` the fences complete, in order, and `relocating` those whose copy runs, each
with its place (R159). -/
structure Hbm where
  use : Tbl FrameUse
  retired : Nat
  fencedPcs : List (Nat × FencePlace)
  retirePending : List Nat
  fencePending : List Nat
  relocating : List (Nat × FencePlace)
  selfRefresh : Bool
  ctrl : Nat
  temps : Tbl (Option Int)
  corrections : List RowEvent
  uncorrectables : List RowEvent
  retirements : List RowEvent
  corrected : Nat
  uncorrectable : Nat
  addressErrors : Nat
  retirementCount : Nat
  fcHits : Nat
  fcMisses : Nat
  stackCorrected : Tbl Nat
  stackLogged : Tbl (Option Nat)
  atLimit : List Nat
  warm : List Nat
deriving DecidableEq, Repr

/-- Device memory (R144): bytes by DPA, poisoned words by word number against the state of the DPA frame they lie in
(`fpoison`: every word of the frame was written poisoned, R500), stored bit errors by word number, words whose location
failed (R153), the frame maps of the partitions (key partition × 2^20 + frame, value DPA frame), and the lines in the far
caches by line number, the one used last first: a line is held in the far cache of the half that is not its home, and this list is
the directory that its home keeps (R161-R163). -/
structure Memory where
  cells : List Host.Cell
  poison : Tbl Bool
  fpoison : Tbl Bool
  upset : Tbl (BitVec 107)
  badLoc : Tbl Bool
  fmap : Tbl (Option Nat)
  fc : List Nat
deriving DecidableEq, Repr

/-- The state of a physical column (R44). -/
inductive ColState where
  | good | reserve | failed
deriving DecidableEq, Repr

/-- Whether a half is in service (Table 20-7). -/
inductive HalfState where
  | inService | orderly | abrupt | lost
deriving DecidableEq, Repr

/-- The array of one half (chapter 2), with the count of single errors corrected in its tile store and far cache (R161);
`preparing` while an orderly reset waits for the links to the half (R336); `ownCount` how far the free-running count of its
unsynchronised dies is ahead of the time base (R315). -/
structure Arr where
  half : HalfState
  preparing : Bool
  resetSince : Nat
  resetCause : Nat
  failedStarts : Nat
  cols : Tbl ColState
  bound : List Nat
  lastFailed : Option Nat
  sent : Tbl Nat
  slowSince : Tbl (Option Nat)
  sentSel : Nat
  remapEn : Bool
  wavesTotal : Nat
  wavesLast : Nat
  wavesRetry : Nat
  target : Nat
  measured : Nat
  checks : List (Nat × Nat × Nat)
  tstCorrected : Nat
  unsync : Bool
  ownCount : Nat
  unsyncLogged : List Nat
deriving DecidableEq, Repr

/-- Slot states (Table 5-1). -/
inductive SlotState where
  | free | opened | stepping | suspended | lost
deriving DecidableEq, Repr

/-- KV geometry of one layer group (Table 5-3). -/
structure KvGroup where
  layers : Nat
  nkvh : Nat
  headDim : Nat
  fmt : Nat
deriving DecidableEq, Repr

/-- A queued or running step: its command, fed tokens, GEN_MAX, token-record address, and whether it is in a run. -/
structure StepReq where
  acc : Acc
  feed : List Nat
  genMax : Nat
  out : Nat
  running : Bool
deriving DecidableEq, Repr

/-- A digest report's content (Table 7-6). -/
structure Report where
  runNumber : Nat
  target : Dword
  drafter : Dword
  waves : Nat
  ops : Nat
  vPresent : Bool
  inexact : Bool
  refused : Bool
  truncated : Bool
  gen : Nat
  refusedIndex : Nat
  commit : Nat
  doneTime : Nat
deriving DecidableEq, Repr

/-- A sequence slot (chapter 5). -/
structure Slot where
  owner : Option (Fin 4)
  st : SlotState
  gen : Hword
  target : KvGroup
  drafter : KvGroup
  maxPos : Nat
  tentPos : Nat
  list : Nat
  rowmap : Nat
  scratch : Nat
  scratchLen : Nat
  seed : Nat
  invTemp : Nat
  topK : Nat
  topP : Nat
  greedy : Bool
  stop : Nat
  draftMax : Nat
  genDefault : Nat
  commit : Nat
  kvLen : Nat
  tent : Nat
  dkv : Nat
  dkvWritten : Nat
  fedNow : Nat
  drafts : List Nat
  draftLen : Nat
  tokens : Tbl Nat
  histStart : Nat
  steps : List StepReq
  frames : Both (List Nat)
  report : Option Report
  draftDigest : Dword
  commits : Nat
deriving DecidableEq, Repr

/-- A group never set. -/
def KvGroup.unset : KvGroup := ⟨0, 0, 0, 0⟩

/-- A FREE slot that was never opened: generation 0. -/
def Slot.init : Slot :=
  ⟨none, .free, 0, KvGroup.unset, KvGroup.unset, 0, 0, 0, 0, 0, 0, 0, 0, 0, 0, false, 0, 0, 0, 0, 0, 0, 0, 0, 0, [], 0,
   [], 0, [], ⟨[], []⟩, none, 0, 0⟩

/-- A descriptor, its fields as Table 4-1 lays them out. -/
structure Desc where
  kind : Nat
  mode : Nat
  flags : Nat
  fmtA : Nat
  fmtB : Nat
  fmtC : Nat
  fmtD : Nat
  epi : Nat
  outScale : Int
  m : Nat
  n : Nat
  k : Nat
  group : Nat
  loopAdv : Nat
  a : Nat
  as : Nat
  b : Nat
  bs : Nat
  c : Nat
  d : Nat
  ds : Nat
  x : Nat
  p : List Nat
  tag : Nat
deriving DecidableEq, Repr

/-- A loaded list (R80): its descriptors and its trace. -/
structure OpList where
  descs : List Desc
  traceAddr : Nat
  traceLen : Nat
deriving DecidableEq, Repr

/-- Where bytes of a result tile go: partition memory, a slot's KV pages in a half, or nowhere (a message's bytes). -/
inductive Dest where
  | part (addr : Nat)
  | kv (slot : Nat) (half : Half) (off : Nat)
  | send
deriving DecidableEq, Repr

/-- A digest tile of the operation in flight: its index, its bytes in digest order, the writes it makes, and the slot
whose row it holds. -/
structure Tile where
  index : Dword
  bytes : List Byte
  writes : List (Dest × List Byte)
  slot : Option Nat
deriving DecidableEq, Repr

/-- One row of a row map: slot, position, input token. -/
structure RowEnt where
  slot : Nat
  pos : Nat
  input : Nat
deriving DecidableEq, Repr

/-- One slot's part in a run: its row-map area, its step, the drafts used, whether it was cancelled or has committed. -/
structure Member where
  slot : Nat
  rowmap : Nat
  req : StepReq
  drafts : List Nat
  cancelled : Bool
  committed : Bool
  stopped : Bool
deriving DecidableEq, Repr

/-- The operation in flight: its tiles still to be written, its digest so far, in all and by slot, its waves, tiles already
re-executed, partition addresses of words that arrived poisoned, whether anchors differed, the half it waits for,
the order of arrival of a SCATTER. -/
structure OpFlight where
  desc : Desc
  tiles : List Tile
  digest : Dword
  waves : Both Nat
  inexact : Bool
  retried : List (Dword × Option Nat)
  slots : Tbl Dword
  poison : List Nat
  faulted : Bool
  pausedFor : Option Half
  order : List Nat
deriving DecidableEq, Repr

/-- A LOOP being executed (R104): first body descriptor, body length, count, iteration, stride. -/
structure LoopSt where
  start : Nat
  body : Nat
  count : Nat
  iter : Nat
  stride : Int
deriving DecidableEq, Repr

/-- A FENCE being waited for (R103). -/
structure FenceWait where
  mode : Nat
  addr : Nat
  value : Nat
  group : Nat
  since : Nat
  limit : Nat
deriving DecidableEq, Repr

/-- A group snapshot of a run (R401): group number, rank of this device, members (device, partition, generation), epoch. -/
structure GroupSnap where
  group : Nat
  rank : Nat
  members : List (Nat × Nat × Nat)
  epoch : Nat
deriving DecidableEq, Repr

/-- The drafter section's place (R131): iteration, whether a pass of it is in the arrays, the slots of the pass, those of
the iteration still to come, digest, whether it was refused. -/
structure DraftSt where
  iter : Nat
  inPass : Bool
  pass : List Nat
  left : List Nat
  digest : Dword
  refused : Bool
deriving DecidableEq, Repr

/-- An operation that the front pipeline of a half holds ahead of the one in the array (R30, R32): its descriptor's place
and loop iteration, whether address resolve has passed it, and the weight-ring slots that its operands fill. -/
structure Ahead where
  pc : Nat
  iter : Nat
  resolved : Bool
  slots : Nat
deriving DecidableEq, Repr

/-- The run in the arrays (R81). `ahead` is each half's window, `early` the rows of drafter work started before VERIFY has
resolved, by slot (R37, R132). -/
structure Run where
  part : Fin 4
  list : Nat
  number : Nat
  acc : Option Acc
  hasRows : Bool
  members : List Member
  rows : List RowEnt
  pc : Nat
  loop : Option LoopSt
  index : Nat
  markDigest : Dword
  markWaves : Nat
  digest : Dword
  waves : Nat
  ops : Nat
  vPresent : Bool
  inexact : Bool
  truncated : Bool
  degraded : Nat
  refusedAt : Option (Nat × Nat)
  traceAt : Nat
  cur : Option OpFlight
  fence : Option FenceWait
  slotDigest : Tbl Dword
  samples : Tbl Nat
  groups : List GroupSnap
  sentTo : List (Nat × Nat)
  early : Tbl (List RowEnt)
  ahead : Both (List Ahead)
  draft : Option DraftSt
deriving DecidableEq, Repr

/-- An OPLIST_RUN accepted and waiting. -/
structure RunReq where
  acc : Acc
  list : Nat
  number : Nat
deriving DecidableEq, Repr

/-- The run engine: loaded lists (key partition × 256 + list), last run reports, waiting OPLIST_RUNs, the run in the
arrays, whether issue is held after a droop (R420). -/
structure Engine where
  lists : Tbl (Option OpList)
  reports : Tbl (Option Report)
  waiting : List RunReq
  run : Option Run
  hold : Bool
deriving DecidableEq, Repr

/-- One on-package rail (Table 17-4): last reading, droop bookkeeping. -/
structure Rail where
  mv : Nat
  deciAmps : Nat
  below : Bool
  aboveSince : Option Nat
  droops : Nat
  window : Nat
  inWindow : Nat
  lastLogged : Option Nat
deriving DecidableEq, Repr

/-- A rail never sampled. -/
def Rail.init : Rail := ⟨0, 0, false, none, 0, 0, 0, none⟩

/-- The power manager (chapter 17): power state 0-3, sticky idle, cap, levers, array set points in mV, the state that a
transition in progress leads to; the power measured in mW over the last 1 ms, newest first; the energy in 10⁻⁶ mJ. -/
structure Power where
  st : Nat
  sticky : Bool
  cap : Nat
  capLimited : Bool
  capLimitedAt : Nat
  capLimitedTime : Nat
  capRate : Nat
  hbmCapped : Bool
  duty : Bool
  measured : Nat
  samples : List (Nat × Nat)
  energy : Nat
  lastSample : Nat
  ctrl : Nat
  railSel : Nat
  rails : Tbl Rail
  volts : Both Nat
  riseCap : Both (Option Nat)
  stop : Bool
  coolSince : Option Nat
  quiesced : Option Nat
  goal : Option Nat
deriving DecidableEq, Repr

/-- One die's thermal state (chapter 17): the samples of the last 2 ms, newest first; broken sensors and the run of
deviating samples of each; the level flags. -/
structure DieTh where
  temps : List Int
  history : List (Nat × List Int)
  broken : List Nat
  deviating : Tbl Nat
  conservative : Bool
  warn : Bool
  throttle : Bool
  rise : Bool
  riseClear : Option Nat
  stop : Bool
  trip : Bool
  limit : Option Nat
  lastStep : Nat
  lost : Bool
  coolSince : Option Nat
deriving DecidableEq, Repr

/-- A die never sampled. -/
def DieTh.init : DieTh := ⟨[], [], [], [], false, false, false, false, none, false, false, none, 0, false, none⟩

/-- The thermal manager: the eleven dies, THM_SEL, its wide counts and the time a throttle began. -/
structure Thermal where
  dies : Tbl DieTh
  sel : Nat
  episodes : Nat
  throttledSince : Option Nat
  throttledTime : Nat
  stops : Nat
deriving DecidableEq, Repr

/-- A record of the margin ledger (R434): its time in ns of operation; each column's slowdown (key 33 × half + column); each
laser's bias, output and frequency offset (key 18 × Lantern + laser); each Lantern's heater codes, referred to 50 degrees; the
lanes' median figures of merit since the record before (key 128 × bundle + lane); each wavelength lane's symbol errors in its
last second and its receive power (key 256 × Lantern + 16 × port + wavelength, R361). -/
structure LedgerRecord where
  stamp : Nat
  sentinels : Tbl Nat
  lasers : Tbl (Nat × Int × Int)
  rings : Tbl (Tbl Nat)
  lanes : Tbl (Option Nat)
  errors : Tbl Nat
  powers : Tbl (Option Int)
deriving DecidableEq, Repr

/-- No record. -/
def LedgerRecord.init : LedgerRecord := ⟨0, [], [], [], [], [], []⟩

/-- The margin ledger (R434): 0 absent, 1 valid, 2 commissioning in progress; the time of operation before this power-on; the
records, the commissioning one first; the slowdown recorded last of each column (key 33 × half + column, R47); counts; what the
last plan found; and the baselines of Table 15-14: a laser's output and code with the Lantern's temperature (by `laserKey`), a
ring's code with that temperature (key 1024 × Lantern + ring) and a modulator ring's set point, a lane's receive power and
symbol errors, a shutter's attenuation (key 16 × Lantern + fibre). -/
structure Ledger where
  st : Nat
  before : Nat
  log : List LedgerRecord
  sentinels : Tbl Nat
  hours : Nat
  ringsAtRisk : Tbl Nat
  ceilings : Tbl Nat
  setPoints : Tbl Nat
  outputs : Tbl (Option Int)
  codes : Tbl (Option (Nat × Int))
  laneBase : Tbl (Option (Int × Nat))
  shutters : Tbl Nat
deriving DecidableEq, Repr

/-- The security states with their scope (Table 8-4 codes 0-4). -/
inductive SecState where
  | factory | locked | observe | control | terminated
deriving DecidableEq, Repr

/-- An update session (R291, R470). -/
structure Session where
  slot : Nat
  len : Nat
  received : Nat
  lastUse : Nat
  pldm : Bool
deriving DecidableEq, Repr

/-- Keep and its fuses (chapter 19): Gallery slots' bytes are in `flash`, key slot × 8 MiB + offset. -/
structure Security where
  st : SecState
  production : Bool
  terminated : Bool
  svnMin : Nat
  debugKey : Nat
  challenge : Option (List Byte)
  nonces : Nat
  flash : Tbl Byte
  starts : Tbl Nat
  runSlot : Nat
  nextSlot : Nat
  runSvn : Nat
  rollback : Bool
  keysPresent : Bool
  chainServed : Bool
  session : Option Session
  terminatePending : Bool
  codeLocked : Bool
  touched : List Nat
  commitPending : Bool
deriving DecidableEq, Repr

/-- What the BMC was answered last (R482). -/
inductive BmcAnswer where
  | none
  | done (code : Nat)
  | number (v : Int)
  | list (l : List Nat)
  | event (bytes : List Byte)
deriving DecidableEq, Repr

/-- The management port (R518, R482): endpoint ID, addresses, event read position, last answer, transfer stage. -/
structure Mgmt where
  eid : Byte
  addr : Nat
  dynamic : Option Nat
  silent : Bool
  event : Word
  answer : BmcAnswer
  fdStage : Nat
  components : Nat
deriving DecidableEq, Repr
/-- What a partition keeps of a group (R401-R403, R406; key partition × 256 + group): the bound epoch (0 none), whether
it is spent, the last snapshot's members (device, partition, generation) and own rank, the group-wide operations done,
and the transfers sent to and claimed from each rank and tag (key rank × 2^32 + tag). -/
structure GroupSt where
  bound : Nat
  spent : Bool
  members : List (Nat × Nat × Nat)
  rank : Nat
  wide : Nat
  sent : Tbl Nat
  got : Tbl Nat
deriving DecidableEq, Repr

/-- A group never bound. -/
def GroupSt.init : GroupSt := ⟨0, false, [], 0, 0, [], []⟩

/-- A fabric message (Table 16-1); `bad` lists the byte offsets of its poisoned words. -/
structure FMsg where
  type : Nat
  hops : Nat
  dstDev : Nat
  srcDev : Nat
  dstPart : Nat
  srcPart : Nat
  dstGen : Nat
  srcGen : Nat
  group : Nat
  epoch : Nat
  srcRank : Nat
  tag : Nat
  seq : Nat
  offset : Nat
  payload : List Byte
  bad : List Nat
deriving DecidableEq, Repr

/-- The fabric router (chapter 16): identity, routes, messages held at the router, the holding pool of the exchange
areas, ended roles (device, partition, generation), the seven counts. -/
structure Fabric where
  devId : Option Nat
  routes : Tbl Nat
  routeSel : Nat
  held : List FMsg
  pool : List FMsg
  ended : List (Nat × Nat × Nat)
  groups : Tbl GroupSt
  counts : Tbl Nat
  lastUnroutable : Option Nat
deriving DecidableEq, Repr

/-- A flit not yet sent or held for replay (Table 14-2): sequence, channel, message boundaries, payload, the transmitter's
number of the message it belongs to. -/
structure Flit where
  seq : Nat
  vc : Nat
  first : Bool
  last : Bool
  payload : List Byte
  msg : Nat
deriving DecidableEq, Repr

/-- A message placed on a link: its number, channel, flits still to be sent first, whether one has been, and the fabric
message it carries (none for flits moved from a fenced bundle). -/
structure QEnt where
  no : Nat
  vc : Nat
  flits : List Flit
  started : Bool
  msg : Option FMsg
deriving DecidableEq, Repr

/-- What a link puts on the wire: a flit (with REPLAY), a LINK block by OP (Table 14-3) and its fields, or a WIDTH_SWITCH on
every lane of the old set, given in logical order, in one block period (Table 14-7). -/
inductive Wire where
  | flit (f : Flit) (replay : Bool) (gen : Nat)
  | block (op target a b c : Nat)
  | switch (lanes : List Nat) (target a b c : Nat)
deriving DecidableEq, Repr

/-- A width command in progress (R341-R343). -/
structure WidthCmd where
  cmd : Nat
  action : WidthAction
  lane : Nat
  spare : Nat
  switched : Bool
deriving DecidableEq, Repr

/-- A link's engines (chapter 14): state as LNK_LL_STATUS, transmitter, receiver, width commands, counts. A fabric port's
link holds this device's transmitter and receiver; a bundle's holds both ends of its one direction. `rxDone` are the messages
received whole and not yet taken, by channel; `rxMoved` the beginnings of messages that a fenced sibling had received and whose
rest comes here, by channel (R337); `rxHeld` those that found no room and hold their buffers (R100); `freedAt` when
the first buffer not yet reported was freed, `reportAt` when every FREED was sent last (R327). -/
structure Link where
  st : Nat
  everUp : Bool
  gen : Nat
  farGen : Nat
  hello : Bool
  fresh : Bool
  adopted : Bool
  queue : List QEnt
  nextMsg : Nat
  nextTx : Nat
  unacked : List Flit
  replayAt : Option Nat
  fails : Nat
  afterRetrain : Bool
  turn : Bool
  credits : Tbl Nat
  advert : Tbl Nat
  lastFreed : Tbl Nat
  nextRx : Nat
  nakOut : Option Nat
  toAck : Nat
  taken : Tbl Nat
  freed : Tbl Nat
  reported : Tbl Nat
  rxPart : Tbl (List Byte)
  rxMoved : List (Nat × List Byte)
  rxDone : List (Nat × List Byte)
  rxHeld : List FMsg
  freedAt : Tbl (Option Nat)
  reportAt : Nat
  width : Option WidthCmd
  nextCmd : Nat
  lastCmd : Option Nat
  rxLastCmd : Option Nat
  waitWidth : List WidthCmd
  rxWidth : Option WidthCmd
  rxWait : List WidthCmd
  window : Nat
  inWindow : Nat
  rateLogged : Option Nat
  ctrl : Nat
  counts : Tbl Nat
  wire : List Wire
deriving DecidableEq, Repr

/-- A link as reset leaves it; `ctrl` is the reset value of LNK_LL_CTRL (Table 14-12). -/
def Link.init (ctrl gen : Nat) : Link :=
  { st := 0, everUp := false, gen := gen, farGen := 0, hello := false, fresh := true, adopted := false, queue := [],
    nextMsg := 0, nextTx := 0, unacked := [], replayAt := none, fails := 0, afterRetrain := false, turn := false,
    credits := [], advert := [], lastFreed := [], nextRx := 0, nakOut := none, toAck := 0, taken := [], freed := [],
    reported := [], rxPart := [], rxMoved := [], rxDone := [], rxHeld := [], freedAt := [], reportAt := 0, width := none, nextCmd := 0, lastCmd := none, rxLastCmd := none, waitWidth := [], rxWidth := none,
    rxWait := [], window := 0,
    inWindow := 0, rateLogged := none, ctrl := ctrl, counts := [], wire := [] }

/-- A bundle's lanes and registers (chapter 13): state 0 training, 1 up, 2 fenced. -/
structure Bundle where
  st : Nat
  speed : Nat
  lanes : Tbl Lane
  lastFailed : Option Nat
  txAsleep : Bool
  rxAsleep : Bool
  idleSince : Nat
  ctrl : Nat
  laneSel : Nat
  changes : Nat
  wait : List Nat
  planned : Option Nat
  foms : Tbl (Tbl Nat)
  injected : Bool
deriving DecidableEq, Repr

/-- A bundle as reset leaves it (Tables 13-8 to 13-12). -/
def Bundle.init : Bundle := ⟨0, 0, [], none, false, false, 0, 0x1013, 0, 0, [], none, [], false⟩

/-- A laser: state as LAN_LAMBDA_DATA, warning, wavelength served or tuned to, bias current, output against baseline in
0.01 dB, frequency offset in 0.1 GHz, the ceiling to which R435 has lowered it. -/
structure Laser where
  st : Nat
  warn : Bool
  target : Nat
  bias : Nat
  delta : Int
  freq : Int
  lowered : Option Nat
deriving DecidableEq, Repr

/-- A laser that is off. -/
def Laser.init : Laser := ⟨0, false, 0, 0, 0, 0, none⟩

/-- A swap in progress (Table 15-9): wavelength, spare, whether it runs outside a gap, whether the spare is locked, the
wavelength dropped outside a gap, the spare switched in, the forced threshold reached, and the ports whose ADD has not come. -/
structure Swap where
  wave : Nat
  spare : Nat
  atOnce : Bool
  locked : Bool
  dropped : Bool
  switched : Bool
  forced : Bool
  ports : List Nat
deriving DecidableEq, Repr

/-- A calibration gap in progress: its wavelength and the ports whose ADD has not come. -/
structure Gap where
  wave : Nat
  ports : List Nat
  since : Nat
deriving DecidableEq, Repr

/-- The receiver of a wavelength on a port: its decoder's lock (R357), its descrambler (R297), and the codewords that could not
be corrected in one aligned millisecond (R359, R528). -/
structure WaveRx where
  lock : FecLock
  line : LineState
  window : Nat
  bad : Nat
deriving DecidableEq, Repr

/-- A receiver that has no lock. -/
def WaveRx.init : WaveRx := ⟨FecLock.init, 0, 0, 0⟩

/-- One port of a Lantern: light as LAN_PORT_DATA, wavelengths in use each way (`txOrder` and `rxOrder` in logical order where
that is not the ascending one, R341), the handshake, the far end, drops; the wavelengths that the far end's gap or swap has taken
off (Table 15-8). -/
structure LPort where
  light : Nat
  tx : Nat
  rx : Nat
  txOrder : List Nat
  rxOrder : List Nat
  frames : Nat
  lastFrame : Option Nat
  rampAt : Option Nat
  retryAt : Option Nat
  farSeen : Bool
  farId : Option Nat
  farLantern : Nat
  farPort : Nat
  takenDown : Bool
  txDropped : Tbl (Option Nat)
  rxDropped : Tbl (Option Nat)
  rxGap : List Nat
  corrected : Tbl Nat
  dropLogged : List Nat
  fec : Tbl WaveRx
deriving DecidableEq, Repr

/-- A port as reset leaves it: dark (Table 15-21). -/
def LPort.init : LPort := ⟨2, 0, 0, [], [], 0, none, none, none, false, none, 0, 0, false, [], [], [], [], [], []⟩

/-- A Lantern (chapter 15); `modules` are its UCIe modules in use (R313). -/
structure Lantern where
  modules : List Nat
  fenced : Bool
  stop : Bool
  held : Bool
  resetSince : Option Nat
  resetTimes : List Nat
  lasers : Tbl Laser
  source : Tbl Nat
  swap : Option Swap
  swapQ : List (Nat × Bool)
  gap : Option Gap
  gapLambda : Nat
  gapStart : Option Nat
  nextGap : Nat
  gapAsked : Bool
  gapMode : Nat
  gapPeriod : Nat
  holdUntil : Option Nat
  shell : Nat
  present : Bool
  button : Bool
  drain : Option Nat
  drainDone : Bool
  restoring : Bool
  ports : Tbl LPort
  ctrl : Nat
  lambdaSel : Nat
  portSel : Nat
  rings : Tbl Nat
  counts : Tbl Nat
  serLogged : Tbl (Option Nat)
deriving DecidableEq, Repr

/-- A Lantern as reset leaves it (Tables 15-15 to 15-22, R364). -/
def Lantern.init : Lantern :=
  { modules := List.range 5, fenced := false, stop := false, held := true, resetSince := none, resetTimes := [], lasers := [],
    source := [], swap := none, swapQ := [], gap := none, gapLambda := 0, gapStart := none, nextGap := 0, gapAsked := false, gapMode := 0,
    gapPeriod := 1000, holdUntil := none, shell := 0, present := false, button := false, drain := none,
    drainDone := false, restoring := false, ports := [], ctrl := 0x13, lambdaSel := 0, portSel := 0, rings := [],
    counts := [], serLogged := [] }

/-- The test access port (R318, R319): the instruction selected, the boundary-scan register, whether a test instruction
drives the balls, the register captured last. -/
structure Jtag where
  instr : Nat
  bsr : BitVec 46
  captured : BitVec 46
  testMode : Bool
  path : Bool
deriving DecidableEq, Repr

/-- A BAR2 access held in the Drum until a half returns (R497, R227), at the partition address that HST_BAR2_BASE gave it
(R226): a write's bytes, or none for a read of `len` bytes. -/
structure HeldBar where
  port : Fin 4
  addr : Nat
  len : Nat
  bytes : Option (List Byte)
deriving DecidableEq, Repr

/-- What the register bus answered last: the model's own field, so that a read has a result to look at. -/
structure Bus where
  value : Word
  bytes : List Byte
  unsupported : Bool
  poisoned : Bool
  retry : Bool
deriving DecidableEq, Repr

/-- The whole block. -/
structure State where
  pending : List Instr
  now : Nat
  free : Nat
  bus : Bus
  start : Start
  drm : Drm
  fuses : Fuses
  bel : Belfry
  ports : Tbl Port
  parts : Tbl Part
  qps : Tbl QPair
  gal : Gallery
  hmem : List Host.Cell
  hbad : Tbl Bool
  barHeld : List HeldBar
  mem : Memory
  hbm : Both Hbm
  arr : Both Arr
  slots : Tbl Slot
  eng : Engine
  pwr : Power
  thm : Thermal
  led : Ledger
  sec : Security
  mgmt : Mgmt
  fab : Fabric
  links : Tbl (Option Link)
  bundles : Tbl Bundle
  lans : Tbl Lantern
  jtag : Jtag
deriving DecidableEq, Repr

/-- Why the block stops with a fault. No command of the table does: what the manual calls a fault of the part is a
Belfry message and a next state. The type has the one reason that an address outside the manual's map would give. -/
inductive Fault where
  /-- Raised by nothing in this version: kept so that the type is inhabited. Safe. -/
  | noSuchAddress (dpa : Nat)
deriving DecidableEq, Repr

/-- Why the block refuses a command. -/
inductive Refusal where
  /-- The command has no meaning yet. Raised by `exec` only. Safe. -/
  | notModelled (mnemonic : String)
  /-- FACTORY_COMMAND in the FACTORY state: the manual describes no factory command (R261). Safe. -/
  | factoryProcedure
deriving DecidableEq, Repr

/-- An HBM half as reset leaves it (Tables 6-10 to 6-12). -/
def Hbm.init : Hbm :=
  { use := [], retired := 0, fencedPcs := [], retirePending := [], fencePending := [],
    relocating := [], selfRefresh := false, ctrl := 0x103, temps := [], corrections := [],
    uncorrectables := [], retirements := [], corrected := 0, uncorrectable := 0, addressErrors := 0,
    retirementCount := 0, fcHits := 0, fcMisses := 0, stackCorrected := [], stackLogged := [], atLimit := [], warm := [] }

/-- An array as reset leaves it (Tables 2-9 to 2-14). -/
def Arr.init : Arr :=
  { half := .inService, preparing := false, resetSince := 0, resetCause := 0, failedStarts := 0, cols := [], bound := List.range 32,
    lastFailed := none,
    sent := [], slowSince := [], sentSel := 0, remapEn := true, wavesTotal := 0, wavesLast := 0, wavesRetry := 0,
    target := 0, measured := 0, checks := [], tstCorrected := 0, unsync := false, ownCount := 0, unsyncLogged := [] }

/-- Stored parameters of a blank flash: absent. -/
def Stored.absent : Stored := ⟨false, ⟨[], []⟩, ⟨[], []⟩, [], [], ⟨[], []⟩, ⟨[], []⟩, [], [], [], []⟩

/-- The Drum just out of a power-on reset: a start is in progress (R484, R491) and every register holds its reset
value. What the manual gives no reset value is named in notes/assumptions (row 2). -/
def State.reset : State :=
  { pending := [], now := 0, free := 0,
    bus := ⟨0, [], false, false, false⟩,
    start := {
      phase := .starting, done := false, kind := .cold, cause := 0, paramsValid := false,
      coldRequested := false, failedRun := 0, failedWarm := 0, markSet := false, lastWarm := false,
      singleHalf := false, wasLost := false, startedAt := 0, safe := false, safeNoFetch := false, safeAt := 0,
      flashSteward := none, flashSubsystem := none, stored := Stored.absent },
    drm := { doms := [], kept := [], mbx := [], steward := 0, change := 1, tbPresent := false, tbLost := false, tbSource := false },
    fuses := ⟨[], [], ⟨0, 0⟩, []⟩,
    bel := { log := [], next := 0, waiting := [], notLogged := 0, escalated := 0, fullEpisode := false, sel := 0 },
    ports := [], parts := [], qps := [],
    gal := { turn := 0, nextId := 0, accepted := [], keepQ := [], waiters := [] },
    hmem := [],
    hbad := [],
    barHeld := [],
    mem := { cells := [], poison := [], fpoison := [], upset := [], badLoc := [], fmap := [], fc := [] },
    hbm := ⟨Hbm.init, Hbm.init⟩,
    arr := ⟨Arr.init, Arr.init⟩,
    slots := [],
    eng := { lists := [], reports := [], waiting := [], run := none, hold := false },
    pwr := {
      st := 0, sticky := false, cap := 2400, capLimited := false, capLimitedAt := 0, capLimitedTime := 0,
      capRate := 1600, hbmCapped := false, duty := false, measured := 0, samples := [], energy := 0, lastSample := 0, ctrl := 0xA020,
      railSel := 0, rails := [], volts := ⟨720, 720⟩, riseCap := ⟨none, none⟩, stop := false, coolSince := none,
      quiesced := none, goal := none },
    thm := { dies := [], sel := 0, episodes := 0, throttledSince := none, throttledTime := 0, stops := 0 },
    led := {
      st := 0, before := 0, log := [], sentinels := [], hours := 0, ringsAtRisk := [], ceilings := [], setPoints := [],
      outputs := [], codes := [], laneBase := [], shutters := [] },
    sec := {
      st := .locked, production := true, terminated := false, svnMin := 0, debugKey := 0, challenge := none,
      nonces := 0, flash := [], starts := [], runSlot := 0, nextSlot := 0, runSvn := 0, rollback := false,
      keysPresent := false, chainServed := false, session := none, terminatePending := false,
      codeLocked := false, touched := [], commitPending := false },
    mgmt := {
      eid := 0, addr := 0x67, dynamic := none, silent := true, event := 0, answer := .none, fdStage := 0,
      components := 0 },
    fab := {
      devId := none, routes := [], routeSel := 0, held := [], pool := [], ended := [], groups := [], counts := [],
      lastUnroutable := none },
    links := [], bundles := [], lans := [],
    jtag := { instr := 0x01, bsr := 0, captured := 0, testMode := false, path := false }
  }

end Sys2Proof.Machine
end

