-- ==== Sys2Proof/Machine/Ops.lean ====
section
/-! DEFINITION. The named operations that the commands share: time, the numbered resources, fault messages, Oculus
updates, MSI-X, host memory, replies, device memory with its check code, frames. -/

namespace Sys2Proof.Machine

/-- The value of a half. -/
def Both.get {α : Type} (b : Both α) : Half → α
  | .west => b.west
  | .east => b.east

/-- A half's value replaced. -/
def Both.set {α : Type} (b : Both α) (h : Half) (v : α) : Both α :=
  match h with
  | .west => { b with west := v }
  | .east => { b with east := v }

/-- A half's value changed. -/
def Both.mod {α : Type} (b : Both α) (h : Half) (f : α → α) : Both α := b.set h (f (b.get h))

/-- The other half. -/
def other : Half → Half
  | .west => .east
  | .east => .west

/-- West is 0, East is 1 (Table 8-6). -/
def halfNo : Half → Nat
  | .west => 0
  | .east => 1

/-- The half with a number. -/
def halfOf (n : Nat) : Half := if n = 0 then .west else .east

/-- Time goes on to the event's time base value; it never steps back (R515). -/
def State.atTime (s : State) (t : Nat) : State := { s with now := max s.now t }

/-- A host port. -/
def State.port (s : State) (p : Fin 4) : Port := tget Port.init s.ports p.val
/-- A host port changed. -/
def State.modPort (s : State) (p : Fin 4) (f : Port → Port) : State :=
  { s with ports := tmod Port.init s.ports p.val f }
/-- A partition. -/
def State.part (s : State) (p : Fin 4) : Part := tget Part.init s.parts p.val
/-- A partition changed. -/
def State.modPart (s : State) (p : Fin 4) (f : Part → Part) : State :=
  { s with parts := tmod Part.init s.parts p.val f }
/-- A queue pair of a partition. -/
def State.qp (s : State) (p : Fin 4) (q : Fin 16) : QPair := tget QPair.init s.qps (16 * p.val + q.val)
/-- A queue pair changed. -/
def State.modQp (s : State) (p : Fin 4) (q : Fin 16) (f : QPair → QPair) : State :=
  { s with qps := tmod QPair.init s.qps (16 * p.val + q.val) f }
/-- A sequence slot. -/
def State.slot (s : State) (i : Nat) : Slot := tget Slot.init s.slots i
/-- A sequence slot changed. -/
def State.modSlot (s : State) (i : Nat) (f : Slot → Slot) : State := { s with slots := tmod Slot.init s.slots i f }
/-- A register domain's status. -/
def State.dom (s : State) (d : Nat) : Dom := tget Dom.init s.drm.doms d
/-- A register domain's status changed. -/
def State.modDom (s : State) (d : Nat) (f : Dom → Dom) : State :=
  { s with drm := { s.drm with doms := tmod Dom.init s.drm.doms d f } }
/-- The HBM of a half changed. -/
def State.modHbm (s : State) (h : Half) (f : Hbm → Hbm) : State := { s with hbm := s.hbm.mod h f }
/-- The array of a half changed. -/
def State.modArr (s : State) (h : Half) (f : Arr → Arr) : State := { s with arr := s.arr.mod h f }
/-- A die's thermal state. -/
def State.die (s : State) (d : Nat) : DieTh := tget DieTh.init s.thm.dies d
/-- A die's thermal state changed. -/
def State.modDie (s : State) (d : Nat) (f : DieTh → DieTh) : State :=
  { s with thm := { s.thm with dies := tmod DieTh.init s.thm.dies d f } }
/-- A rail. -/
def State.rail (s : State) (r : Nat) : Rail := tget Rail.init s.pwr.rails r
/-- A rail changed. -/
def State.modRail (s : State) (r : Nat) (f : Rail → Rail) : State :=
  { s with pwr := { s.pwr with rails := tmod Rail.init s.pwr.rails r f } }

/-- The four partitions, which are also the four host ports. -/
def allParts : List (Fin 4) := [0, 1, 2, 3]
/-- The two halves. -/
def allHalves : List Half := [.west, .east]
/-- The sixteen queue pairs. -/
def allQps : List (Fin 16) := List.finRange 16
/-- The 64 slots (R109). -/
def allSlots : List Nat := List.range 64

/-- The next free value of the machine (notes/assumptions, row 3). -/
def State.takeFree (s : State) : Nat × State := (s.free, { s with free := s.free + 1 })

/-- The next generation: 0xFFFF wraps to 0x0001 and 0x0000 is never issued (R110, R228). -/
def nextGen (g : Hword) : Hword := if g = 0xFFFF then 1 else g + 1

/-! ### Fault messages (R439, R448) -/

/-- A die's identity fuses, the dies in the order of the THERMAL records: Spires 0 and 1, the Drum 2, the Lanterns from 3. -/
def State.dieFuses (s : State) (d : Nat) : DieFuses := tget DieFuses.blank s.fuses.dies d

/-- The lanes of a received bundle fused out at assembly, at most four (Table 13-6). -/
def State.fusedLanes (s : State) (b : Nat) : List Nat := (tget [] s.fuses.lanes b).take 4

/-- The half to whose dies a source belongs (Table 18-2); none for the Drum's. -/
def halfOfSource (src : Nat) : Option Half :=
  if 0x022 ≤ src ∧ src < 0x024 then some (halfOf (src % 2))
  else if 0x024 ≤ src ∧ src < 0x02C then some (halfOf ((src - 0x024) / 4))
  else if 0x040 ≤ src ∧ src < 0x046 then some (halfOf (src % 2))
  else if 0x060 ≤ src ∧ src < 0x080 then some (halfOf ((src - 0x060) / 16))
  else if 0x080 ≤ src ∧ src < 0x084 then some .east
  else if 0x084 ≤ src ∧ src < 0x088 then some .west
  else if 0x088 ≤ src ∧ src < 0x08A then some .west
  else if 0x08C ≤ src ∧ src < 0x08E then some .east
  else if 0x0A0 ≤ src ∧ src < 0x0A8 then some (halfOf ((src - 0x0A0) / 4))
  else if src = 0x0B0 ∨ src = 0x0B1 then some (halfOf (src % 2))
  else if 0x0B3 ≤ src ∧ src < 0x0BB then some (halfOf ((src - 0x0B3) / 4))
  else if 0x100 ≤ src ∧ src < 0x180 then some (halfOf ((src - 0x100) / 64))
  else none

/-- The source ID of the die that stamps a source's events: a Lantern, else the half's Spire (Table 18-2). -/
def dieSource (src : Nat) (h : Half) : Nat :=
  if 0x024 ≤ src ∧ src < 0x02C then 0x0A0 + (src - 0x024)
  else if 0x0A0 ≤ src ∧ src < 0x0A8 then src
  else if 0x0B3 ≤ src ∧ src < 0x0BB then 0x0A0 + (src - 0x0B3)
  else 0x040 + halfNo h

/-- The die that stamps a source's events (Table 18-2): a Lantern, a Spire, or the Drum. -/
def stampDie (src : Nat) : Nat := match halfOfSource src with
  | none => 0x001
  | some h => dieSource src h

/-- Place in the window (R448, R449): ascending stamp; among equal stamps ascending source, but what one die reports in the order
in which it reports it (DEDUCED, notes/assumptions, row 104). -/
def insertHeld (h : Held) : List Held → List Held
  | [] => [h]
  | x :: r =>
    let with_ (y : Held) : Bool := y.stamp == h.stamp && stampDie y.msg.src == stampDie h.msg.src
    if x.stamp < h.stamp || (x.stamp == h.stamp && decide (x.msg.src ≤ h.msg.src)) || with_ x || r.any with_ then x :: insertHeld h r
    else h :: x :: r

/-- The count with which an unsynchronised die stamps what happens now (R315); none for a die in step. -/
def State.ownStamp (s : State) (src : Nat) : Option Nat := match halfOfSource src with
  | none => none
  | some h => if (s.arr.get h).unsync then some (s.now + (s.arr.get h).ownCount) else none

/-- A message placed in the Belfry's window, stamped now: its die's stamp, or, for one that is not synchronised, that of its
arrival (R450). -/
def State.issue (s : State) (src : Nat) (cls : FClass) (kind addr : Nat) : State :=
  { s with bel := { s.bel with
      waiting := insertHeld ⟨⟨src, cls, kind, addr⟩, s.now, false, true, s.ownStamp src⟩ s.bel.waiting } }

/-- A message of an unsynchronised die makes the Belfry log TIME_UNSYNC against that die, once per episode (R450). -/
def State.noteUnsync (s : State) (src : Nat) : State :=
  match halfOfSource src with
  | none => s
  | some h =>
    let a := s.arr.get h
    let d := dieSource src h
    if a.unsync && !a.unsyncLogged.contains d then
      (s.modArr h fun x => { x with unsyncLogged := x.unsyncLogged ++ [d] }).issue 0x005 .corrected 1 d
    else s

/-- A unit issues a fault message. -/
def State.report (s : State) (src : Nat) (cls : FClass) (kind addr : Nat) : State :=
  (s.noteUnsync src).issue src cls kind addr

/-! ### MSI-X and the Oculus update count (R197, R223) -/

/-- Host memory is one table, keyed by port and address (R231: no port reaches another's). -/
def hostKey (p : Fin 4) (a : Nat) : Nat := p.val * 2 ^ 64 + a

/-- Bytes written to a host's memory through its port. -/
def State.hostWrite (s : State) (p : Fin 4) (a : Nat) (bs : List Byte) : State :=
  { s with hmem := writeBytes 0 s.hmem (hostKey p a) bs }

/-- Bytes read from a host's memory. -/
def State.hostRead (s : State) (p : Fin 4) (a n : Nat) : List Byte := readBytes 0 s.hmem (hostKey p a) n

/-- An MSI-X vector signalled: its data word goes to its address, or its pending bit is set while it is masked.
D3hot and a partition reset stop interrupts (R223, R235). -/
def State.msi (s : State) (p : Fin 4) (v : Nat) : State :=
  let port := s.port p
  let vec := tget MsixVec.init port.msix v
  if port.d3 || (s.part p).resetting || port.width == 0 then s
  else if vec.masked then s.modPort p fun x => { x with pba := x.pba ||| 2 ^ v }
  else s.hostWrite p vec.addr (leBytes 4 vec.data)

/-- One Oculus update: CHANGE_COUNT advances by two and vector 17 is signalled on every endpoint (R197). -/
def State.oculusUpdate (s : State) : State :=
  allParts.foldl (fun x p => x.msi p 17) { s with drm := { s.drm with change := (s.drm.change + 2) % 2 ^ 32 } }

/-! ### Replies (R242-R245) -/

/-- Ring entries of a queue pair. -/
def QPair.size (q : QPair) : Nat := 2 ^ q.sizeLog2

/-- Replies written and not yet consumed. -/
def QPair.unconsumed (q : QPair) : Nat := (q.cqTail + q.size - q.cqHead) % q.size

/-- ACTIVE (Table 11-7). -/
def QPair.active (q : QPair) : Bool := q.enable || decide (0 < q.outstanding) || decide (0 < q.unconsumed)

/-- Little-endian fields of a packet (Table 11-1). -/
def Acc.opcode (a : Acc) : Nat := le a.pkt 0 2
/-- TAG. -/
def Acc.tag (a : Acc) : Nat := le a.pkt 4 4
/-- SLOT. -/
def Acc.slotField (a : Acc) : Nat := le a.pkt 10 2
/-- GENERATION. -/
def Acc.genField (a : Acc) : Nat := le a.pkt 12 2
/-- EXT_LEN. -/
def Acc.extLen (a : Acc) : Nat := le a.pkt 14 2
/-- `n` little-endian bytes of the packet at an offset. -/
def Acc.par (a : Acc) (off n : Nat) : Nat := le a.pkt off n

/-- The 32 bytes of a reply (Table 11-2). -/
def replyBytes (a : Acc) (q : QPair) (now status d0 d1 d2 : Nat) : List Byte :=
  leBytes 4 a.tag ++ leBytes 2 status ++ [BitVec.ofNat 8 a.qp.val, BitVec.ofNat 8 (b2n q.phase + 2 * b2n a.keep)]
    ++ leBytes 2 q.sqHead ++ leBytes 2 a.opcode ++ leBytes 4 d0 ++ leBytes 4 d1 ++ leBytes 4 d2 ++ leBytes 8 now

/-- A reply written at the CQ tail in one write; the tail advances, PHASE inverts at a wrap, and vector q is signalled
when IRQ_EN is 1 and the host has answered the last signal (R242, R245). No reply is written for a partition whose
reset has begun since it was fetched (R243). -/
def State.reply (s : State) (a : Acc) (status d0 d1 d2 : Nat) : State :=
  if a.dead || (s.part a.part).resetting then s
  else
    let q := s.qp a.part a.qp
    let s := s.hostWrite a.part (q.cqBase + 32 * q.cqTail) (replyBytes a q s.now status d0 d1 d2)
    let wrap := q.cqTail + 1 == q.size
    let s := s.modQp a.part a.qp fun q => { q with
      cqTail := if wrap then 0 else q.cqTail + 1, phase := if wrap then !q.phase else q.phase,
      outstanding := q.outstanding - 1, armed := q.armed && !q.irqEn }
    if q.irqEn && q.armed then s.msi a.part a.qp.val else s

/-- The status codes of Table 11-4. -/
def stOK : Nat := 0x0000
/-- OK_DEGRADED. -/
def stDegraded : Nat := 0x0001
/-- BAD_OPCODE. -/
def stBadOpcode : Nat := 0x0100
/-- BAD_PARAM. -/
def stBadParam : Nat := 0x0101
/-- NOT_PERMITTED. -/
def stNotPermitted : Nat := 0x0102
/-- STALE_ROLE. -/
def stStale : Nat := 0x0103
/-- BUSY. -/
def stBusy : Nat := 0x0104
/-- NO_RESOURCE. -/
def stNoResource : Nat := 0x0105
/-- FAULTED. -/
def stFaulted : Nat := 0x0200
/-- LOST. -/
def stLost : Nat := 0x0201
/-- CANCELLED. -/
def stCancelled : Nat := 0x0202
/-- SECURITY_DENIED. -/
def stDenied : Nat := 0x0300
/-- LOCKED. -/
def stLocked : Nat := 0x0301

/-- A stack's last temperature in 1/16 degrees, 0 before the first sample. -/
def Hbm.temp (h : Hbm) (k : Nat) : Int := (tget none h.temps k).getD 0

/-! ### The address map and the HBM layout (R144-R149) -/

/-- Bytes of a half's HBM data. -/
def halfBytes : Nat := 768 * 2 ^ 30
/-- Frames of a half's HBM range. -/
def halfFrames : Nat := 393216
/-- Frames of a half's allocatable pool: 760 GiB (R145). -/
def poolFrames : Nat := 389120
/-- First frame of the retirement spare pool within a half: after the 3 GiB firmware area (R145). -/
def spareBase : Nat := 390656
/-- Frames of the spare pool (R145). -/
def spareFrames : Nat := 512

/-- First frame of the firmware area within a half: the top 8 GiB begin with it (R145). -/
def firmwareBase : Nat := 389120
/-- First frame of the fence reserve's slot `k`, each of 1 GiB (R145). -/
def reserveBase (k : Nat) : Nat := 391168 + 512 * k
/-- Bytes of a half's tile store (R26, Table 6-1). -/
def tileBytes : Nat := 160 * 2 ^ 20

/-- What a device physical address names (Table 6-1): HBM data of a half, its tile store, or nothing. -/
inductive DpaRange where
  | hbm (h : Half)
  | tile (h : Half)
  | reserved
deriving DecidableEq, Repr

/-- The range of Table 6-1 that an address lies in. -/
def dpaRange (d : Nat) : DpaRange :=
  if d < halfBytes then .hbm .west
  else if d < 2 * halfBytes then .hbm .east
  else if 0x100000000000 ≤ d ∧ d < 0x100000000000 + tileBytes then .tile .west
  else if 0x100040000000 ≤ d ∧ d < 0x100040000000 + tileBytes then .tile .east
  else .reserved

/-- The half of an HBM address. -/
def dpaHalf (d : Nat) : Half := if d < halfBytes then .west else .east

/-- The DPA frame of a half's frame number. -/
def dpaFrame (h : Half) (i : Nat) : Nat := halfNo h * halfFrames + i

/-- Stack of the half, pseudo-channel and row of a half offset (R149). -/
def placeOf (h : Nat) : Nat × Nat × Nat :=
  let line := h >>> 8
  let u := line % 1024
  let v := line >>> 10
  let fold := (v % 1024) ^^^ ((v >>> 10) % 1024) ^^^ (v >>> 20)
  let c := u ^^^ fold
  (c % 16, c / 16 % 64, v / 3)

/-- The half offset of the line of a pseudo-channel with a line index, the inverse of `placeOf` (R149). -/
def lineOffset (pc v : Nat) : Nat :=
  let fold := (v % 1024) ^^^ ((v >>> 10) % 1024) ^^^ (v >>> 20)
  let c := pc / 64 + 16 * (pc % 64)
  (v * 1024 + (c ^^^ fold)) * 256

/-- The half offset, in a fence's place, of a line of its pseudo-channel. -/
def FencePlace.base (x : FencePlace) (pc v : Nat) : Nat :=
  let k := (Config.fenceLine pc v).toNat
  match x with
  | .slot n => reserveBase n * 2 ^ 21 + 256 * k
  | .frames l => l.getD (k / 8192) 0 * 2 ^ 21 + 256 * (k % 8192)

/-- Where the bytes of a half offset are stored once the fences have been made, in their order: where a place lies in a
pseudo-channel fenced later, the access is redirected again (R159). -/
def Hbm.redirect (x : Hbm) (off : Nat) : Nat :=
  x.fencedPcs.foldl (fun o f =>
    let pl := placeOf o
    if 64 * pl.1 + pl.2.1 = f.1 then f.2.base f.1 (o >>> 18) + o % 256 else o) off

/-- The word's location as the check code folds it in: 32 v + (w mod 32) (R152). -/
def locationOf (h : Nat) : Nat := 32 * (h >>> 18) + (h >>> 3) % 32

/-! ### The check code (R152, R153) -/

/-- x^n mod g(x), as 15 bits. -/
def bchPow : Nat → BitVec 15
  | 0 => 1
  | n + 1 => let r := bchPow n; if r.msb then (r <<< 1) ^^^ 0x4599#15 else r <<< 1

/-- The syndrome that an error in one bit of the 107 gives: information bit k stands at x^(15+k), check bit j at x^j. -/
def bitSyndrome (i : Nat) : BitVec 15 := if i < 92 then bchPow (15 + i) else bchPow (i - 92)

/-- The syndromes of the 107 places. -/
def syndromeTable : List (BitVec 15) := (List.range 107).map bitSyndrome

/-- The syndrome of an error pattern. -/
def syndrome (m : BitVec 107) : BitVec 15 :=
  (List.zip (List.range 107) syndromeTable).foldl (fun a p => if m.getLsbD p.1 then a ^^^ p.2 else a) 0

/-- What decoding a word finds (Table 6-5): the pattern to invert, or why there is none. -/
inductive EccOutcome where
  | clean
  | fix (pattern : BitVec 107) (bits : Nat)
  | address
  | bad
deriving DecidableEq, Repr

/-- Whether a place of the 107 is a location position. -/
def isLocBit (i : Nat) : Bool := decide (65 ≤ i) && decide (i < 92)

/-- The pairs of places with a given syndrome. -/
def pairsWith (y : BitVec 15) : List (Nat × Nat) :=
  (List.range 107).flatMap fun i => ((List.range i).filter fun j =>
    syndromeTable.getD i 0 ^^^ syndromeTable.getD j 0 == y).map fun j => (j, i)

/-- Decoding by the syndrome: one or two errors in stored bits are located; an error located in a location position is
an address error; anything else is uncorrectable (R153). -/
def eccDecode (m : BitVec 107) : EccOutcome :=
  let y := syndrome m
  if y = 0 then .clean
  else match (List.range 107).find? fun i => syndromeTable.getD i 0 == y with
    | some i => if isLocBit i then .address else .fix (BitVec.twoPow 107 i) 1
    | none => match pairsWith y with
      | (j, i) :: _ => if isLocBit i || isLocBit j then .address
                       else .fix (BitVec.twoPow 107 i ^^^ BitVec.twoPow 107 j) 2
      | [] => .bad

/-- The stored remainder CHK[14:0] of a data word, its POISON bit and its location (R152). -/
def checkOf (data : BitVec 64) (poison : Bool) (loc : Nat) : BitVec 15 :=
  (List.range 92).foldl (fun a k =>
    if (if k < 64 then data.getLsbD k else if k = 64 then poison else Nat.testBit loc (k - 65)) then a ^^^ bchPow (15 + k)
    else a) 0

/-- The far cache line of a word is invalidated: a write to it completes (R163). -/
def uncache (fc : List Nat) (w : Nat) : List Nat := fc.filter (· ≠ w / 32)

/-- The far cache lines of a DPA frame are invalidated. -/
def uncacheFrame (fc : List Nat) (f : Nat) : List Nat := fc.filter (· / 8192 ≠ f)

/-- Eight data bytes of a word inverted by a pattern's data bits. -/
def flipWord (m : Memory) (w : Nat) (pattern : BitVec 107) : Memory :=
  { m with cells := (List.range 8).foldl (fun c i =>
      tmod 0 c (8 * w + i) fun b => b ^^^ BitVec.setWidth 8 (pattern >>> (8 * i))) m.cells
           poison := if pattern.getLsbD 64 then tmod false m.poison w (!·) else m.poison }

/-- Whether a word's frame was written poisoned whole. -/
def framePoison (m : Memory) (w : Nat) : Bool := tget false m.fpoison (w / 2 ^ 18)

/-- Whether a word's POISON bit is set. -/
def poisoned (m : Memory) (w : Nat) : Bool := tget false m.poison w ^^ framePoison m w

/-- A word poisoned in place: data zero, POISON 1 (R153). -/
def poisonWord (m : Memory) (w : Nat) : Memory :=
  { m with
    cells := tclear m.cells (8 * w) (8 * w + 8), poison := tset false m.poison w (!framePoison m w),
    upset := tset 0 m.upset w 0, fc := uncache m.fc w }

/-- A word's stored bits: its 64 data bits and its check halfword CHK[15:0] (R152), with the bit errors that no read has met. -/
def Memory.storedWord (m : Memory) (w : Nat) : BitVec 64 × BitVec 16 :=
  let e := tget 0 m.upset w
  let data := BitVec.ofNat 64 (le ((List.range 8).map fun i => tget 0 m.cells (8 * w + i)) 0 8)
  let off := 8 * w - halfNo (dpaHalf (8 * w)) * halfBytes
  let rest := checkOf data (poisoned m w) (locationOf off) ^^^ (e >>> 92).setWidth 15
  (data ^^^ e.setWidth 64, BitVec.ofBool (poisoned m w ^^ e.getLsbD 64) ++ rest)

/-- The 1,024 bytes of a DRAM row of a half's pseudo-channel (Table 6-4): three lines of words, their check halfwords, the row
tag, zeros. -/
def Memory.dramRow (m : Memory) (h : Half) (pc row : Nat) : List Byte :=
  let ws := (List.range 96).map fun i =>
    m.storedWord ((halfNo h * halfBytes + lineOffset pc (3 * row + i / 32)) / 8 + i % 32)
  (ws.flatMap fun x => leBytes 8 x.1.toNat) ++ (ws.flatMap fun x => leBytes 2 x.2.toNat) ++
    leBytes 8 (row % 2 ^ 27 + 2 ^ 27 * (pc % 64)) ++ List.replicate 56 0

/-! ### Writing device memory (R155) -/

/-- Bytes of one 64-bit word written from an offset within it: a whole word clears its poison, a part of a poisoned
word changes nothing (R155). -/
def writeInWord (m : Memory) (w off : Nat) (bs : List Byte) : Memory :=
  if bs.length = 8 then
    { m with
      cells := writeBytes 0 m.cells (8 * w) bs, poison := tset false m.poison w (framePoison m w),
      upset := tset 0 m.upset w 0, badLoc := tset false m.badLoc w false, fc := uncache m.fc w }
  else if poisoned m w || tget false m.badLoc w then m
  else { m with cells := writeBytes 0 m.cells (8 * w + off) bs, fc := uncache m.fc w }

/-- Bytes cut at 64-bit word boundaries from an address: (address, piece). -/
def wordPieces : Nat → Nat → List Byte → List (Nat × List Byte)
  | 0, _, _ => []
  | fuel + 1, a, bs =>
    match bs with
    | [] => []
    | _ =>
      let n := 8 - a % 8
      (a, bs.take n) :: wordPieces fuel (a + n) (bs.drop n)

/-- Bytes written at a DPA. -/
def writeDpa (m : Memory) (a : Nat) (bs : List Byte) : Memory :=
  (wordPieces bs.length a bs).foldl (fun m p => writeInWord m (p.1 / 8) (p.1 % 8) p.2) m

/-- A frame's bytes zeroed, its words clean (R167). -/
def zeroFrame (m : Memory) (f : Nat) : Memory :=
  let lo := f * 2 ^ 21
  let hi := lo + 2 ^ 21
  { m with
    cells := tclear m.cells lo hi, poison := tclear m.poison (lo / 8) (hi / 8),
    fpoison := tset false m.fpoison f false, upset := tclear m.upset (lo / 8) (hi / 8),
    badLoc := tclear m.badLoc (lo / 8) (hi / 8), fc := uncacheFrame m.fc f }

/-- A table's entries of a range copied to another range. -/
def copyRange {α : Type} [DecidableEq α] (d : α) (m : Tbl α) (lo hi base : Nat) : Tbl α :=
  (m.filter fun e => decide (lo ≤ e.1) && decide (e.1 < hi)).foldl (fun acc e => tset d acc (e.1 - lo + base) e.2)
    (tclear m base (base + (hi - lo)))

/-- A frame's contents, whose words have been decoded, copied to another frame: poisoned words are copied poisoned, a
word with an address error is poisoned in its new place (R153, R158). -/
def copyFrame (m : Memory) (src dst : Nat) : Memory :=
  let lo := src * 2 ^ 21
  let hi := lo + 2 ^ 21
  let base := dst * 2 ^ 21
  let bad := (m.badLoc.filter fun e => decide (lo / 8 ≤ e.1) && decide (e.1 < hi / 8)).map (·.1)
  let m := { m with
    cells := copyRange 0 m.cells lo hi base, poison := copyRange false m.poison (lo / 8) (hi / 8) (base / 8),
    fpoison := tset false m.fpoison dst (tget false m.fpoison src),
    upset := tclear m.upset (base / 8) (base / 8 + 2 ^ 18),
    badLoc := tclear m.badLoc (base / 8) (base / 8 + 2 ^ 18), fc := uncacheFrame m.fc dst }
  bad.foldl (fun m w => poisonWord m (w - lo / 8 + base / 8)) m

/-! ### Frames (R145, R157, R158) -/

/-- The use of a half's frame. -/
def Hbm.useOf (h : Hbm) (i : Nat) : FrameUse := tget .free h.use i

/-- The lowest free frame of a half's allocatable pool (notes/assumptions, row 8). -/
def Hbm.freeFrame (h : Hbm) : Option Nat := lowestGap poolFrames (h.use.map (·.1)) 0

/-- The lowest free frame of a half's retirement spare pool (R145, R158). -/
def Hbm.freeSpare (h : Hbm) : Option Nat := lowestGap (spareBase + spareFrames) (h.use.map (·.1)) spareBase

/-- Free frames of the spare pool (R170). -/
def Hbm.sparesFree (h : Hbm) : Nat :=
  spareFrames - (h.use.filter fun e => decide (spareBase ≤ e.1) && decide (e.1 < spareBase + spareFrames)).length

/-- The fences made or being made, with their places. -/
def Hbm.fences (h : Hbm) : List (Nat × FencePlace) := h.fencedPcs ++ h.relocating

/-- Free slots of the fence reserve (R145, R169). -/
def Hbm.slotsFree (h : Hbm) : List Nat := (List.range 4).filter fun k => !h.fences.any fun f => f.2 == .slot k

/-- Frames of the pool that are not free. -/
def Hbm.usedCount (h : Hbm) : Nat := (h.use.filter fun e => decide (e.1 < poolFrames)).length

/-- Free frames of the pool. -/
def Hbm.freeCount (h : Hbm) : Nat := poolFrames - h.usedCount

/-- Frames still being zeroed. -/
def Hbm.zeroingCount (h : Hbm) : Nat :=
  (h.use.filter fun e => match e.2 with | .zeroing _ => true | _ => false).length

/-- A frame's use set. -/
def State.setUse (s : State) (h : Half) (i : Nat) (u : FrameUse) : State :=
  s.modHbm h fun x => { x with use := tset .free x.use i u }

/-- The key of a partition's frame in the frame map. -/
def mapKey (p : Fin 4) (f : Nat) : Nat := p.val * 2 ^ 20 + f

/-- The translation of whatever used a frame moved to another frame (R158). -/
def State.moveUse (s : State) (h : Half) (src dst : Nat) : State :=
  let u := (s.hbm.get h).useOf src
  let d := dpaFrame h dst
  let s := { s with mem := copyFrame s.mem (dpaFrame h src) d }
  let s := (s.setUse h dst u).setUse h src .retired
  match u with
  | .mapped p f => { s with mem := { s.mem with fmap := tset none s.mem.fmap (mapKey p f) (some d) } }
  | .kv slot i => s.modSlot slot fun x => { x with frames := x.frames.mod h fun l => l.set i d }
  | _ => s

/-- The source ID of a device stack (Table 18-2). -/
def srcStack (h : Half) (stack : Nat) : Nat := 0x60 + 16 * halfNo h + stack

/-- A frame of a half retired (R158): a free one leaves its pool; one in use is copied to the spare pool, else to a free
frame; with none free it stays in service, pending. The Oculus table shows it before the fault is reported (R15, R197). -/
def State.retireFrame (s : State) (h : Half) (stack i : Nat) : State :=
  let x := s.hbm.get h
  let src := srcStack h stack
  let count (s : State) := (s.modHbm h fun y => { y with
    retired := satTo 65535 (y.retired + 1),
    retirementCount := y.retirementCount + 1,
    retirePending := y.retirePending.filter (· % 2 ^ 20 ≠ i) }).oculusUpdate.report src .corrected 4 (dpaFrame h i)
  match x.useOf i with
  | .retired => s
  | .fence => s
  | .free => count (s.setUse h i .retired)
  | .zeroing _ => count (s.setUse h i .retired)
  | _ =>
    match (match x.freeSpare with
      | some j => some j
      | none => x.freeFrame) with
    | some j => count (s.moveUse h i j)
    | none =>
      if x.retirePending.any fun e => e % 2 ^ 20 == i then s
      else (s.modHbm h fun y => { y with retirePending := y.retirePending ++ [stack * 2 ^ 20 + i] }).report src .contained 5
        (dpaFrame h i)

/-- The lowest 512 free frames of a half's pool taken out of it for a fence, and which they are; none when fewer are free
(R159). -/
def State.takeFenceFrames (s : State) (h : Half) : Option (State × List Nat) :=
  let x := s.hbm.get h
  if x.freeCount < 512 then none
  else
    let l := lowestGaps poolFrames 512 (x.use.map (·.1)) 0
    some (s.modHbm h fun x => { x with use := tinsertAll x.use (l.map fun i => (i, .fence)) }, l)

/-- The copy of a pseudo-channel to its new place begins; the half's record shows what that takes (R159, R197). -/
def State.startFence (s : State) (h : Half) (pc : Nat) (place : FencePlace) : State :=
  (s.modHbm h fun y => { y with
    relocating := y.relocating ++ [(pc, place)], fencePending := y.fencePending.filter (· ≠ pc) }).oculusUpdate

/-- A pseudo-channel of a half fenced (R159): relocation starts into a reserve slot, else into 512 free frames, also while
other copies run; with neither it stays in service, pending. Pseudo-channels are numbered 64 × stack + pseudo-channel within
the half. -/
def State.fencePc (s : State) (h : Half) (pc : Nat) : State :=
  let x := s.hbm.get h
  if x.fences.any (·.1 == pc) then s
  else match x.slotsFree with
    | k :: _ => s.startFence h pc (.slot k)
    | [] => match s.takeFenceFrames h with
      | some r => r.1.startFence h pc (.frames r.2)
      | none =>
        if x.fencePending.contains pc then s
        else (s.modHbm h fun y => { y with fencePending := y.fencePending ++ [pc] }).report (srcStack h (pc / 64))
          .contained 7 ((pc % 64) <<< 34)

/-- 24 hours and 7 days in ns (Table 6-7). -/
def day : Nat := 86400 * 10 ^ 9

/-- Distinct rows of a pseudo-channel among events of the last `span`. -/
def distinctRows (l : List RowEvent) (now span pc : Nat) : Nat :=
  ((l.filter fun e => e.pc == pc && decide (now ≤ e.time + span)).map (·.row)).eraseDups.length

/-- The frames that hold a row: lines 3 row to 3 row + 2, eight lines of a pseudo-channel a frame (R149, R157). -/
def rowFrames (row : Nat) : List Nat := [3 * row / 8, (3 * row + 2) / 8].eraseDups

/-- A row retired: the frames it holds, and the pseudo-channel fenced when Table 6-7 says so. -/
def State.retireRow (s : State) (h : Half) (pc row : Nat) (frames : List Nat) : State :=
  let s := s.modHbm h fun y => { y with retirements := y.retirements ++ [⟨s.now, pc, row, false⟩] }
  let s := frames.foldl (fun s f => s.retireFrame h (pc / 64) f) s
  let x := s.hbm.get h
  if 16 ≤ distinctRows x.retirements s.now (7 * day) pc || 3 ≤ distinctRows x.uncorrectables s.now day pc
  then s.fencePc h pc else s

/-- The ADDRESS of a stack fault (Table 18-3): pseudo-channel, row, word in row, bit. -/
def eccAddr (pc row word bit : Nat) : Nat := ((pc % 64) <<< 34) + (row <<< 14) + (word <<< 7) + bit

/-- The lowest bit of a pattern among the 80 stored bits: 0-63 data, 64-78 CHK, 79 POISON (Table 18-3). -/
def firstBit (p : BitVec 107) : Nat :=
  ((List.range 80).find? fun i => p.getLsbD (if i < 64 then i else if i < 79 then i + 28 else 64)).getD 0

/-- A row of a half that is to be retired: half, pseudo-channel of the half, row, the frames it holds. -/
abbrev RowAt := Half × Nat × Nat × List Nat

/-- One corrected word counted; whether its row is due for retirement (R153, R157, R442). -/
def State.countCorrected (s : State) (h : Half) (stack pc row addr : Nat) (double : Bool) : State × Bool :=
  let s := s.modHbm h fun y => { y with
    corrected := y.corrected + 1,
    stackCorrected := tmod 0 y.stackCorrected stack (· + 1),
    corrections := y.corrections ++ [⟨s.now, pc, row, double⟩] }
  let x := s.hbm.get h
  let recent := x.corrections.filter fun e => e.pc == pc && e.row == row && decide (s.now ≤ e.time + day)
  let due := tget 0 x.stackCorrected stack % 65536 == 0 &&
    (match tget none x.stackLogged stack with | none => true | some t => decide (t + 60 * 10 ^ 9 ≤ s.now))
  let s := if due then (s.modHbm h fun y => { y with stackLogged := tset none y.stackLogged stack (some s.now) }).report
      (srcStack h stack) .corrected 1 addr else s
  (s, decide (2 ≤ (recent.filter (·.double)).length) || decide (16 ≤ (recent.filter (!·.double)).length))

/-- One stored word decoded on a read, and acted on as Table 6-5 gives; its row when that is due for retirement. A word of a
fenced pseudo-channel is stored, and found bad, in its new place (R159); which other lines its row there holds is not stated,
so the row's frame is the word's own (DESIGN CHOICE, notes/assumptions, row 82). -/
def State.decodeWord (s : State) (w : Nat) : State × List RowAt :=
  let d := 8 * w
  let h := dpaHalf d
  let off := d - halfNo h * halfBytes
  let at_ := (s.hbm.get h).redirect off
  let pl := placeOf at_
  let pc := 64 * pl.1 + pl.2.1
  let row := pl.2.2
  let word := 32 * ((at_ >>> 18) % 3) + (at_ >>> 3) % 32
  let due : RowAt := (h, pc, row, if at_ = off then rowFrames row else [off / 2 ^ 21])
  let m := tget 0 s.mem.upset w
  match eccDecode m with
  | .clean => ({ s with mem := { flipWord s.mem w m with upset := tset 0 s.mem.upset w 0 } }, [])
  | .fix p n =>
    let s := { s with mem := { flipWord s.mem w (m ^^^ p) with
      upset := tset 0 s.mem.upset w 0, fc := uncache s.mem.fc w } }
    let r := s.countCorrected h pl.1 pc row (eccAddr pc row word (firstBit p)) (n == 2)
    (r.1, if r.2 then [due] else [])
  | .address =>
    if tget false s.mem.badLoc w then (s, [])
    else
      let s := { s with mem := { s.mem with badLoc := tset false s.mem.badLoc w true } }
      let s := s.modHbm h fun y => { y with addressErrors := y.addressErrors + 1 }
      (s.report (srcStack h pl.1) .contained 3 (eccAddr pc row word 0x7F), [due])
  | .bad =>
    let s := { s with mem := poisonWord s.mem w }
    let s := s.modHbm h fun y => { y with
      uncorrectable := y.uncorrectable + 1,
      uncorrectables := y.uncorrectables ++ [⟨s.now, pc, row, false⟩] }
    (s.report (srcStack h pl.1) .contained 2 (eccAddr pc row word 0x7F), [due])

/-- The words with stored bit errors that answer to a test are decoded; the rows due for retirement. -/
def State.decodeHits (s : State) (hit : Nat → Bool) : State × List RowAt :=
  ((s.mem.upset.filter fun e => hit e.1).map (·.1)).foldl (fun r w =>
    let d := r.1.decodeWord w
    (d.1, r.2 ++ d.2)) (s, [])

/-- Rows due are retired. The copies read what the rows' frames hold, so its words are decoded first (R153, R158), which
may make further rows due; each round decodes words, so the rounds end. -/
def State.retireDue : Nat → State → List RowAt → State
  | 0, s, _ => s
  | n + 1, s, rows =>
    if rows.isEmpty then s
    else
      let frames := rows.flatMap fun x => x.2.2.2.map (dpaFrame x.1)
      let r := s.decodeHits fun w => frames.contains (w / 2 ^ 18)
      (rows.foldl (fun s x => s.retireRow x.1 x.2.1 x.2.2.1 x.2.2.2) r.1).retireDue n r.2

/-- The pseudo-channel of a half that a word is read from. -/
def State.pcOf (s : State) (w : Nat) : Nat :=
  let h := dpaHalf (8 * w)
  let pl := placeOf ((s.hbm.get h).redirect (8 * w - halfNo h * halfBytes))
  64 * pl.1 + pl.2.1

/-- Bit errors that words have picked up before an access; a pseudo-channel whose parity errors persist across the access's
retries is fenced (Table 6-7). -/
def State.strike (s : State) (us : List Upset) : State :=
  (us.filter (·.parity)).foldl (fun s u => s.fencePc (dpaHalf u.addr) (s.pcOf (u.addr / 8)))
    { s with mem := { s.mem with upset := us.foldl (fun t u => tmod 0 t (u.addr / 8) (· ^^^ u.mask)) s.mem.upset } }

/-- Every word with stored bit errors among those an access reads is decoded, and rows that become due are retired. -/
def State.settle (s : State) (hit : Nat → Bool) : State :=
  let r := s.decodeHits hit
  r.1.retireDue (s.mem.upset.length + 1) r.2

/-! ### DRAM rows as stored (R151, R152) -/

/-- The stored data and check bits of a word: what was written, with the errors it has picked up; bits 0-63 data, 64-78
CHK[14:0], 79 POISON. -/
def storedWord (m : Memory) (w loc : Nat) : BitVec 64 × BitVec 16 :=
  let data := BitVec.ofNat 64 (ofLe (readBytes 0 m.cells (8 * w) 8))
  let p := poisoned m w
  let e := tget 0 m.upset w
  let chk := checkOf data p loc ^^^ e.extractLsb' 92 15
  (data ^^^ e.extractLsb' 0 64, BitVec.ofBool (p ^^ e.getLsbD 64) ++ chk)

/-- The 1,024 bytes of a DRAM row of a half's pseudo-channel (Table 6-4): 96 data words, their check bits, the row tag,
reserved bytes. -/
def State.dramRow (s : State) (h : Half) (pc row : Nat) : List Byte :=
  let word (i : Nat) : BitVec 64 × BitVec 16 :=
    let v := 3 * row + i / 32
    let off := lineOffset pc v + 8 * (i % 32)
    storedWord s.mem ((halfNo h * halfBytes + off) / 8) (locationOf off)
  let ws := (List.range 96).map word
  ws.flatMap (fun x => leBytes 8 x.1.toNat) ++ ws.flatMap (fun x => leBytes 2 x.2.toNat) ++
    leBytes 8 (row % 2 ^ 27 + (pc % 64) * 2 ^ 27) ++ List.replicate 56 0

/-! ### The far caches (R161-R164, R171) -/

/-- The far cache of a half is in use: FC_ENABLE of its memory block. -/
def State.farOn (s : State) (h : Half) : Bool := bitOf (s.hbm.get h).ctrl 8

/-- The half in whose far cache a line can be held: the one that is not its home. -/
def farHalf (line : Nat) : Half := other (dpaHalf (256 * line))

/-- Lines of a far cache in the set of a line. -/
def State.farMates (s : State) (line : Nat) : List Nat :=
  if s.mem.fc.length < 16 then []
  else s.mem.fc.filter fun x => decide (farHalf x = farHalf line) && decide (Config.farSet x = Config.farSet line)

/-- A half reads a line that allocates (R162): from its own HBM, from its far cache, or from the line's home, which enters it
in the directory, and is from then on the one used last. A full set gives up one of its sixteen lines: pseudo-least-recently-used
never names the one used last, and which other one it names is not stated, a free value (notes/assumptions, row 83). -/
def State.farLine (s : State) (h : Half) (line : Nat) : State :=
  if farHalf line ≠ h ∨ !s.farOn h then s
  else if s.mem.fc.contains line then
    ({ s with mem := { s.mem with fc := line :: s.mem.fc.filter (· ≠ line) } } : State).modHbm h fun x => { x with fcHits := x.fcHits + 1 }
  else
    let mates := s.farMates line
    let f := s.takeFree
    let s := if mates.length < 16 then s else
      { f.2 with mem := { s.mem with
        fc := s.mem.fc.filter (· ≠ mates.getD (1 + (Config.freeValue f.1).toNat % (mates.length - 1)) 0) } }
    ({ s with mem := { s.mem with fc := line :: s.mem.fc } } : State).modHbm h fun x => { x with fcMisses := x.fcMisses + 1 }

/-- Both far caches are empty (R164). -/
def State.clearFar (s : State) : State := { s with mem := { s.mem with fc := [] } }

/-- A half's far cache is empty while its FC_ENABLE is 0 (Table 6-12). -/
def State.gateFar (s : State) (h : Half) : State :=
  if s.farOn h then s else { s with mem := { s.mem with fc := s.mem.fc.filter fun x => farHalf x != h } }

/-! ### Partition addresses (R146) -/

/-- The DPA of a partition address; none when it is unmapped. -/
def State.dpaOf (s : State) (p : Fin 4) (a : Nat) : Option Nat :=
  if a < 2 ^ 41 then (tget none s.mem.fmap (mapKey p (a / 2 ^ 21))).map fun f => f * 2 ^ 21 + a % 2 ^ 21 else none

/-- Whether every byte of a range is mapped. -/
def State.mappedRange (s : State) (p : Fin 4) (a n : Nat) : Bool :=
  let lo := a / 2 ^ 21
  let hi := (a + n - 1) / 2 ^ 21 + 1
  decide (a + n ≤ 2 ^ 41) && (n == 0 || (tslice s.mem.fmap (mapKey p lo) (mapKey p hi)).length == hi - lo)

/-- One byte of partition memory. -/
def State.partByte (s : State) (p : Fin 4) (a : Nat) : Byte :=
  match s.dpaOf p a with
  | some d => tget 0 s.mem.cells d
  | none => 0

/-- A range cut at frame boundaries: (address, length). -/
def framePieces : Nat → Nat → Nat → List (Nat × Nat)
  | 0, _, _ => []
  | fuel + 1, a, n =>
    if n = 0 then []
    else
      let k := min n (2 ^ 21 - a % 2 ^ 21)
      (a, k) :: framePieces fuel (a + k) (n - k)

/-- Bytes of partition memory, frame by frame; an unmapped byte reads as zero. -/
def State.partRead (s : State) (p : Fin 4) (a n : Nat) : List Byte :=
  (framePieces (n / 2 ^ 21 + 2) a n).flatMap fun x => match s.dpaOf p x.1 with
    | some d => readBytes 0 s.mem.cells d x.2
    | none => List.replicate x.2 0

/-- A word is lost to its reader: poisoned, or with an address error (R153). -/
def State.lostWord (s : State) (w : Nat) : Bool := poisoned s.mem w || tget false s.mem.badLoc w

/-- The byte offsets, by 64-bit words, of the poisoned words of a partition range. -/
def State.partPoison (s : State) (p : Fin 4) (a n : Nat) : List Nat :=
  (List.range ((a % 8 + n + 7) / 8)).filterMap fun i =>
    let x := a / 8 * 8 + 8 * i
    match s.dpaOf p x with
    | some d => if s.lostWord (d / 8) then some (x - a) else none
    | none => none

/-- The words of a partition range decoded as a read decodes them (R153). -/
def State.settlePart (s : State) (p : Fin 4) (a n : Nat) : State :=
  s.settle fun w => (List.range ((a % 8 + n + 7) / 8)).any fun i => s.dpaOf p (a / 8 * 8 + 8 * i) == some (8 * w)

/-- Bytes written to partition memory; unmapped bytes are dropped. -/
def State.partWrite (s : State) (p : Fin 4) (a : Nat) (bs : List Byte) : State :=
  (wordPieces bs.length a bs).foldl (fun s q => match s.dpaOf p q.1 with
    | some d => { s with mem := writeInWord s.mem (d / 8) (d % 8) q.2 }
    | none => s) s

/-! ### KV pages (R116-R118) -/

/-- The DPA of an offset in a slot's KV pages of a half. -/
def State.kvDpa (s : State) (slot : Nat) (h : Half) (off : Nat) : Nat :=
  ((s.slot slot).frames.get h).getD (off / 2 ^ 21) 0 * 2 ^ 21 + off % 2 ^ 21

/-- Bytes of a slot's KV pages. -/
def State.kvRead (s : State) (slot : Nat) (h : Half) (off n : Nat) : List Byte :=
  (framePieces (n / 2 ^ 21 + 2) off n).flatMap fun x => readBytes 0 s.mem.cells (s.kvDpa slot h x.1) x.2

/-- Bytes written to a slot's KV pages. -/
def State.kvWrite (s : State) (slot : Nat) (h : Half) (off : Nat) (bs : List Byte) : State :=
  (wordPieces bs.length off bs).foldl (fun s q =>
    let d := s.kvDpa slot h q.1
    { s with mem := writeInWord s.mem (d / 8) (d % 8) q.2 }) s

/-- Whether any word of a KV range is lost. -/
def State.kvPoison (s : State) (slot : Nat) (h : Half) (off n : Nat) : Bool :=
  (List.range ((off % 8 + n + 7) / 8)).any fun i => s.lostWord (s.kvDpa slot h (off / 8 * 8 + 8 * i) / 8)

/-- A KV range decoded as a read decodes it. -/
def State.settleKv (s : State) (slot : Nat) (h : Half) (off n : Nat) : State :=
  s.settle fun w => (List.range ((off % 8 + n + 7) / 8)).any fun i => s.kvDpa slot h (off / 8 * 8 + 8 * i) == 8 * w

end Sys2Proof.Machine
end

