-- ==== Sys2Proof/Machine/Frames.lean ====
section
/-! DEFINITION. Charges, taking and releasing frames of the allocatable pool, MEM_FREE's wait for earlier runs
(R118, R145, R158, R159, R164-R167). -/

namespace Sys2Proof.Machine

/-- Frames mapped to a partition by MEM_ALLOC. -/
def State.mappedFrames (s : State) (p : Fin 4) : Nat :=
  (s.mem.fmap.filter fun e => decide (e.1 / 2 ^ 20 = p.val)).length

/-- Frames that hold KV pages of a partition's slots. -/
def State.kvFrames (s : State) (p : Fin 4) : Nat :=
  ((allSlots.map s.slot).filter fun x => x.owner == some p).foldl
    (fun n x => n + x.frames.west.length + x.frames.east.length) 0

/-- Descriptors of the lists that a partition has loaded. -/
def State.loadedDescs (s : State) (p : Fin 4) : Nat :=
  ((s.eng.lists.filter fun e => decide (e.1 / 256 = p.val)).map fun e => match e.2 with
    | some l => l.descs.length
    | none => 0).foldl (· + ·) 0

/-- Whole frames, in the two halves, of list copies of 128 bytes per descriptor and half (Table 6-9). -/
def listFrames (descs : Nat) : Nat := 2 * ceilDiv (128 * descs) (2 ^ 21)

/-- A partition's charge in frames (R166). -/
def State.charge (s : State) (p : Fin 4) : Nat := s.mappedFrames p + s.kvFrames p + listFrames (s.loadedDescs p)

/-- Frames of a half that are free, or will be once zeroed. -/
def Hbm.soonFree (h : Hbm) : Nat :=
  poolFrames - (h.use.filter fun e => decide (e.1 < poolFrames) && (match e.2 with | .zeroing _ => false | _ => true)).length

/-- Whether a partition may take frames of each half on the terms of R165; frames being zeroed count. -/
def State.mayTake (s : State) (p : Fin 4) (west east : Nat) : Bool :=
  let n := west + east
  let x := s.part p
  let after := s.charge p + n
  let free := s.hbm.west.soonFree + s.hbm.east.soonFree
  let claimed := ((allParts.filter (· ≠ p)).map fun q => (s.part q).guarantee - s.charge q).foldl (· + ·) 0
  decide (after ≤ x.limit) && decide (west ≤ s.hbm.west.soonFree) && decide (east ≤ s.hbm.east.soonFree) &&
    (decide (after ≤ x.guarantee) || decide (n + claimed ≤ free))

/-- Whether the frames are free now, without waiting for zeroing. -/
def State.freeNow (s : State) (west east : Nat) : Bool :=
  decide (west ≤ s.hbm.west.freeCount) && decide (east ≤ s.hbm.east.freeCount)

/-- The lowest free frames of a half's pool taken, zeroed, for uses in order; their DPA frames (notes/assumptions, row 8). -/
def State.takeFrames (s : State) (h : Half) (us : List FrameUse) : State × List Nat :=
  let x := s.hbm.get h
  let l := lowestGaps poolFrames us.length (x.use.map (·.1)) 0
  let d := l.map (dpaFrame h)
  (({ s with mem := d.foldl zeroFrame s.mem } : State).modHbm h fun x => { x with use := tinsertAll x.use (l.zip us) }, d)

/-- A DPA frame's half and its number in the half. -/
def frameHome (d : Nat) : Half × Nat := if d < halfFrames then (.west, d) else (.east, d - halfFrames)

/-- Frames of both halves whose use answers to a test released: each is zeroed before it is free (R167). -/
def State.releaseUses (s : State) (p : Fin 4) (f : FrameUse → Bool) : State :=
  let go (x : Hbm) : Hbm := { x with use := x.use.map fun e => if f e.2 then (e.1, .zeroing p) else e }
  { s with hbm := ⟨go s.hbm.west, go s.hbm.east⟩ }

/-- A half's share of a partition's frames from `f` mapped to fresh frames; `homes` names the half of each. -/
def State.mapShare (s : State) (p : Fin 4) (f : Nat) (homes : List Half) (h : Half) : State :=
  let fs := (homes.zip (List.range homes.length)).filterMap fun x => if x.1 = h then some (f + x.2) else none
  let r := s.takeFrames h (fs.map fun g => .mapped p g)
  { r.1 with mem := { r.1.mem with fmap := tinsertAll r.1.mem.fmap ((fs.map (mapKey p)).zip (r.2.map some)) } }

/-- A partition's frames from `f` mapped to fresh frames of the halves named. -/
def State.mapFrames (s : State) (p : Fin 4) (f : Nat) (homes : List Half) : State :=
  (s.mapShare p f homes .west).mapShare p f homes .east

/-- A use that maps a partition's frame within a range. -/
def FrameUse.maps (u : FrameUse) (p : Fin 4) (f n : Nat) : Bool := match u with
  | .mapped q g => q == p && decide (f ≤ g) && decide (g < f + n)
  | _ => false

/-- A partition's frames of a range unmapped and released. -/
def State.unmapFrames (s : State) (p : Fin 4) (f n : Nat) : State :=
  let r := s.releaseUses p fun u => u.maps p f n
  { r with mem := { r.mem with fmap := tclear r.mem.fmap (mapKey p f) (mapKey p f + n) } }

/-- `n` fresh frames of a half for a slot's KV pages. -/
def State.takeKv (s : State) (slot : Nat) (h : Half) (n : Nat) : State :=
  let r := s.takeFrames h ((List.range n).map fun i => .kv slot i)
  r.1.modSlot slot fun x => { x with frames := x.frames.set h r.2 }

/-- A slot's KV frames released. -/
def State.releaseKv (s : State) (p : Fin 4) (slot : Nat) : State :=
  (s.releaseUses p fun u => match u with
    | .kv i _ => i == slot
    | _ => false).modSlot slot fun x => { x with frames := ⟨[], []⟩ }

/-- Whether a frame is being zeroed. -/
def FrameUse.zeroes : FrameUse → Bool
  | .zeroing _ => true
  | _ => false

/-- All frames of a half being zeroed are zeroed and free (R167). -/
def State.zeroDone (s : State) (h : Half) : State :=
  let l := ((s.hbm.get h).use.filter fun e => e.2.zeroes).map fun e => dpaFrame h e.1
  ({ s with mem := l.foldl zeroFrame s.mem } : State).modHbm h fun x => { x with use := x.use.filter fun e => !e.2.zeroes }

/-- A waiter taken out by its command's number. -/
def State.dropWaiter (s : State) (id : Nat) : State :=
  { s with gal := { s.gal with waiters := s.gal.waiters.filter fun w => w.acc.id ≠ id } }

/-- An accepted command's wait begins. -/
def State.wait (s : State) (a : Acc) (k : WaitKind) : State :=
  { s with gal := { s.gal with waiters := s.gal.waiters ++ [⟨a, k⟩] } }

/-- Numbers of the commands whose runs are still to complete: accepted, waiting and running OPLIST_RUNs and steps. -/
def State.activeRuns (s : State) (p : Fin 4) : List Nat :=
  (s.eng.waiting.map (·.acc)).filterMap (fun a => if a.part = p then some a.id else none) ++
    (match s.eng.run with
     | none => []
     | some r => if r.part = p then ((r.acc.map (·.id)).toList ++ r.members.map (·.req.acc.id)) else []) ++
    (allSlots.flatMap fun i => ((s.slot i).steps.filter fun q => q.acc.part = p).map (·.acc.id)) ++
    ((s.gal.accepted.filter fun b => b.part == p && (b.opcode == 0x0310 || b.opcode == 0x0402)).map (·.id))

/-- Whether the halves that a command needs are there (R497): `none` when all are in service, `some true` when one is lost,
`some false` when one is under reset. -/
def State.halvesMissing (s : State) (need : List Half) : Option Bool :=
  if need.any fun h => decide ((s.arr.get h).half = .lost) then some true
  else if need.any fun h => decide ((s.arr.get h).half ≠ .inService) then some false else none

/-- The halves that hold a partition range's mapped frames. -/
def State.homesOf (s : State) (p : Fin 4) (a n : Nat) : List Half :=
  if n = 0 then [] else
  ((tslice s.mem.fmap (mapKey p (a / 2 ^ 21)) (mapKey p ((a + n - 1) / 2 ^ 21) + 1)).filterMap fun e =>
    e.2.map fun d => (frameHome d).1).eraseDups

/-- MEM_FREE's effect: the range unmapped, its frames to be zeroed, the reply written (R167, R265). A range that another
command has unmapped meanwhile is refused; a half under reset is waited for, a lost one ends the command (R497). -/
def State.freeRange (s : State) (a : Acc) : State :=
  let f := a.par 16 8 / 2 ^ 21
  let n := a.par 24 8 / 2 ^ 21
  if !s.mappedRange a.part (a.par 16 8) (a.par 24 8) then s.reply a stBadParam 0 0 0
  else match s.halvesMissing (s.homesOf a.part (a.par 16 8) (a.par 24 8)) with
    | some true => s.reply a stFaulted 0 0 0
    | some false => s.wait a .memHalf
    | none => (s.unmapFrames a.part f n).reply a stOK n 0 0

/-- Every MEM_FREE whose earlier runs have completed takes effect, in order of acceptance (R167). -/
def State.settleFrees (s : State) : State :=
  s.gal.waiters.foldl (fun s w => match w.kind with
    | .memFree ids =>
      let act := s.activeRuns w.acc.part
      if ids.any fun i => act.contains i then s else (s.dropWaiter w.acc.id).freeRange w.acc
    | _ => s) s

end Sys2Proof.Machine
end

