-- ==== Sys2Proof/Machine/Oplist.lean ====
section
/-! DEFINITION. Descriptors and the static checks of OPLIST_LOAD (R83-R107, R526). -/

namespace Sys2Proof.Machine

/-- Bytes of a descriptor. -/
def descBytes : Nat := 128

/-- A descriptor's fields read from its 128 bytes (Table 4-1). -/
def parseDesc (b : List Byte) : Desc :=
  let f := le b 4 2
  { kind := le b 1 1, mode := le b 2 1, flags := le b 3 1,
    fmtA := bitsOf f 3 0, fmtB := bitsOf f 7 4, fmtC := bitsOf f 11 8, fmtD := bitsOf f 15 12,
    epi := le b 6 1, outScale := signedOf 8 (le b 7 1), m := le b 8 4, n := le b 12 4, k := le b 16 4,
    group := le b 20 2, loopAdv := le b 22 1, a := le b 24 8, as := le b 32 8, b := le b 40 8, bs := le b 48 8,
    c := le b 56 8, d := le b 64 8, ds := le b 72 8, x := le b 80 8,
    p := (List.range 6).map (fun i => le b (88 + 4 * i) 4), tag := le b 120 4 }

/-- Kind codes (Table 4-3). -/
def kMatmul : Nat := 0x01
/-- ATTEND. -/
def kAttend : Nat := 0x02
/-- NORM. -/
def kNorm : Nat := 0x03
/-- ACT. -/
def kAct : Nat := 0x04
/-- ROPE. -/
def kRope : Nat := 0x05
/-- SAMPLE. -/
def kSample : Nat := 0x06
/-- DRAFT. -/
def kDraft : Nat := 0x07
/-- VERIFY. -/
def kVerify : Nat := 0x08
/-- GATHER. -/
def kGather : Nat := 0x09
/-- SCATTER. -/
def kScatter : Nat := 0x0A
/-- COPY. -/
def kCopy : Nat := 0x0B
/-- XSEND. -/
def kXsend : Nat := 0x0C
/-- XRECV. -/
def kXrecv : Nat := 0x0D
/-- XREDUCE. -/
def kXreduce : Nat := 0x0E
/-- EXACT_REDUCE. -/
def kExactReduce : Nat := 0x0F
/-- DIGEST_MARK. -/
def kMark : Nat := 0x10
/-- FENCE. -/
def kFence : Nat := 0x11
/-- LOOP. -/
def kLoop : Nat := 0x12

/-- FLAGS EXACT (Table 4-2). -/
def Desc.exact (d : Desc) : Bool := bitOf d.flags 0
/-- FLAGS SAT. -/
def Desc.sat (d : Desc) : Bool := bitOf d.flags 1
/-- FLAGS RMODE. -/
def Desc.rmode (d : Desc) : Nat := bitsOf d.flags 3 2
/-- FLAGS PARTIAL_OUT. -/
def Desc.partialOut (d : Desc) : Bool := bitOf d.flags 4
/-- FLAGS DRAFTER. -/
def Desc.drafter (d : Desc) : Bool := bitOf d.flags 5
/-- EPILOGUE BIAS_EN. -/
def Desc.biasEn (d : Desc) : Bool := bitOf d.epi 0
/-- EPILOGUE RESID_EN. -/
def Desc.residEn (d : Desc) : Bool := bitOf d.epi 1
/-- EPILOGUE ACT_MODE. -/
def Desc.actMode (d : Desc) : Nat := bitsOf d.epi 3 2
/-- Parameter P`i`. -/
def Desc.par (d : Desc) (i : Nat) : Nat := d.p.getD i 0

/-- Columns of a MATMUL's or EXACT_REDUCE's result: halved in gated mode (R88). -/
def Desc.outCols (d : Desc) : Nat := if d.actMode == 2 then d.n / 2 else d.n

/-- The activation table's address: P0-P1 of MATMUL, P1-P2 of EXACT_REDUCE, ADDR_X of ACT. -/
def Desc.actTable (d : Desc) : Nat :=
  if d.kind == kExactReduce then d.par 1 + 2 ^ 32 * d.par 2
  else if d.kind == kAct then d.x
  else d.par 0 + 2 ^ 32 * d.par 1

/-- The mark of a kind and mode (Table 4-3): 0 none, 1 D, 2 E, 3 V. -/
def Desc.mark (d : Desc) : Nat :=
  if d.kind == kFence || d.kind == kLoop then 0
  else if d.kind == kMatmul then (if d.exact then 2 else 1)
  else if d.kind == kExactReduce then 2
  else if (d.kind == kScatter && d.mode == 1) || (d.kind == kXreduce && d.mode == 2) then 3
  else 1

/-- Whether a pair of formats is a conversion of Table 3-6, or the same format on both sides (R77). -/
def convertible (a d : Nat) : Bool :=
  (a == d && decide (1 ≤ a) && decide (a ≤ 8))
    || (d == 7 && decide (1 ≤ a) && decide (a ≤ 6))
    || (d == 6 && (decide (1 ≤ a) && decide (a ≤ 5) || a == 7))
    || ((d == 4 || d == 5) && (a == 6 || a == 7))
    || (isBlockFmt d && decide (4 ≤ a) && decide (a ≤ 7))
    || (a == 1 && (d == 2 || d == 3))

/-- Which of the eight address fields a descriptor uses, by LOOP_ADV bit: A, AS, B, BS, C, D, DS, X (Table 4-4). -/
def Desc.uses (d : Desc) : List Bool :=
  let blkA := isBlockFmt d.fmtA
  let blkB := isBlockFmt d.fmtB
  let blkD := isBlockFmt d.fmtD
  if d.kind == kMatmul then [true, blkA, true, blkB, d.residEn, true, blkD, d.biasEn]
  else if d.kind == kAttend then [true, false, false, false, false, true, blkD, false]
  else if d.kind == kNorm || d.kind == kAct then [true, false, false, false, false, true, blkD, true]
  else if d.kind == kRope then [true, false, false, false, false, true, false, true]
  else if d.kind == kSample || d.kind == kDraft then [true, false, false, false, false, true, false, false]
  else if d.kind == kVerify || d.kind == kXsend then [true, false, false, false, false, false, false, false]
  else if d.kind == kGather || d.kind == kScatter then [true, blkA, true, false, false, true, blkD, false]
  else if d.kind == kCopy then [true, blkA, false, false, false, true, blkD, false]
  else if d.kind == kXrecv || d.kind == kMark then [false, false, false, false, false, true, false, false]
  else if d.kind == kXreduce then [true, false, false, false, false, true, false, false]
  else if d.kind == kExactReduce then [true, false, false, false, d.residEn, true, blkD, d.biasEn]
  else if d.kind == kFence then [false, false, false, false, false, false, false, d.mode == 1]
  else [false, false, false, false, false, false, false, false]

/-- The eight address fields in LOOP_ADV order. -/
def Desc.addrs (d : Desc) : List Nat := [d.a, d.as, d.b, d.bs, d.c, d.d, d.ds, d.x]

/-- A format code within a range. -/
def fmtIn (f lo hi : Nat) : Bool := decide (lo ≤ f) && decide (f ≤ hi)

/-- A finite positive FP32 code. -/
def posFinite (c : Nat) : Bool :=
  match decodeF layFP32 c with
  | .fin false m _ => decide (0 < m)
  | _ => false

/-- MODE and formats permitted for the kind (Table 4-4). -/
def Desc.formatsOk (d : Desc) : Bool :=
  let noC := d.fmtC == 0
  let resid := if d.residEn then d.fmtC == 6 || d.fmtC == 7 else noC
  let no (a b c e : Bool) := (!a || d.fmtA == 0) && (!b || d.fmtB == 0) && (!c || noC) && (!e || d.fmtD == 0)
  if d.kind == kMatmul then d.mode == 0 && fmtIn d.fmtA 1 6 && fmtIn d.fmtB 1 6 && resid &&
    (if d.partialOut then d.fmtD == 0 else fmtIn d.fmtD 1 7)
  else if d.kind == kAttend then d.mode == 0 && fmtIn d.fmtA 6 7 && fmtIn d.fmtB 1 3 && noC && fmtIn d.fmtD 1 7
  else if d.kind == kNorm then decide (d.mode ≤ 1) && fmtIn d.fmtA 6 7 && fmtIn d.fmtD 1 7 && no false true true false
  else if d.kind == kAct then d.mode == 0 && fmtIn d.fmtA 4 7 && fmtIn d.fmtD 1 7 && no false true true false
  else if d.kind == kRope then d.mode == 0 && fmtIn d.fmtA 6 7 && fmtIn d.fmtD 6 7 && no false true true false
  else if d.kind == kSample then d.mode == 0 && d.fmtA == 7 && d.fmtD == 8 && no false true true false
  else if d.kind == kDraft then decide (d.mode ≤ 1) && d.fmtA == 7 && d.fmtD == 8 && no false true true false
  else if d.kind == kVerify then d.mode == 0 && d.fmtA == 8 && no false true true true
  else if d.kind == kGather then d.mode == 0 && fmtIn d.fmtA 1 8 && convertible d.fmtA d.fmtD && no false true true false
  else if d.kind == kScatter then decide (d.mode ≤ 1) && fmtIn d.fmtA 1 8 && d.fmtD == d.fmtA &&
    (d.mode == 0 || d.fmtA == 7) && no false true true false
  else if d.kind == kCopy then
    (d.mode == 0 && no true true true true) ||
      (d.mode == 1 && fmtIn d.fmtA 1 7 && convertible d.fmtA d.fmtD && no false true true false)
  else if d.kind == kXreduce then decide (d.mode ≤ 3) && fmtIn d.fmtA 6 7 && fmtIn d.fmtD 6 7 && no false true true false
  else if d.kind == kExactReduce then d.mode == 0 && fmtIn d.fmtD 1 7 && resid && d.fmtA == 0 && d.fmtB == 0
  else if d.kind == kFence then decide (d.mode ≤ 2) && no true true true true
  else d.mode == 0 && no true true true true

/-- M, N and K used or zero, and within Table 4-5 (R526, R106). -/
def Desc.sizesOk (d : Desc) : Bool :=
  let mUsed := !(d.kind == kXsend || d.kind == kXrecv || d.kind == kMark || d.kind == kFence || d.kind == kLoop)
  let nElems := d.kind == kMatmul || d.kind == kNorm || d.kind == kAct || d.kind == kRope || d.kind == kSample ||
    d.kind == kDraft || d.kind == kGather || d.kind == kScatter || (d.kind == kCopy && d.mode == 1) ||
    d.kind == kXreduce || d.kind == kExactReduce
  let nBytes := d.kind == kXsend || d.kind == kXrecv || (d.kind == kCopy && d.mode == 0)
  (if mUsed then decide (d.m ≤ 65536) else d.m == 0) &&
  (if nElems then decide (1 ≤ d.n) && decide (d.n ≤ 262144) else if nBytes then decide (1 ≤ d.n) else d.n == 0) &&
  (if d.kind == kMatmul then decide (1 ≤ d.k) && decide (d.k ≤ 1048576) else d.k == 0) &&
  -- innermost lengths of block-scaled operands (R60)
  (if d.kind == kMatmul then !(isBlockFmt d.fmtA || isBlockFmt d.fmtB) || d.k % 32 == 0 else true) &&
  (!(isBlockFmt d.fmtD && nElems) || d.outCols % 32 == 0) &&
  (!(isBlockFmt d.fmtA && nElems && d.kind != kMatmul) || d.n % 32 == 0)

/-- Kind-specific parameters, GROUP, EPILOGUE and OUT_SCALE (R86-R97, R101-R104). GROUP belongs to an exact MATMUL whether
or not it writes partial records (R90, R403), and the parameters that hold an activation table's address are zero where
ACT_MODE is 0, since the descriptor does not then use them (R86; DESIGN CHOICE, notes/assumptions, row 74). FLAGS SAT and RMODE are taken with any value on every kind, and P0 of a mode 0
FENCE must be zero (both DESIGN CHOICE, notes/assumptions, row 74). -/
def Desc.paramsOk (d : Desc) : Bool :=
  let z (i : Nat) := d.par i == 0
  let epiKind := (d.kind == kMatmul && !d.partialOut) || d.kind == kExactReduce
  let act := d.actMode != 0
  (if epiKind then d.actMode != 3 && bitsOf d.epi 7 4 == 0 && d.outScale != -128 && (d.actMode != 2 || d.n % 128 == 0)
   else d.epi == 0 && d.outScale == 0) &&
  (if d.kind == kExactReduce then d.exact else d.kind == kMatmul || !d.exact) &&
  (!d.partialOut || (d.kind == kMatmul && d.exact)) &&
  (if d.kind == kMatmul then
     (if act then d.actTable % 64 == 0 else z 0 && z 1) && z 2 && z 3 && z 4 && z 5 &&
       (d.group == 0 || d.exact)
   else if d.kind == kAttend then
     let nqh := d.par 0
     let nkv := d.par 1
     decide (1 ≤ nqh) && decide (nqh ≤ 256) && decide (1 ≤ nkv) && nqh % nkv == 0 &&
       (d.par 2 == 64 || d.par 2 == 128 || d.par 2 == 256) && z 5 && d.group == 0
   else if d.kind == kNorm then posFinite (d.par 0) && z 1 && z 2 && z 3 && z 4 && z 5 && d.group == 0
   else if d.kind == kRope then
     let hd := d.par 0
     let rd := d.par 1
     hd % 2 == 0 && decide (2 ≤ hd) && rd % 2 == 0 && decide (2 ≤ rd) && decide (rd ≤ hd) && decide (1 ≤ d.par 2) &&
       decide (d.par 2 * hd ≤ d.n) && decide (1 ≤ d.par 3) && z 4 && z 5 && d.group == 0
   else if d.kind == kGather || d.kind == kScatter then z 1 && z 2 && z 3 && z 4 && z 5 && d.group == 0
   else if d.kind == kXsend || d.kind == kXrecv then z 2 && z 3 && z 4 && z 5 && d.group != 0
   else if d.kind == kXreduce then z 0 && z 1 && z 2 && z 3 && z 4 && z 5 && d.group != 0
   else if d.kind == kExactReduce then
     (if d.group == 0 then decide (2 ≤ d.par 0) && decide (d.par 0 ≤ 16) else z 0) &&
       (if act then d.actTable % 64 == 0 else z 1 && z 2) && z 3 && z 4 && z 5
   else if d.kind == kMark then z 1 && z 2 && z 3 && z 4 && z 5 && d.group == 0
   else if d.kind == kFence then (d.mode != 0 || z 0) && z 2 && z 3 && z 4 && z 5 &&
     (if d.mode == 2 then d.group != 0 else d.group == 0)
   else if d.kind == kLoop then decide (1 ≤ d.par 0) && decide (d.par 0 ≤ 65535) && decide (1 ≤ d.par 1) &&
     decide (d.par 1 ≤ 4095) && z 4 && z 5 && d.group == 0
   else z 0 && z 1 && z 2 && z 3 && z 4 && z 5 && d.group == 0)

/-- Address fields: used ones are multiples of 64, unused ones zero (R84, R86). -/
def Desc.addrsOk (d : Desc) : Bool :=
  (List.zip d.uses d.addrs).all fun p => if p.1 then p.2 % 64 == 0 else p.2 == 0

/-- The bytes of one descriptor alone (R107): version, kind, check, reserved bits, fields. -/
def descOk (b : List Byte) : Bool :=
  let d := parseDesc b
  le b 0 1 == 1 && decide (1 ≤ d.kind) && decide (d.kind ≤ 0x12) && bitsOf d.flags 7 6 == 0 && le b 23 1 == 0 &&
    le b 112 8 == 0 && le b 124 4 == (crc32c (slice b 0 124)).toNat &&
    d.formatsOk && d.sizesOk && d.paramsOk && d.addrsOk

/-- The place of the LOOP whose body holds place `i`, if any. -/
def loopOver (ds : List Desc) (i : Nat) : Option Nat :=
  (List.range i).find? fun j => match ds[j]? with
    | some l => l.kind == kLoop && decide (i ≤ j + l.par 1)
    | none => false

/-- Kinds that the drafter section may not hold (R98). -/
def bannedInDrafter (k : Nat) : Bool :=
  k == kVerify || k == kSample || k == kXsend || k == kXrecv || k == kXreduce || k == kExactReduce || k == kMark ||
    k == kFence || k == kLoop

/-- Operations executed by the descriptors before place `i`, iterations counted (Table 4-5). -/
def opsBefore (ds : List Desc) (i : Nat) : Nat :=
  ((List.range i).map fun j => match ds[j]? with
    | none => 0
    | some d => if d.kind == kLoop then 0 else match loopOver ds j with
      | some l => ((ds[l]?).map (·.par 0)).getD 1
      | none => 1).foldl (· + ·) 0

/-- The rules of a whole list, as they fall on place `i` (R98, R104, R106). -/
def placeOk (ds : List Desc) (i : Nat) : Bool :=
  match ds[i]? with
  | none => false
  | some d =>
    let before := ds.take i
    let inBody := (loopOver ds i).isSome
    (d.kind != kVerify || !before.any (·.kind == kVerify)) &&
    (d.drafter || !before.any (·.drafter)) &&
    (d.kind != kDraft || d.drafter) &&
    (!d.drafter || (!bannedInDrafter d.kind && !inBody)) &&
    (!(d.drafter && !before.any (·.drafter)) || (ds.drop i).any (·.kind == kDraft)) &&
    (d.kind != kLoop || (decide (i + d.par 1 < ds.length) && !inBody)) &&
    (d.loopAdv == 0 || (inBody && (List.zip (List.range 8) d.uses).all fun p => !bitOf d.loopAdv p.1 || p.2)) &&
    decide ((((before ++ [d]).map (·.group)).filter (· ≠ 0)).eraseDups.length ≤ 16) &&
    decide (opsBefore ds (i + 1) ≤ 16777216)

/-- The index of the first descriptor that OPLIST_LOAD refuses (R107). -/
def firstBad (raw : List (List Byte)) : Option Nat :=
  let ds := raw.map parseDesc
  (List.range raw.length).find? fun i => !(descOk (raw.getD i []) && placeOk ds i)

/-- The list holds a VERIFY; a SAMPLE (R119). -/
def OpList.has (l : OpList) (k : Nat) : Bool := l.descs.any (·.kind == k)

/-- Kinds that take slots and positions from the row map, or M = 0 of a kind that uses M (R82). -/
def Desc.needsRows (d : Desc) : Bool :=
  d.kind == kRope || d.kind == kAttend || d.kind == kSample || d.kind == kDraft || d.kind == kVerify ||
    (d.m == 0 && !(d.kind == kXsend || d.kind == kXrecv || d.kind == kMark || d.kind == kFence || d.kind == kLoop))

/-- Length of the target section: the descriptors before the drafter section (R98). -/
def OpList.targetLen (l : OpList) : Nat := (l.descs.takeWhile fun d => !d.drafter).length

/-- A loop advances the address fields its body descriptor names, ATTEND's LAYER, DIGEST_MARK's number and place (R104). An
address that falls below zero lies outside every partition, as the first one past 64 bits does. A stride that is no multiple of 64
gives addresses that are not aligned, which nothing refuses (DESIGN CHOICE, notes/assumptions, row 100). -/
def Desc.advance (d : Desc) (i : Nat) (stride : Int) : Desc :=
  let adv (bit v : Nat) : Nat :=
    if bitOf d.loopAdv bit then (let x := (v : Int) + i * stride; if 0 ≤ x then x.toNat else 2 ^ 64) else v
  { d with
    a := adv 0 d.a, as := adv 1 d.as, b := adv 2 d.b, bs := adv 3 d.bs, c := adv 4 d.c,
    d := adv 5 d.d + (if d.kind == kMark then 32 * i else 0), ds := adv 6 d.ds, x := adv 7 d.x,
    p := if d.kind == kAttend then d.p.set 3 (d.par 3 + i) else if d.kind == kMark then d.p.set 0 (d.par 0 + i) else d.p }

end Sys2Proof.Machine
end

