-- ==== Sys2Proof/Machine/Runs.lean ====
section
/-! DEFINITION. Runs: forming them, their rows, digests, traces, reports and endings (R80-R82, R108, R120-R143,
R177-R184, R401). -/

namespace Sys2Proof.Machine

/-! ### KV pages (R115-R118) -/

/-- Bytes of one position's elements of one head and side. -/
def KvGroup.elemBytes (g : KvGroup) : Nat := rowBytes g.fmt g.headDim
/-- Scale bytes of one position of one head and side. -/
def KvGroup.scalBytes (g : KvGroup) : Nat := g.headDim / 32
/-- Bytes of one head within a page: K elements, K scales, V elements, V scales of 64 positions (Table 5-4). -/
def KvGroup.headBytes (g : KvGroup) : Nat := 2 * 64 * (g.elemBytes + g.scalBytes)
/-- Bytes of a page that holds `heads` heads: rounded up to 4 KiB (R116). -/
def KvGroup.pageBytes (g : KvGroup) (heads : Nat) : Nat := roundUp (heads * g.headBytes) 4096

/-- KV heads that West holds: those below half of NKVH, rounded up (R117 under R22). -/
def westHeads (nkvh : Nat) : Nat := (nkvh + 1) / 2

/-- KV heads of a group that a half holds; `only` names the half in use in single-half operation (R117, R502). -/
def KvGroup.headsIn (g : KvGroup) (only : Option Half) (h : Half) : Nat :=
  match only with
  | some o => if o = h then g.nkvh else 0
  | none => match h with
    | .west => westHeads g.nkvh
    | .east => g.nkvh - westHeads g.nkvh

/-- Pages of a layer and half: MAX_POS + TENT_POS positions, 64 a page (R118). -/
def pagesFor (maxPos tentPos : Nat) : Nat := ceilDiv (maxPos + tentPos) 64

/-- Bytes of KV pages a slot's geometry needs in a half (R118). -/
def kvBytes (t d : KvGroup) (maxPos tentPos : Nat) (only : Option Half) (h : Half) : Nat :=
  pagesFor maxPos tentPos * (t.layers * t.pageBytes (t.headsIn only h) + d.layers * d.pageBytes (d.headsIn only h))

/-- The half that alone holds a slot's pages, when only one does (R117, R502). -/
def Slot.only (sl : Slot) : Option Half :=
  if sl.frames.west.isEmpty && !sl.frames.east.isEmpty then some .east
  else if sl.frames.east.isEmpty && !sl.frames.west.isEmpty then some .west else none

/-- The half that holds a KV head and the head's place among those the half holds. -/
def Slot.headHome (sl : Slot) (g : KvGroup) (k : Nat) : Half × Nat :=
  match sl.only with
  | some h => (h, k)
  | none => if k < westHeads g.nkvh then (.west, k) else (.east, k - westHeads g.nkvh)

/-- The group of a layer and the layer's number within it (R115). -/
def Slot.groupOf (sl : Slot) (layer : Nat) : Option (KvGroup × Nat × Bool) :=
  if layer < sl.target.layers then some (sl.target, layer, false)
  else if layer < sl.target.layers + sl.drafter.layers then some (sl.drafter, layer - sl.target.layers, true)
  else none

/-- Offset, within a slot's pages of a half, of the start of a page of a layer. -/
def Slot.pageOff (sl : Slot) (h : Half) (layer page : Nat) : Nat :=
  let only := sl.only
  let pg := pagesFor sl.maxPos sl.tentPos
  let tb := sl.target.pageBytes (sl.target.headsIn only h)
  let db := sl.drafter.pageBytes (sl.drafter.headsIn only h)
  if layer < sl.target.layers then (layer * pg + page) * tb
  else sl.target.layers * pg * tb + ((layer - sl.target.layers) * pg + page) * db

/-- The four parts of a KV entry (R116): half, offset and bytes of K elements, K scales, V elements, V scales. -/
def Slot.kvParts (sl : Slot) (g : KvGroup) (layer k pos : Nat) : List (Half × Nat × Nat) :=
  let hm := sl.headHome g k
  let base := sl.pageOff hm.1 layer (pos / 64) + hm.2 * g.headBytes
  let q := pos % 64
  let e := g.elemBytes
  let c := g.scalBytes
  [(hm.1, base + q * e, e), (hm.1, base + 64 * e + q * c, c), (hm.1, base + 64 * (e + c) + q * e, e),
   (hm.1, base + 64 * (2 * e + c) + q * c, c)]

/-! ### When the arrays may run -/

/-- A half is in service. -/
def State.halfUp (s : State) (h : Half) : Bool := decide ((s.arr.get h).half = .inService)

/-- The halves that carry an operation: both, or the one left in single-half operation (R22, R46). -/
def State.runHalves (s : State) : List Half :=
  if s.start.singleHalf then allHalves.filter s.halfUp else allHalves

/-- Operations can run: the device is started, no safe state, no orderly stop, the halves in service (R31, R46, R497),
P0 or P1, which wakes (R260). -/
def State.canRun (s : State) : Bool :=
  decide (s.start.phase = .running) && !s.start.safe && !s.pwr.stop && decide (s.pwr.st ≤ 1) &&
    !s.runHalves.isEmpty && s.runHalves.all s.halfUp

/-- A command that needs the arrays returns the device from P1 to P0 (R260). -/
def State.wake (s : State) : State := if s.pwr.st = 1 then { s with pwr := { s.pwr with st := 0, quiesced := some s.now } } else s

/-- The key of a partition's list. -/
def listKey (p : Fin 4) (l : Nat) : Nat := 256 * p.val + l

/-- A loaded list. -/
def State.list (s : State) (p : Fin 4) (l : Nat) : Option OpList := tget none s.eng.lists (listKey p l)

/-- The run engine changed. -/
def State.modEng (s : State) (f : Engine → Engine) : State := { s with eng := f s.eng }

/-- The run in the arrays replaced. -/
def State.setRun (s : State) (r : Option Run) : State := { s with eng := { s.eng with run := r } }

/-! ### Token records and step replies (R124, R129) -/

/-- The 256 bytes of a token record (Table 5-9). -/
def tokenRecord (commit first count flags offered accepted draftLen : Nat) (toks : List Nat) : List Byte :=
  slice (leBytes 4 commit ++ leBytes 4 first ++ [BitVec.ofNat 8 count, BitVec.ofNat 8 flags, BitVec.ofNat 8 offered,
    BitVec.ofNat 8 accepted, BitVec.ofNat 8 draftLen, 0, 0, 0] ++ toks.flatMap (leBytes 4)) 0 256

/-- A slot left without steps is OPEN again (Table 5-1). -/
def Slot.settleState (sl : Slot) : Slot :=
  if sl.st = .stepping ∧ sl.steps = [] then { sl with st := .opened, fedNow := 0 } else sl

/-- The report of a step replied to outside any run (R184): no operation ran for it. RUN_NUMBER is the partition's count as
it stands (DESIGN CHOICE, notes/assumptions, row 77). -/
def State.keepOutside (s : State) (i : Nat) : State :=
  s.modSlot i fun x => { x with
    draftDigest := 0,
    report := some {
      runNumber := (x.owner.map fun p => (s.part p).runs).getD 0, target := 0, drafter := x.draftDigest, waves := 0, ops := 0,
      vPresent := false, inexact := false, refused := false, truncated := false, gen := x.gen.toNat,
      refusedIndex := 0xFFFFFFFF, commit := x.commit, doneTime := s.now } }

/-- A step ended without a commit: its token record holds COUNT 0 and the flags given, then its reply (R121, R134). -/
def State.endStep (s : State) (i : Nat) (r : StepReq) (status flags offered d2 : Nat) : State :=
  let sl := s.slot i
  let s := if r.acc.dead then s
    else s.hostWrite r.acc.part r.out (tokenRecord sl.commit sl.commit 0 flags offered 0 sl.draftLen [])
  let s := s.reply r.acc status sl.commit (flags * 2 ^ 24 + offered * 2 ^ 16) d2
  (s.modSlot i fun x => { x with
    steps := x.steps.filter fun q => q.acc.id ≠ r.acc.id, fedNow := if r.running then 0 else x.fedNow }.settleState).settleFrees

/-- GEN_MAX of a step, the slot's default for 0xFF (Table 12-6). -/
def Acc.genMax (a : Acc) (sl : Slot) : Nat := if a.par 20 1 = 0xFF then sl.genDefault else a.par 20 1

/-- A step as its slot holds it. -/
def Acc.step (a : Acc) (sl : Slot) : StepReq :=
  ⟨a, (List.range (a.par 16 4)).map fun j => le a.ext (4 * j) 4, a.genMax sl, a.par 24 8, false⟩

/-- A step ended outside any run; its report is kept unless it was cancelled (R184). -/
def State.dropStep (s : State) (i : Nat) (r : StepReq) (status flags : Nat) : State :=
  let s := s.endStep i r status flags 0 0xFFFFFFFF
  if status = stCancelled then s else s.keepOutside i

/-! ### Forming a run (R81, R120-R122) -/

/-- The rows of a step from its slot's pointers (R120). -/
def stepRows (i : Nat) (sl : Slot) (r : StepReq) : List RowEnt :=
  let n := sl.commit
  let tok (p : Nat) := tget 0 sl.tokens p
  if r.feed.isEmpty then
    let d := sl.drafts.take (r.genMax - 1)
    ⟨i, n - 1, tok (n - 1)⟩ :: (List.range d.length).map fun j => ⟨i, n + j, d.getD j 0⟩
  else
    (if sl.kvLen < n then [⟨i, sl.kvLen, tok sl.kvLen⟩] else []) ++
      (List.range r.feed.length).map fun j => ⟨i, n + j, r.feed.getD j 0⟩

/-- The drafts a step uses (R120). -/
def stepDrafts (sl : Slot) (r : StepReq) : List Nat := if r.feed.isEmpty then sl.drafts.take (r.genMax - 1) else []

/-- The check on entering a run (R121): the status and record flags of a step that takes no part. -/
def stepCheck (sl : Slot) (r : StepReq) : Option (Nat × Nat) :=
  if r.feed.isEmpty then
    if sl.commit = 0 then some (stBadParam, 0)
    else if sl.commit = sl.maxPos then some (stNoResource, 2) else none
  else if sl.maxPos < sl.commit + r.feed.length then some (stNoResource, 2) else none

/-- Place by acceptance order. -/
def insertById {α : Type} (key : α → Nat) (x : α) : List α → List α
  | [] => [x]
  | y :: r => if key y ≤ key x then y :: insertById key x r else x :: y :: r

/-- Accepted steps of a slot that have not reached it yet. -/
def State.stepsComing (s : State) (i : Nat) : List Acc :=
  s.gal.accepted.filter fun a => a.opcode == 0x0310 && a.slotField == i && !a.dead

/-- Every accepted step that has not reached its slot ends with a status and record flags (R271). -/
def State.endComing (s : State) (status flags : Nat) : State :=
  let coming := s.gal.accepted.filter fun a => a.opcode == 0x0310
  let s := { s with gal := { s.gal with accepted := s.gal.accepted.filter fun a => a.opcode != 0x0310 } }
  coming.foldl (fun s a => s.dropStep a.slotField (a.step (s.slot a.slotField)) status flags) s

/-- The oldest waiting step of each slot that has one, in order of acceptance; a slot whose oldest accepted step is still on
its way to it has none (R112). -/
def State.waitingSteps (s : State) : List (Nat × StepReq) :=
  (allSlots.filterMap fun i =>
    let sl := s.slot i
    if sl.st = .stepping then match sl.steps with
      | r :: _ => if r.running || (s.stepsComing i).any (fun a => decide (a.id < r.acc.id)) then none else some (i, r)
      | [] => none
    else none).foldl (fun l x => insertById (fun y => y.2.acc.id) x l) []

/-- The group page's header and members of a group, as a run's snapshot (R400, R401); none when the list breaks R400, and
none when a word of it is lost, for which Table 6-6 names no row (DESIGN CHOICE, notes/assumptions, row 84). -/
def State.snapshot (s : State) (p : Fin 4) (g : Nat) : Option GroupSnap :=
  match s.fab.devId with
  | none => none
  | some dev =>
    if g = 0 ∨ 255 < g then none
    else
      let h := s.partRead p (16 * g) 16
      let n := le h 0 2
      let addr := le h 8 8
      let ms := (List.range n).map fun i => s.partRead p (addr + 8 * i) 8
      let mem := ms.map fun e => (le e 0 2 % 2 ^ 15, bitsOf (le e 2 1) 1 0, le e 4 2)
      let mine := (List.range n).filter fun i => match mem[i]? with
        | some (d, q, _) => d == dev && q == p.val
        | none => false
      match mine with
      | [r] => if (s.partPoison p (16 * g) 16).isEmpty ∧ (s.partPoison p addr (8 * n)).isEmpty ∧ 1 ≤ n ∧ n ≤ 4096 ∧ addr % 64 = 0 ∧ le h 2 2 ≠ 0 ∧ allZero (slice h 4 4) ∧ s.mappedRange p addr (8 * n)
               then some ⟨g, r, mem, le h 2 2⟩ else none
      | _ => none

/-- The words of the group pages that a list names, decoded as a read decodes them (R153). -/
def State.settleGroups (s : State) (p : Fin 4) (l : OpList) : State :=
  if s.mem.upset = [] then s
  else (((l.descs.map (·.group)).filter (· ≠ 0)).eraseDups).foldl (fun s g =>
    let s := s.settlePart p (16 * g) 16
    let h := s.partRead p (16 * g) 16
    s.settlePart p (le h 8 8) (8 * le h 0 2)) s

/-- Whether an epoch is earlier than another, modulo 2^16 (R402). -/
def epochEarlier (e b : Nat) : Bool := decide (32768 ≤ (e + 65536 - b) % 65536)

/-- A snapshot binds its epoch; held messages of an earlier epoch are discarded and counted (R402), and so are those whose
SRC_GEN the members do not list (R399). -/
def State.bindGroup (s : State) (p : Fin 4) (g : GroupSnap) : State :=
  let key := 256 * p.val + g.group
  let old := tget GroupSt.init s.fab.groups key
  let st : GroupSt := if old.bound = g.epoch then { old with members := g.members, rank := g.rank }
    else { GroupSt.init with bound := g.epoch, members := g.members, rank := g.rank }
  let mine (m : FMsg) : Bool := m.dstPart == p.val && m.group == g.group
  let early (m : FMsg) : Bool := mine m && epochEarlier m.epoch g.epoch
  let wrong (m : FMsg) : Bool := mine m && m.epoch == g.epoch && (g.members[m.srcRank]?).map (·.2.2) != some m.srcGen
  { s with fab := { s.fab with
      groups := tset GroupSt.init s.fab.groups key st,
      pool := s.fab.pool.filter fun m => !early m && !wrong m,
      counts := tmod 0 (tmod 0 s.fab.counts 7 (· + (s.fab.pool.filter early).length)) 3
        (· + (s.fab.pool.filter wrong).length) } }

/-- The groups that a list names, snapshotted; a group that fails R401 has no snapshot. -/
def State.snapshots (s : State) (p : Fin 4) (l : OpList) : List GroupSnap :=
  (((l.descs.map (·.group)).filter (· ≠ 0)).eraseDups).filterMap fun g => match s.snapshot p g with
    | some sn =>
      let st := tget GroupSt.init s.fab.groups (256 * p.val + g)
      if st.spent ∧ st.bound = sn.epoch then none else some sn
    | none => none

/-- A fresh run. -/
def newRun (p : Fin 4) (list number : Nat) (acc : Option Acc) (members : List Member) (rows : List RowEnt)
    (groups : List GroupSnap) : Run :=
  { part := p, list := list, number := number, acc := acc, hasRows := acc.isNone, members := members, rows := rows,
    pc := 0, loop := none, index := 0, markDigest := 0, markWaves := 0, digest := 0, waves := 0, ops := 0,
    vPresent := false, inexact := false, truncated := false, degraded := 0, refusedAt := none, traceAt := 0,
    cur := none, fence := none, slotDigest := [], samples := [], groups := groups, sentTo := [], early := [],
    ahead := ⟨[], []⟩, draft := none }

/-- The row-map bytes written into every distinct row-map area of a run's slots (R122): inputs at one offset, entries at
another. -/
def State.writeRowMap (s : State) (p : Fin 4) (areas : List Nat) (rows : List RowEnt) (inOff entOff : Nat) : State :=
  areas.eraseDups.foldl (fun s a =>
    (s.partWrite p (a + inOff) (rows.flatMap fun r => leBytes 4 r.input)).partWrite p (a + entOff)
      (rows.flatMap fun r => leBytes 4 r.pos ++ leBytes 2 r.slot ++ [0, 0])) s

/-- Steps taken into a run in order of acceptance (R122): those that fail R121 are replied to and dropped; the run stops
at 64 slots or 65,536 rows. -/
def State.gather (s : State) : List (Nat × StepReq) → List Member → List RowEnt → State × List Member × List RowEnt
  | [], ms, rows => (s, ms, rows)
  | (i, r) :: rest, ms, rows =>
    let sl := s.slot i
    match stepCheck sl r with
    | some (st, fl) => ((s.endStep i r st fl 0 0xFFFFFFFF).keepOutside i).gather rest ms rows
    | none =>
      let new := stepRows i sl r
      if ms.length < 64 ∧ rows.length + new.length ≤ 65536 then
        let s := s.modSlot i fun x => { x with
          steps := match x.steps with
            | q :: qs => { q with running := true } :: qs
            | [] => [],
          fedNow := r.feed.length, drafts := if r.feed.isEmpty then x.drafts else [] }
        s.gather rest (ms ++ [⟨i, sl.rowmap, { r with running := true }, stepDrafts sl r, false, false, false⟩]) (rows ++ new)
      else (s, ms, rows)

/-! ### Reports and traces (R183, R184) -/

/-- One operation's trace entry written at its place, when the trace has room (Table 7-5). -/
def State.trace (s : State) (r : Run) (l : OpList) (index kind mark flags iter : Nat) (digest : Dword) (waves tag : Nat) :
    State × Run :=
  if l.traceAddr = 0 then (s, r)
  else if r.traceAt + 32 ≤ l.traceLen then
    let b := leBytes 4 index ++ [BitVec.ofNat 8 kind, BitVec.ofNat 8 mark, BitVec.ofNat 8 flags, BitVec.ofNat 8 iter]
      ++ leBytes 8 digest.toNat ++ leBytes 8 waves ++ leBytes 4 tag ++ [0, 0, 0, 0]
    (s.partWrite r.part (l.traceAddr + r.traceAt) b, { r with traceAt := r.traceAt + 32 })
  else (s, { r with truncated := true })

/-- The report of a run (source 0). -/
def Run.report (r : Run) (now : Nat) : Report :=
  { runNumber := r.number, target := r.digest, drafter := ((r.draft.map (·.digest)).getD 0), waves := r.waves,
    ops := r.ops, vPresent := r.vPresent, inexact := r.inexact,
    refused := r.refusedAt.isSome || ((r.draft.map (·.refused)).getD false), truncated := r.truncated, gen := 0,
    refusedIndex := ((r.refusedAt.map (·.1)).getD 0xFFFFFFFF), commit := 0, doneTime := now }

/-- A run's state leaves the arrays: its report is kept, an OPLIST_RUN is replied to, the arrays are quiescent (R276). -/
def State.finishRun (s : State) (r : Run) (status : Nat) : State :=
  let rep := r.report s.now
  let s := s.modEng fun e => { e with reports := tset none e.reports (listKey r.part r.list) (some rep), run := none }
  let idx : Nat := match r.refusedAt with
    | some x => x.1
    | none => if r.degraded = 0 then 0xFFFFFFFF else r.degraded
  let s := match r.acc with
    | some a => s.reply a status r.number r.ops idx
    | none => s
  { s with pwr := { s.pwr with quiesced := some s.now } }.settleFrees

/-- Tentative entries of a run's slots abandoned by pointer (R108, R113). -/
def State.abandonTentative (s : State) (r : Run) : State :=
  r.members.foldl (fun s m => s.modSlot m.slot fun x => { x with tent := x.commit, fedNow := 0 }) s

/-- Groups of an abandoned collective become spent (R406). -/
def State.spendGroups (s : State) (r : Run) : State :=
  r.groups.foldl (fun s g => { s with fab := { s.fab with
    groups := tmod GroupSt.init s.fab.groups (256 * r.part.val + g.group) fun x =>
      if x.bound = g.epoch then { x with spent := true } else x } }) s

/-- The report of a slot's step (source 1). -/
def State.stepReport (s : State) (r : Run) (i : Nat) : Report :=
  { runNumber := r.number, target := tget 0 r.slotDigest i, drafter := (s.slot i).draftDigest, waves := r.waves,
    ops := r.ops, vPresent := r.vPresent, inexact := r.inexact, refused := r.refusedAt.isSome, truncated := r.truncated,
    gen := (s.slot i).gen.toNat, refusedIndex := (r.refusedAt.map (·.1)).getD 0xFFFFFFFF, commit := (s.slot i).commit,
    doneTime := s.now }

/-- A step's reply is written, so the slot's report describes it, unless it was cancelled (R184). -/
def State.keepReport (s : State) (r : Run) (i status : Nat) : State :=
  if status = stCancelled then s
  else
    let rep := s.stepReport r i
    s.modSlot i fun x => { x with report := some rep, draftDigest := 0 }

/-- The run ends before its last operation: every step that has not committed is replied to with a status (R108). -/
def State.endRun (s : State) (r : Run) (status : Nat) : State :=
  let idx := (r.refusedAt.map (·.1)).getD 0xFFFFFFFF
  let s := s.abandonTentative r
  let s := r.members.foldl (fun s m => if m.cancelled || m.committed then s
    else (s.endStep m.slot m.req status (if status = stCancelled then 8 else 0) m.drafts.length idx).keepReport r m.slot
      status) s
  s.finishRun r status

/-- An operation is refused at address resolve, or a fault stops it: the run ends there (R108, R154). -/
def State.refuseOp (s : State) (r : Run) (l : OpList) (d : Desc) (status : Nat) : State :=
  let (s, r) := s.trace r l r.index d.kind d.mark (2 + b2n d.drafter) 0 0 0 d.tag
  s.endRun { r with refusedAt := some (r.index, status), cur := none, fence := none } status

/-- The place of the first MATMUL whose reduction over its group's members exceeds 2^28 products (R93). -/
def tooLong (l : OpList) (gs : List GroupSnap) : Option Nat :=
  (List.range l.descs.length).find? fun i => match l.descs[i]? with
    | none => false
    | some d => d.kind == kMatmul && d.exact && (match gs.find? (·.group == d.group) with
      | none => false
      | some g => decide (2 ^ 28 < d.k * g.members.length))

/-- A run enters the arrays, or is refused as it starts for a reduction longer than R93 allows: nothing of it runs, and the
detail names the operation by the run index it would have had (DESIGN CHOICE, notes/assumptions, row 78). -/
def State.begin (s : State) (r : Run) (l : OpList) : State :=
  match tooLong l r.groups with
  | some i => s.endRun { r with refusedAt := some (opsBefore l.descs i, stBadParam) } stBadParam
  | none => s.setRun (some r)

/-- The run that Gallery forms from the waiting steps of one partition and list (R122). -/
def State.formSteps (s : State) (p : Fin 4) (list : Nat) : State :=
  let mine := s.waitingSteps.filter fun x => (s.slot x.1).owner == some p && (s.slot x.1).list == list
  let (s, ms, rows) := s.gather mine [] []
  match ms, s.list p list with
  | [], _ => s
  | _, none => s
  | _, some l =>
    let number := ((s.part p).runs + 1) % 2 ^ 32
    let s := s.settleGroups p l
    let gs := s.snapshots p l
    let s := gs.foldl (fun s g => s.bindGroup p g) s
    let s := s.modPart p fun x => { x with runs := number }
    let s := s.writeRowMap p (ms.map (·.rowmap)) rows 0 0x40000
    s.wake.begin (newRun p list number none ms rows gs) l

/-! ### The descriptor in turn -/

/-- Drafter work of the run is in the arrays ahead of its VERIFY (R37). -/
def Run.aheadOfVerify (r : Run) : Bool := !r.early.isEmpty && r.draft.isNone && !r.members.any (·.committed)

/-- The descriptor a run executes next: of its target section, loop applied (R104), or of the drafter section while a pass
is in the arrays (R131). -/
def Run.desc (r : Run) (l : OpList) : Option Desc :=
  match r.draft with
  | some d => if d.inPass then l.descs[r.pc]? else none
  | none =>
    if r.pc < l.targetLen then
      (l.descs[r.pc]?).map fun d => match r.loop with
        | some lp => d.advance lp.iter lp.stride
        | none => d
    else none

/-- The place after the descriptor in turn (R104). -/
def Run.step (r : Run) : Run :=
  match r.loop with
  | some lp =>
    if r.pc + 1 < lp.start + lp.body then { r with pc := r.pc + 1 }
    else if lp.iter + 1 < lp.count then { r with pc := lp.start, loop := some { lp with iter := lp.iter + 1 } }
    else { r with pc := r.pc + 1, loop := none }
  | none => { r with pc := r.pc + 1 }

/-- The body of a LOOP entered with iteration 0 (R104). -/
def Run.enterLoop (r : Run) (d : Desc) : Run :=
  { r with pc := r.pc + 1, loop := some ⟨r.pc + 1, d.par 1, d.par 0, 0, signedOf 64 (d.par 2 + 2 ^ 32 * d.par 3)⟩ }

/-- The next places of a run's target section, LOOPs followed and taking no place (R35, R104): at most `n`. -/
def Run.places (l : OpList) : Nat → Nat → Run → List (Run × Desc)
  | 0, _, _ => []
  | fuel + 1, n, r =>
    if n = 0 then []
    else match r.desc l with
      | none => []
      | some d => if d.kind = kLoop then Run.places l fuel n (r.enterLoop d) else (r, d) :: Run.places l fuel (n - 1) r.step

/-- The run in the arrays, its list and the descriptor in turn when it is of a given kind, no operation is in flight and
operations can run. -/
def State.turn (s : State) (kind : Nat) : Option (Run × OpList × Desc) :=
  if !s.canRun then none
  else match s.eng.run with
    | none => none
    | some r =>
      if r.cur.isSome || r.fence.isSome then none
      else match s.list r.part r.list with
        | none => none
        | some l => match r.desc l with
          | some d => if d.kind = kind then some (r, l, d) else none
          | none => none

/-! ### Digest tiles (R177-R180) -/

/-- The tile index of Table 7-2. -/
def tileIndex (part row chunk : Nat) : Dword := BitVec.ofNat 64 (part * 2 ^ 62 + (row % 2 ^ 30) * 2 ^ 32 + chunk)

/-- A row's bytes as digest tiles of up to 4 KiB, each written to its place from an address. -/
def rowTiles (part key : Nat) (slot : Option Nat) (dest : Nat → Dest) (bs : List Byte) : List Tile :=
  let cs := chunks 4096 bs.length bs
  (List.zip (List.range cs.length) cs).map fun (i, b) => ⟨tileIndex part key i, b, [(dest (4096 * i), b)], slot⟩

/-- The row key of row `m` of an operation: the position for rows of the row map, else the row number (Table 7-2). -/
def rowKey (d : Desc) (rows : List RowEnt) (m : Nat) : Nat × Option Nat :=
  if d.m = 0 then match rows[m]? with
    | some r => (r.pos, some r.slot)
    | none => (m, none)
  else (m, none)

/-- A tile's contribution to the digests (R177, R180). -/
def Tile.crc (t : Tile) : Dword := crc64 t.index t.bytes

/-- A tile written to its destinations. -/
def State.writeTile (s : State) (p : Fin 4) (t : Tile) : State :=
  t.writes.foldl (fun s w => match w.1 with
    | .part a => s.partWrite p a w.2
    | .kv i h off => s.kvWrite i h off w.2
    | .send => s) s

/-! ### Wave counts (R22, R23, R95) -/

/-- K_tile of the wider of two formats (Table 2-1, R18); FP32 counts as BF16 (R95). -/
def kTile (a b : Nat) : Nat := if a ≥ 6 ∨ b ≥ 6 then 512 else if a ≥ 2 ∨ b ≥ 2 then 1024 else 2048

/-- Σ max(m_b, 32) over row blocks of up to 256. -/
def blockWaves (m : Nat) : Nat :=
  (m / 256) * 256 + (if m % 256 = 0 then 0 else max (m % 256) 32)

/-- The columns of N that a half computes (R22). -/
def State.share (s : State) (n : Nat) (h : Half) : Nat :=
  if s.start.singleHalf then (if s.halfUp h then n else 0)
  else
    let nw := min n (32 * ceilDiv n 64)
    match h with
    | .west => nw
    | .east => n - nw

/-- Logical columns in service (R44). -/
def State.columns (s : State) (h : Half) : Nat := (s.arr.get h).bound.length

/-- The wave count of a MATMUL on one array (R23). -/
def State.matmulWaves (s : State) (d : Desc) (m : Nat) (h : Half) : Nat :=
  let sh := s.share d.n h
  if sh = 0 then 0
  else 72 + ceilDiv sh (96 * s.columns h) * ceilDiv d.k (kTile d.fmtA d.fmtB) * blockWaves m

/-- The KV heads that the query heads of a half's share of an ATTEND read (R22, R94). -/
def State.kvHeadsOf (s : State) (d : Desc) (h : Half) : List Nat :=
  let nqh := d.par 0
  let west := (nqh + 1) / 2
  let heads := if s.start.singleHalf then (if s.halfUp h then List.range nqh else [])
    else match h with
      | .west => List.range west
      | .east => (List.range (nqh - west)).map (· + west)
  (heads.map fun q => q * d.par 1 / nqh).eraseDups

/-- The wave count of an ATTEND on one array (R95). -/
def State.attendWaves (s : State) (d : Desc) (m top : Nat) (h : Half) : Nat :=
  let nqh := d.par 0
  let nkv := d.par 1
  let hh := (s.kvHeadsOf d h).length
  if hh = 0 then 0
  else 72 + hh * blockWaves (m * (nqh / nkv)) *
    (ceilDiv (top + 1) (96 * s.columns h) + ceilDiv (top + 1) (kTile (if d.fmtA = 7 then 6 else d.fmtA) d.fmtB))

end Sys2Proof.Machine
end

