-- ==== Sys2Proof/Machine/Fabric.lean ====
section
/-! DEFINITION. Links and Lanterns by number, fabric messages on links, routing, delivery into the exchange area, and the
matching of messages to operations (R320, R321, R389-R407). -/

namespace Sys2Proof.Machine

/-! ### Links, bundles, Lanterns by number -/

/-- A link's number, which is its LNK_ block's BLOCK_INSTANCE: bundles 0-15, then 16 + 16 × Lantern + port. -/
def linkKey : LinkId → Nat
  | .bundle b => b.val
  | .port l p => 16 + 16 * l.val + p.val

/-- The source ID of a link's messages (Table 18-2). -/
def srcLink (k : Nat) : Nat := if k < 16 then 0x080 + k else 0x100 + (k - 16)

/-- A link as reset leaves it: a bundle has LINK_GEN 1, a port none. -/
def linkInit (k : Nat) : Link := if k < 16 then Link.init 0x4210 1 else Link.init 0x4218 0

/-- A link. -/
def State.link (s : State) (k : Nat) : Link := (tget none s.links k).getD (linkInit k)

/-- A link replaced. -/
def State.setLink (s : State) (k : Nat) (v : Link) : State :=
  { s with links := tset none s.links k (if v = linkInit k then none else some v) }

/-- A link changed. -/
def State.modLink (s : State) (k : Nat) (f : Link → Link) : State := s.setLink k (f (s.link k))

/-- A bundle. -/
def State.bundle (s : State) (b : Nat) : Bundle := tget Bundle.init s.bundles b

/-- A bundle changed. -/
def State.modBundle (s : State) (b : Nat) (f : Bundle → Bundle) : State :=
  { s with bundles := tmod Bundle.init s.bundles b f }

/-- A Lantern. -/
def State.lan (s : State) (l : Nat) : Lantern := tget Lantern.init s.lans l

/-- A Lantern changed. -/
def State.modLan (s : State) (l : Nat) (f : Lantern → Lantern) : State :=
  { s with lans := tmod Lantern.init s.lans l f }

/-- A port of a Lantern. -/
def Lantern.port (x : Lantern) (p : Nat) : LPort := tget LPort.init x.ports p

/-- A port of a Lantern changed. -/
def Lantern.modPort (x : Lantern) (p : Nat) (f : LPort → LPort) : Lantern :=
  { x with ports := tmod LPort.init x.ports p f }

/-- A port changed. -/
def State.modLPort (s : State) (l p : Nat) (f : LPort → LPort) : State := s.modLan l fun x => x.modPort p f

/-- The sixteen ports of a Lantern. -/
def allPorts : List Nat := List.range 16
/-- The eight Lanterns. -/
def allLans : List Nat := List.range 8
/-- The Lanterns of a half (Table 8-6). -/
def lansOf (h : Half) : List Nat := (List.range 4).map (· + 4 * halfNo h)

/-- The half whose Spire holds a link's transmitting engine; none for the Drum (Table 14-1, Table 8-6). -/
def txDie (k : Nat) : Option Half :=
  if k < 8 then some (if k < 4 then .west else .east)
  else if k < 16 then (if k % 4 < 2 then none else some (if k < 12 then .west else .east))
  else some (halfOf ((k - 16) / 64))

/-- The half whose Spire holds a link's receiving engine; none for the Drum. -/
def rxDie (k : Nat) : Option Half :=
  if k < 8 then some (if k < 4 then .east else .west)
  else if k < 16 then (if k % 4 < 2 then some (if k < 12 then .west else .east) else none)
  else some (halfOf ((k - 16) / 64))

/-- The time base that a die counts on: the Drum's, or its own free-running count while its half is unsynchronised (R315). -/
def State.dieNow (s : State) : Option Half → Nat
  | none => s.now
  | some h => if (s.arr.get h).unsync then s.now + (s.arr.get h).ownCount else s.now

/-! ### Messages as bytes and flits (R398) -/

/-- The header and payload of a message (Table 16-1). -/
def FMsg.encode (m : FMsg) : List Byte :=
  [BitVec.ofNat 8 m.type, BitVec.ofNat 8 m.hops] ++ leBytes 2 m.dstDev ++ leBytes 2 m.srcDev ++
    [BitVec.ofNat 8 (m.dstPart + 4 * m.srcPart), 0] ++ leBytes 2 m.dstGen ++ leBytes 2 m.srcGen ++ leBytes 2 m.group ++
    leBytes 2 m.epoch ++ leBytes 2 m.srcRank ++ [0, 0] ++ leBytes 4 m.tag ++ leBytes 4 m.seq ++ leBytes 4 m.offset ++
    m.payload

/-- A message read from its bytes. -/
def FMsg.ofBytes (b : List Byte) : FMsg :=
  { type := le b 0 1, hops := le b 1 1 % 32, dstDev := le b 2 2 % 2 ^ 15, srcDev := le b 4 2 % 2 ^ 15,
    dstPart := le b 6 1 % 4, srcPart := le b 6 1 / 4 % 4, dstGen := le b 8 2, srcGen := le b 10 2, group := le b 12 2,
    epoch := le b 14 2, srcRank := le b 16 2, tag := le b 20 4, seq := le b 24 4, offset := le b 28 4,
    payload := b.drop 32, bad := [] }

/-- The virtual channel of a message's TYPE. -/
def vcOf (type : Nat) : Nat := if type = 1 then 0 else if type = 6 then 3 else 2

/-- The flits of a message: 240 payload bytes each, the first and the last marked. -/
def flitsOf (no vc : Nat) (b : List Byte) : List Flit :=
  let cs := chunks 240 b.length b
  (List.zip (List.range cs.length) cs).map fun (i, c) => ⟨0, vc, i == 0, i + 1 == cs.length, c, no⟩

/-- A message placed wholly on a link (R321). -/
def State.place (s : State) (k : Nat) (m : FMsg) : State :=
  s.modLink k fun x => { x with
    nextMsg := x.nextMsg + 1,
    queue := x.queue ++ [⟨x.nextMsg, vcOf m.type, flitsOf x.nextMsg (vcOf m.type) m.encode, false, some m⟩] }

/-! ### Delivery (R399, R100, R402, R407) -/

/-- One of the router's counts advanced (Table 16-8). -/
def State.countFab (s : State) (i n : Nat) : State :=
  { s with fab := { s.fab with counts := tmod 0 s.fab.counts i (· + n) } }

/-- What a partition keeps of a group. -/
def State.group (s : State) (p g : Nat) : GroupSt := tget GroupSt.init s.fab.groups (256 * p + g)

/-- The operation in turn has begun to wait for a message (R100, R403): what it claims goes to its place, an XRECV's to its
destination and a collective's to the other 4 MiB of the exchange area, and takes no room in the holding pool. -/
def State.claimed (s : State) (m : FMsg) : Bool :=
  match s.eng.run with
  | none => false
  | some r =>
    m.dstPart == r.part.val && r.sentTo.contains (r.index, m.group) && r.groups.any (fun g => g.group == m.group && g.epoch == m.epoch) &&
      (match s.list r.part r.list with
      | none => false
      | some l => match r.desc l with
        | none => false
        | some d =>
          if d.kind = kXrecv then m.type == 1 && m.srcRank == d.par 0 && m.tag == d.par 1 &&
            m.seq == tget 0 (s.group r.part.val m.group).got (d.par 0 * 2 ^ 32 + d.par 1)
          else m.type != 1 && m.seq == (s.group r.part.val m.group).wide)

/-- The messages that the holding pool holds. -/
def State.pooled (s : State) : List FMsg := s.fab.pool.filter fun m => !s.claimed m

/-- Bytes that messages of a partition's group hold in the pool. -/
def State.poolHeld (s : State) (p g : Nat) : Nat :=
  ((s.pooled.filter fun m => m.dstPart == p && m.group == g).map (·.payload.length)).foldl (· + ·) 0

/-- Bytes of the holding pool: 4 MiB of each half that is not lost. -/
def State.poolBytes (s : State) : Nat :=
  4194304 * ([Half.west, .east].filter fun h => decide ((s.arr.get h).half ≠ .lost)).length

/-- Whether the holding pool has room for a message (R100): 256 KiB are kept for each group that the run names; a group may
hold 4 MiB in all while the pool has room beside what is kept for the others (DEDUCED, notes/assumptions, row 95). -/
def State.poolRoom (s : State) (m : FMsg) : Bool :=
  let mine := s.poolHeld m.dstPart m.group + m.payload.length
  let all := (s.pooled.map (·.payload.length)).foldl (· + ·) 0 + m.payload.length
  let named : List (Nat × Nat) := match s.eng.run with
    | none => []
    | some r => r.groups.map fun g => (r.part.val, g.group)
  let others := ((named.filter fun g => g != (m.dstPart, m.group)).map fun g => 262144 - s.poolHeld g.1 g.2).foldl (· + ·) 0
  s.claimed m || decide (all ≤ s.poolBytes) &&
    ((named.contains (m.dstPart, m.group) && decide (mine ≤ 262144)) ||
      (decide (mine ≤ 4194304) && decide (all + others ≤ s.poolBytes)))

/-- The role of a partition of another device has ended: its messages held for this device, in the pool, at the router and in
the receive buffers of the links, are discarded and counted, later ones are rejected (R407). -/
def State.endRole (s : State) (dev part gen : Nat) : State :=
  let gone (m : FMsg) : Bool := m.srcDev == dev && m.srcPart == part && m.srcGen == gen && s.fab.devId == some m.dstDev
  let n := (s.fab.pool.filter gone).length + (s.fab.held.filter gone).length +
    ((s.links.map fun e => ((s.link e.1).rxHeld.filter gone).length).foldl (· + ·) 0)
  let s := s.links.foldl (fun s e => if (s.link e.1).rxHeld.any gone then
    s.modLink e.1 fun x => { x with rxHeld := x.rxHeld.filter fun m => !gone m } else s) s
  ({ s with fab := { s.fab with
      pool := s.fab.pool.filter fun m => !gone m,
      held := s.fab.held.filter fun m => !gone m,
      ended := if s.fab.ended.contains (dev, part, gen) then s.fab.ended else s.fab.ended ++ [(dev, part, gen)] } }).countFab
    3 n

/-- A message for this device (R399): discarded at the first check it fails; `none` when the pool has no room for it. -/
def State.deliver (s : State) (m : FMsg) : Option State :=
  if m.type = 0 ∨ 6 < m.type then some (s.countFab 7 1)
  else if m.type = 6 then
    some ((s.endRole m.srcDev (le m.payload 0 4 % 4) (le m.payload 2 2)).countFab 1 1)
  else
    let p : Fin 4 := Fin.ofNat 4 m.dstPart
    let g := s.group m.dstPart m.group
    if (s.part p).resetting ∨ (s.part p).gen.toNat ≠ m.dstGen then some (s.countFab 3 1)
    else if s.fab.ended.contains (m.srcDev, m.srcPart, m.srcGen) then some (s.countFab 3 1)
    else if g.bound == m.epoch && (g.members[m.srcRank]?).map (·.2.2) != some m.srcGen then some (s.countFab 3 1)
    else if g.bound ≠ 0 ∧ epochEarlier m.epoch g.bound then some (s.countFab 3 1)
    else if s.poolRoom m then some (({ s with fab := { s.fab with pool := s.fab.pool ++ [m] } }).countFab 1 1)
    else none

/-- The messages that found no room on a link are offered again, each channel's in order (R100). -/
def State.retryLink (s : State) (k : Nat) : State :=
  let r := (s.link k).rxHeld.foldl (fun (a : State × List FMsg) m =>
    if a.2.any fun n => vcOf n.type == vcOf m.type then (a.1, a.2 ++ [m])
    else match a.1.deliver m with
      | some s => (s, a.2)
      | none => (a.1, a.2 ++ [m])) (s, [])
  if r.2 = (s.link k).rxHeld then s else r.1.modLink k fun x => { x with rxHeld := r.2 }

/-- The pool may have room again: every link's held messages are offered again, the lowest link first. -/
def State.retryPool (s : State) : State := s.links.foldl (fun s e => if 16 ≤ e.1 then s.retryLink e.1 else s) s

/-- A message for this device from a port: delivered, or, when it finds no room or one of its channel is ahead of it, held in
the receive buffers of the link it arrived on, whose credits stop its channel there (R100). -/
def State.deliverFrom (s : State) (k : Nat) (m : FMsg) : State :=
  let hold : State := s.modLink k fun x => { x with rxHeld := x.rxHeld ++ [m] }
  if (s.link k).rxHeld.any fun n => vcOf n.type == vcOf m.type then hold
  else match s.deliver m with
    | none => hold
    | some s => if m.type = 6 then s.retryPool else s

/-! ### Routing (R390-R393) -/

/-- Usable for new messages: link up, Lantern neither fenced nor draining, not taken down (R390, R397). -/
def State.usable (s : State) (n : Nat) : Bool :=
  let x := s.lan (n / 16)
  (s.link (16 + n)).st == 1 && !x.fenced && x.drain.isNone && !(x.port (n % 16)).takenDown

/-- The ports of a trunk: those whose far end is the same device (R390). -/
def State.trunk (s : State) (n : Nat) : List Nat :=
  let far (i : Nat) : Option Nat := ((s.lan (i / 16)).port (i % 16)).farId
  match far n with
  | none => [n]
  | some d => (List.range 128).filter fun i => far i == some d

/-- The least loaded usable port of some, the lowest number first. -/
def State.leastLoaded (s : State) (l : List Nat) : Option Nat :=
  (l.filter s.usable).foldl (fun best n => match best with
    | none => some n
    | some b => if (s.link (16 + n)).unacked.length < (s.link (16 + b)).unacked.length then some n else some b) none

/-- The port a route entry leads to now: a usable port of the primary's trunk, else of the alternate's (Table 12-10). -/
def State.routePort (s : State) (e : Nat) : Option Nat :=
  match s.leastLoaded (s.trunk (bitsOf e 6 0)) with
  | some n => some n
  | none => if bitOf e 15 then s.leastLoaded (s.trunk (bitsOf e 14 8)) else none

/-- Whether a destination has a route, or is this device (R392). -/
def State.routable (s : State) (dev : Nat) : Bool := s.fab.devId == some dev || bitOf (tget 0 s.fab.routes dev) 7

/-- An unroutable message discarded and counted; one of another device logs a contained fault, at most once a minute (R392). -/
def State.unroutable (s : State) (m : FMsg) : State :=
  let due := s.fab.lastUnroutable.all fun t => decide (t + 60 * 10 ^ 9 ≤ s.now)
  let s := s.countFab 4 1
  if s.fab.devId ≠ some m.srcDev ∧ due then
    ({ s with fab := { s.fab with lastUnroutable := some s.now } }).report 0x008 .contained 1 m.dstDev
  else s

/-- A message held at the router (R391). -/
def State.holdMsg (s : State) (m : FMsg) : State := { s with fab := { s.fab with held := s.fab.held ++ [m] } }

/-- The bundles from one die to another (Table 14-1); none is the Drum. -/
def bundlesBetween : Option Half → Option Half → List Nat
  | some h, some _ => (List.range 4).map (· + 4 * halfNo h)
  | none, some h => (List.range 2).map (· + 8 + 4 * halfNo h)
  | some h, none => (List.range 2).map (· + 10 + 4 * halfNo h)
  | none, none => []

/-- A message sent by one die to another (R321): wholly on one bundle of those up, held at the router when there is none.
Which one is not stated (a free value, notes/assumptions, row 87). -/
def State.cross (s : State) (src dst : Option Half) (m : FMsg) : State :=
  match (bundlesBetween src dst).filter fun b => (s.link b).st == 1 with
  | [] => s.holdMsg m
  | b :: l =>
    let f := s.takeFree
    f.2.place ((b :: l).getD ((Config.freeValue f.1).toNat % (b :: l).length) b) m

/-- A message routed by the die that has it (R390, R392): delivered here, discarded as unroutable, placed on a port beside that
Spire, or sent first to the Spire beside the port; one with no usable port goes to the Drum's router, which holds it. -/
def State.routeAt (s : State) (die : Option Half) (m : FMsg) : State :=
  if s.fab.devId = some m.dstDev then
    match s.deliver m with
    | some s => s
    | none => s.holdMsg m
  else
    let e := tget 0 s.fab.routes m.dstDev
    if !bitOf e 7 then s.unroutable m
    else match s.routePort e with
      | some n => if die = some (halfOf (n / 64)) then s.place (16 + n) m else s.cross die (some (halfOf (n / 64))) m
      | none => if die = none then s.holdMsg m else s.cross die none m

/-- A message routed by the Drum's router. -/
def State.route (s : State) (m : FMsg) : State := s.routeAt none m

/-- A message routed by the Spire of a half that has it. -/
def State.onward (s : State) (h : Half) (m : FMsg) : State := s.routeAt (some h) m

/-- A message that crosses this device, received beside a half: counted as a loop at HOPS 31, else one hop on (R392, R393). -/
def State.transit (s : State) (h : Half) (m : FMsg) : State :=
  if 31 ≤ m.hops then s.countFab 5 1
  else if !bitOf (tget 0 s.fab.routes m.dstDev) 7 then s.unroutable m
  else (s.countFab 2 1).onward h { m with hops := m.hops + 1 }

/-- A port's link loses its traffic (R396): messages not started return to the router, started ones are discarded and
counted, a message partly received is discarded. The number of messages discarded is returned. -/
def State.purge (s : State) (k : Nat) : State × Nat :=
  let x := s.link k
  let back := (x.queue.filter (!·.started)).filterMap (·.msg)
  let lost := (((x.queue.filter (·.started)).map (·.no)) ++ x.unacked.map (·.msg)).eraseDups.length
  let s := s.modLink k fun x => { x with
    queue := [], unacked := [], replayAt := none, fails := 0, afterRetrain := false, nextTx := 0, rxPart := [] }
  ((back.foldl (fun s m => s.routeAt (txDie k) m) s).countFab 6 lost, lost)

/-! ### Sending to a group and matching messages (R402-R406) -/

/-- The Spire that sends what a run sends: West's while it is in service (DESIGN CHOICE, notes/assumptions, row 87). -/
def State.runHalf (s : State) : Half := if (s.arr.get .west).half = .inService then .west else .east

/-- Bytes sent to a rank as messages of up to 64 KiB (R398, R405); nothing to send is one message without payload. -/
def State.sendTo (s : State) (p : Fin 4) (g : GroupSnap) (rank type tag seq : Nat) (bytes : List Byte) (bad : List Nat) :
    State :=
  let cs := chunks 65536 bytes.length bytes
  let cs := if cs.isEmpty then [[]] else cs
  let gen0 := (s.part p).gen.toNat
  let from' := s.runHalf
  match g.members[rank]?, s.fab.devId with
  | some (dev, part, gen), some own =>
    (List.zip (List.range cs.length) cs).foldl (fun s (i, c) =>
      s.onward from' {
        type := type, hops := 0, dstDev := dev, srcDev := own, dstPart := part, srcPart := p.val, dstGen := gen,
        srcGen := gen0, group := g.group, epoch := g.epoch, srcRank := g.rank, tag := tag, seq := seq,
        offset := 65536 * i, payload := c,
        bad := (bad.filter fun o => decide (65536 * i ≤ o) && decide (o < 65536 * (i + 1))).map (· - 65536 * i) }) s
  | _, _ => s

/-- Sent to every other member that has a route; a member without one would be reached through others by the pattern of
Table 16-3 (notes/assumptions, row 97). -/
def State.sendAll (s : State) (p : Fin 4) (g : GroupSnap) (type tag seq : Nat) (bytes : List Byte) : State :=
  ((List.range g.members.length).filter fun k => k ≠ g.rank ∧ (g.members[k]?).any fun m => s.routable m.1).foldl
    (fun s k => s.sendTo p g k type tag seq bytes []) s

/-- The rank to which a member's first message of a group-wide operation goes (Table 16-3): up the chain for XREDUCE in rank
order, across the lowest dimension that has a partner for the maxima, round the ring for the others; none in a group of one. Where
the group is no power of two the table does not say who a member's first partner is (DESIGN CHOICE, notes/assumptions, row 97). -/
def GroupSnap.firstRank (g : GroupSnap) (d : Desc) : Option Nat :=
  let n := g.members.length
  if n ≤ 1 then none
  else if d.kind = kXreduce ∧ d.mode = 0 then some (if g.rank + 1 < n then g.rank + 1 else 0)
  else if d.kind = kMatmul then ((List.range 12).map fun i => g.rank ^^^ 2 ^ i).find? (· < n)
  else some ((g.rank + 1) % n)

/-- Whether the first message of a group-wide operation has a route (R392). -/
def State.firstRoutable (s : State) (g : GroupSnap) (d : Desc) : Bool :=
  match g.firstRank d with
  | none => true
  | some k => (g.members[k]?).all fun m => s.routable m.1

/-- The messages of the pool with a key (R403). -/
def State.matching (s : State) (p : Fin 4) (g : GroupSnap) (rank : Nat) (data : Bool) (tag seq : Nat) : List FMsg :=
  s.fab.pool.filter fun m => m.dstPart == p.val && m.group == g.group && m.epoch == g.epoch && m.srcRank == rank &&
    m.seq == seq && (m.type == 1) == data && (!data || m.tag == tag)

/-- The messages with a key taken out of the pool; those that found no room are offered it. -/
def State.unmatch (s : State) (p : Fin 4) (g : GroupSnap) (rank : Nat) (data : Bool) (tag seq : Nat) : State :=
  let l := s.matching p g rank data tag seq
  ({ s with fab := { s.fab with pool := s.fab.pool.filter fun m => !l.contains m } } : State).retryPool

/-- What a claim finds: still incomplete, of the wrong type or length (R404), or the bytes with the offsets of their
poisoned words. -/
inductive Claim where
  | wait
  | bad
  | got (bytes : List Byte) (poison : List Nat)
deriving DecidableEq, Repr

/-- A transfer of `len` bytes and one type claimed by its key. -/
def State.claim (s : State) (p : Fin 4) (g : GroupSnap) (rank type tag seq len : Nat) : Claim :=
  let l := s.matching p g rank (type == 1) tag seq
  if l.isEmpty then .wait
  else if l.any fun m => m.type != type || decide (len < m.offset + m.payload.length) ||
      (decide (m.payload.length < 65536) && m.offset + m.payload.length != len) || (type == 5 && m.tag != tag) then .bad
  else
    let order := l.foldl (fun acc m => insertById (·.offset) m acc) []
    let total := (order.map (·.payload.length)).foldl (· + ·) 0
    if total < len then .wait
    else .got (slice (order.flatMap (·.payload)) 0 len) (order.flatMap fun m => m.bad.map (· + m.offset))

end Sys2Proof.Machine
end

