-- ==== Sys2Proof/Machine/Links.lean ====
section
/-! DEFINITION. The reliable link layer: sending, receiving, acknowledges, credits, replays, retrains, link down, HELLO and
fresh starts, width commands (chapter 14). -/

namespace Sys2Proof.Machine

/-! ### Registers and numbers -/

/-- REPLAY_LIMIT of LNK_LL_CTRL (Table 14-12). -/
def Link.replayLimit (x : Link) : Nat := bitsOf x.ctrl 15 12

/-- REPLAY_TIMEOUT in ns. -/
def Link.timeout (x : Link) : Nat := [1000, 2000, 5000, 10000, 20000, 50000, 100000, 100000].getD (bitsOf x.ctrl 3 1) 1000

/-- Flits that ACK_COALESCE lets pass before an ACK. -/
def Link.coalesce (x : Link) : Nat := [1, 8, 32, 128].getD (bitsOf x.ctrl 9 8) 1

/-- OLDEST: the oldest unacknowledged sequence, NEXT_TX when there is none (Table 14-10). -/
def Link.oldest (x : Link) : Nat := match x.unacked with
  | f :: _ => f.seq
  | [] => x.nextTx

/-- Receive buffers of a virtual channel (Table 14-4). -/
def buffersOf (k vc : Nat) : Nat :=
  if vc = 3 then 16 else if k < 16 then (if vc = 2 then 128 else 256) else (if vc = 2 then 1024 else 512)

/-- TARGET of a link in a LINK block (R320). -/
def targetOf (k : Nat) : Nat := if k < 8 then k % 4 else if k < 16 then k % 2 else 0

/-- A block or flit put on the wire. -/
def Link.emit (x : Link) (w : Wire) : Link := { x with wire := x.wire ++ [w] }

/-- A LINK block by OP (Table 14-3). -/
def Link.block (x : Link) (k op a b c : Nat) : Link := x.emit (.block op (targetOf k) a b c)

/-- One of a link's counts advanced (Table 14-13). -/
def Link.count (x : Link) (i n : Nat) : Link := { x with counts := tmod 0 x.counts i (· + n) }

/-- Buffers of a channel in use at the receiver. -/
def Link.inUse (x : Link) (vc : Nat) : Nat := tget 0 x.taken vc - tget 0 x.freed vc

/-- Buffers of a channel that messages without room hold (R100). -/
def Link.stuck (x : Link) (vc : Nat) : Nat :=
  ((x.rxHeld.filter fun m => vcOf m.type == vc).map fun m => (flitsOf 0 vc m.encode).length).foldl (· + ·) 0

/-! ### Who carries a LINK block (R320, R324, R339) -/

/-- The companion of a link (Table 14-1); a port's is its own other fibre. -/
def companion (k : Nat) : Nat :=
  if k < 4 then k + 4 else if k < 8 then k - 4 else if k < 16 then (if k % 4 < 2 then k + 2 else k - 2) else k

/-- The bundles of the direction opposite to a bundle's between the same two dies, its companion first. -/
def opposite (k : Nat) : List Nat :=
  let c := companion k
  let all := if c < 8 then (List.range 4).map (· + c / 4 * 4) else (List.range 2).map (· + c / 2 * 2)
  c :: all.filter (· ≠ c)

/-- The link whose stream carries what a link puts on the wire: flits, WIDTH_SWITCH and INIT travel on the link itself;
acknowledges, credits, HELLO, width requests, WIDTH_DONE and FENCE_NOTE on its companion, or on another bundle of that direction
when the companion is down or asleep. -/
def State.carrier (s : State) (k : Nat) : Wire → Nat
  | .flit _ _ _ => k
  | .switch _ _ _ _ _ => k
  | .block op _ _ _ _ =>
    if op = 8 ∨ 16 ≤ k then k
    else ((opposite k).find? fun b => (s.link b).st == 1 && !(s.bundle b).txAsleep).getD (companion k)

/-- The record of a link's state changes: one Oculus update (R197). -/
def State.linkChanged (s : State) : State := s.oculusUpdate

/-! ### Down, retrain, replay (R330, R333-R335) -/

/-- The link is down and holds its traffic (R335); `log` says whether Table 14-8 logs it. -/
def State.linkDown (s : State) (k : Nat) (log : Bool) : State :=
  let x := s.link k
  if x.st = 3 ∨ x.st = 4 then s
  else
    let old := x.oldest
    let s := s.modLink k fun x => ({ x with
      st := 3, replayAt := none, hello := false, width := none, waitWidth := [], rxWidth := none,
      rxWait := [] } : Link).count 8 1
    let s := if k < 16 then s.modBundle k fun b => { b with st := 0 } else s
    let s := s.linkChanged
    if log then s.report (srcLink k) .contained 7 old else s

/-- The link retrains keeping its state (R334); what its width commands leave is settled when it completes (R343). -/
def State.retrain (s : State) (k : Nat) : State :=
  let s := s.modLink k fun x => ({ x with st := 2, replayAt := none, hello := false, nakOut := none } : Link).count 7 1
  let s := if k < 16 then s.modBundle k fun b => { b with st := 0 } else s
  s.linkChanged

/-- A replay of OLDEST would begin: a replay, a retrain once F equals REPLAY_LIMIT, or the link down after that (R333). -/
def State.beginReplay (s : State) (k : Nat) (resend : Bool) : State :=
  let x := s.link k
  if x.fails < x.replayLimit then
    s.modLink k fun x =>
      let w := s.dieNow (txDie k) / 10 ^ 9
      { x with
        fails := x.fails + 1, replayAt := if resend then some 0 else x.replayAt,
        window := w, inWindow := if x.window = w then x.inWindow + 1 else 1 }
  else if x.afterRetrain then s.linkDown k true
  else (s.modLink k fun x => { x with fails := 0, afterRetrain := true }).retrain k

/-- The first `n` unacknowledged flits are acknowledged; F returns to 0 when OLDEST changes. -/
def Link.acked (x : Link) (n : Nat) : Link :=
  if n = 0 then x
  else { x with
    unacked := x.unacked.drop n, fails := 0, afterRetrain := false,
    replayAt := match x.replayAt with
      | none => none
      | some i => if x.unacked.length ≤ n ∨ x.unacked.length ≤ i then none else some (i - n) }

/-- A protocol violation (R340): a contained fault with the rule broken, and a retrain that counts as a replay of OLDEST; a
link in training, or down and training again (R335), goes on as it is. -/
def State.violation (s : State) (k rule : Nat) : State :=
  let s := s.report (srcLink k) .contained 9 rule
  let x := s.link k
  if x.st ≠ 1 then s
  else if x.fails < x.replayLimit then (s.modLink k fun x => { x with fails := x.fails + 1 }).retrain k
  else if x.afterRetrain then s.linkDown k true
  else (s.modLink k fun x => { x with fails := 0, afterRetrain := true }).retrain k

/-! ### Sending (R325, R332) -/

/-- The channel from which the next new flit comes: management, response, then request and collective in turn. -/
def Link.nextVc (x : Link) : Option Nat :=
  let ready (vc : Nat) : Bool := (x.queue.any fun e => e.vc == vc) && decide (0 < tget 0 x.credits vc)
  if ready 3 then some 3
  else if ready 1 then some 1
  else match ready 0, ready 2 with
    | true, true => some (if x.turn then 2 else 0)
    | true, false => some 0
    | false, true => some 2
    | false, false => none

/-- The queue after its first message of a channel has sent one flit: the flit and what is left. -/
def sendFirst (vc : Nat) : List QEnt → Option (Flit × List QEnt)
  | [] => none
  | e :: r =>
    if e.vc = vc then match e.flits with
      | f :: fs => some (f, if fs.isEmpty then r else { e with flits := fs, started := true } :: r)
      | [] => sendFirst vc r
    else (sendFirst vc r).map fun x => (x.1, e :: x.2)

/-- One flit sent: a replay first, else a new flit of a channel that holds a credit while the window is open. -/
def Link.transmit (x : Link) : Link :=
  match x.replayAt with
  | some i => match x.unacked[i]? with
    | some f =>
      (({ x with replayAt := if i + 1 < x.unacked.length then some (i + 1) else none } : Link).emit
        (.flit f true x.gen)).count 4 1
    | none => { x with replayAt := none }
  | none =>
    if 1536 ≤ x.unacked.length then x
    else match x.nextVc with
      | none => x
      | some vc => match sendFirst vc x.queue with
        | none => x
        | some (f, q) =>
          let f := { f with seq := x.nextTx }
          (({ x with
              queue := q, unacked := x.unacked ++ [f], nextTx := (x.nextTx + 1) % 4096,
              credits := tmod 0 x.credits vc (· - 1), turn := if vc = 0 then true else if vc = 2 then false else x.turn }
            : Link).emit (.flit f false x.gen)).count 3 1

/-! ### Receiving (R323, R328, R329) -/

/-- The NAK that a discarded flit asks for, unless one is outstanding. -/
def Link.nak (x : Link) (k now : Nat) : Link :=
  let out := match x.nakOut with
    | some t => decide (now < t + x.timeout)
    | none => false
  if out then x else ({ x with nakOut := some now } : Link).block k 2 x.nextRx 0 0

/-- An ACK of the last sequence delivered. -/
def Link.ack (x : Link) (k : Nat) : Link :=
  ({ x with toAck := 0 } : Link).block k 1 ((x.nextRx + 4095) % 4096) 0 0

/-- The fields of a flit that R323 checks once its CHECK is good. -/
def flitFieldsOk (b : List Byte) : Bool :=
  le b 0 1 % 16 == 1 && !bitOf (le b 0 1) 7 && decide (le b 1 2 < 4096) && decide (1 ≤ le b 3 1) && decide (le b 3 1 ≤ 240) &&
    decide (le b 4 1 < 4) && allZero (slice b 5 1) && allZero (slice b 8 4)

/-- What has come of the message that a flit without FIRST goes on with: on this link, or on a fenced sibling whose message goes
on here (R337). -/
def Link.begun (x : Link) (vc : Nat) : List Byte :=
  let own := tget [] x.rxPart vc
  if own.isEmpty then ((x.rxMoved.find? fun e => e.1 == vc).map (·.2)).getD [] else own

/-- A flit delivered: its buffer taken, NEXT_RX advanced, its message put together and, once whole, there to be taken; an ACK
when enough have come. -/
def Link.deliver (x : Link) (k : Nat) (b : List Byte) : Link :=
  let vc := bitsOf (le b 0 1) 5 4
  let first := bitOf (le b 4 1) 0
  let last := bitOf (le b 4 1) 1
  let payload := slice b 12 (le b 3 1)
  let part := if first then payload else x.begun vc ++ payload
  let x := { x with
    rxMoved := if first || !(tget [] x.rxPart vc).isEmpty then x.rxMoved else x.rxMoved.eraseP (fun e => e.1 == vc),
    taken := tmod 0 x.taken vc (· + 1), nextRx := (x.nextRx + 1) % 4096, nakOut := none, toAck := x.toAck + 1,
    rxPart := tset [] x.rxPart vc (if last then [] else part), rxDone := if last then x.rxDone ++ [(vc, part)] else x.rxDone }
  if x.coalesce ≤ x.toAck then x.ack k else x

/-- A fabric message that has come whole over a bundle goes on from the die that received it (R321, R390). -/
def State.takeCrossing (s : State) (k : Nat) : State :=
  if 16 ≤ k then s
  else match (s.link k).rxDone with
    | [] => s
    | (_, b) :: r => (s.modLink k fun x => { x with rxDone := r }).routeAt (rxDie k) (FMsg.ofBytes b)

/-- An arriving flit treated as R329 gives. -/
def State.receiveFlit (s : State) (k : Nat) (b : List Byte) : State :=
  let x := s.link k
  if (crc32c (slice b 0 252)).toNat ≠ le b 252 4 then s.modLink k fun x => (x.count 5 1).nak k s.now
  else if !flitFieldsOk b then s.violation k 3
  else if le b 6 2 ≠ x.gen then s.modLink k fun x => x.count 9 1
  else
    let d := (le b 1 2 + 4096 - x.nextRx) % 4096
    if d = 0 then
      let vc := bitsOf (le b 0 1) 5 4
      if buffersOf k vc ≤ x.inUse vc then s.violation k 0
      else (s.modLink k fun x => x.deliver k b).takeCrossing k
    else if 2048 ≤ d then s.modLink k fun x => (x.count 6 1).ack k
    else s.modLink k fun x => x.nak k s.now

/-! ### HELLO and fresh starts (R334, R336, R338, R395) -/

/-- Whether a LINK_GEN is later than another: within 32,767 ahead modulo 2^16 (R395). -/
def genLater (a b : Nat) : Bool := decide (1 ≤ (a + 65536 - b) % 65536) && decide ((a + 65536 - b) % 65536 ≤ 32767)

/-- Both directions start afresh: sequences and FREED to 0, held flits discarded with the effect of R396, INIT sent for
every channel with its free buffers, no credit held until the far end's INIT comes; discarding flits is a contained fault
(Table 14-8). -/
def State.freshStart (s : State) (k : Nat) : State :=
  let x := s.link k
  let n := x.unacked.length + ((x.queue.filter (·.started)).map (·.flits.length)).foldl (· + ·) 0
  let s := (s.purge k).1
  let s := s.modLink k fun x =>
    let x := { x with
      nextTx := 0, nextRx := 0, fails := 0, afterRetrain := false, replayAt := none, nakOut := none, toAck := 0,
      taken := (List.range 4).foldl (fun t vc => tset 0 t vc (x.inUse vc)) [], freed := [], reported := [], lastFreed := [],
      freedAt := [], credits := [], advert := [], rxPart := [], rxMoved := [] }
    (List.range 4).foldl (fun x vc => x.block k 8 vc (buffersOf k vc - x.inUse vc) 0) x
  if 0 < n then s.report (srcLink k) .contained 8 (min n 4095) else s

/-- The link is up. -/
def State.linkUp (s : State) (k : Nat) : State :=
  let s := s.modLink k fun x => { x with st := 1, everUp := true, fresh := false, adopted := false }
  let s := if k < 16 then s.modBundle k fun b => { b with st := 1 } else s
  s.linkChanged

/-- An end sends HELLO with its receiver's NEXT_RX (R334); an end without a role sends none (R395). -/
def Link.sendHello (x : Link) (k : Nat) : Link :=
  if x.gen = 0 then x else x.block k 7 (b2n x.fresh) x.nextRx x.gen

/-- A HELLO read by an end that is training: LINK_GEN taken over where R395 lets it, and sent in a HELLO of its own, the link
kept in training while the two differ (R338), started afresh when either end is fresh (R336), else resumed from NEXT_RX (R334),
whose ACK is ignored when it is behind OLDEST and a violation when it is for a flit never sent (R330, R340). -/
def State.hello (s : State) (k : Nat) (fresh : Bool) (nextRx gen : Nat) : State :=
  let s := s.modLink k fun x => { x with farGen := gen, hello := true }
  let x := s.link k
  if x.gen = 0 ∨ x.st = 1 ∨ x.st = 3 ∨ x.st = 4 then s
  else
    let s := if 16 ≤ k ∧ fresh ∧ x.fresh ∧ genLater gen x.gen then
        s.modLink k fun x => ({ x with gen := gen, adopted := true } : Link).sendHello k
      else s
    let x := s.link k
    if x.gen ≠ gen then s
    else if fresh || x.fresh then (s.freshStart k).linkUp k
    else
      let n := (nextRx + 4096 - x.oldest) % 4096
      if x.unacked.length < n ∧ (nextRx + 4096 - x.nextTx) % 4096 < 2048 then s.violation k 2
      else
        let s := s.modLink k fun x =>
          let x := if n ≤ x.unacked.length then x.acked n else x
          { x with replayAt := if x.unacked.isEmpty then none else some 0 }
        s.linkUp k

/-! ### Waits that a port's state ends (R279) -/

/-- A port's entry in the FABRIC_PORTS record (Table 8-7, R389). -/
def State.portEntry (s : State) (l p : Nat) : Nat :=
  let x := s.link (16 + 16 * l + p)
  let lan := s.lan l
  let width := ((List.range 16).filter fun k => bitOf (lan.port p).tx k).length
  let st : Nat := if lan.fenced ∨ x.st = 4 then 3
    else match x.st with
      | 0 => if x.gen = 0 then 0 else 1
      | 1 => 2
      | 2 => 1
      | _ => 0
  x.gen + width * 2 ^ 16 + st * 2 ^ 21

/-- FAB_PORT_STATE ACTION 1 commands whose port is up are replied to. -/
def State.settlePorts (s : State) : State :=
  s.gal.waiters.foldl (fun s w => match w.kind with
    | .portUp l p =>
      if (s.link (16 + 16 * l + p)).st = 1 then (s.dropWaiter w.acc.id).reply w.acc stOK (s.portEntry l p) 0 0 else s
    | _ => s) s

/-! ### The commands -/

/-- The state at the event, with the link's record of what it sent begun anew. -/
def State.linkEvent (s : State) (t : Nat) (link : LinkId) : State :=
  (s.atTime t).modLink (linkKey link) fun x => { x with wire := [] }

/-- The bundles that lead to a half (Table 8-6). -/
def bundlesTo (h : Half) : List Nat :=
  (List.range 4).map (· + 4 * halfNo (other h)) ++ [8 + 4 * halfNo h, 9 + 4 * halfNo h]

/-- Whether a link carries flits now: up, and its bundle's transmitter awake (R339). -/
def State.carries (s : State) (k : Nat) : Bool := (s.link k).st == 1 && !(decide (k < 16) && (s.bundle k).txAsleep)

/-- Whether an orderly reset of the die that a bundle leads to holds its new traffic: replays alone go on (R336, Table 20-6). -/
def Link.waitsReset (x : Link) (s : State) (k : Nat) : Bool :=
  x.replayAt.isNone && (([Half.west, .east].any fun h => (s.arr.get h).preparing && (bundlesTo h).contains k))

/-- FLIT_TRANSMIT (R325, R332): a bundle's idle time begins anew when something is sent (R307). -/
def execFlitTransmit (t : Nat) (link : LinkId) (s : State) : Host.Outcome State Fault Refusal :=
  let s := s.linkEvent t link
  let k := linkKey link
  .next (if s.carries k && !(s.link k).waitsReset s k then
    let s := s.modLink k Link.transmit
    if k < 16 ∧ (s.link k).wire ≠ [] then s.modBundle k fun b => { b with idleSince := s.now } else s
  else s)

/-- FLIT_RECEIVE (R322, R323, R329, R331). -/
def execFlitReceive (t : Nat) (link : LinkId) (flit : List Byte) (s : State) : Host.Outcome State Fault Refusal :=
  let s := s.linkEvent t link
  .next (if (s.link (linkKey link)).st = 1 then s.receiveFlit (linkKey link) flit else s)

/-- ACK_COALESCE_TIMER (R328): the time since the first flit not yet acknowledged has passed. -/
def execAckCoalesceTimer (t : Nat) (link : LinkId) (s : State) : Host.Outcome State Fault Refusal :=
  .next ((s.linkEvent t link).modLink (linkKey link) fun x => if 0 < x.toAck then x.ack (linkKey link) else x)

/-- A CREDIT block with a channel's FREED. -/
def Link.report (x : Link) (k vc : Nat) : Link :=
  ({ x with reported := tset 0 x.reported vc (tget 0 x.freed vc), freedAt := tset none x.freedAt vc none } : Link).block k 3 vc
    (tget 0 x.freed vc % 4096) 0

/-- The messages received whole that a consumer has taken with a number of flits of a channel, the oldest first. -/
def takeDone (vc : Nat) : Nat → List (Nat × List Byte) → List (Nat × List Byte)
  | _, [] => []
  | n, e :: r =>
    if e.1 ≠ vc then e :: takeDone vc n r
    else if ceilDiv e.2.length 240 ≤ n then takeDone vc (n - ceilDiv e.2.length 240) r else e :: r

/-- Buffers freed by the consumer (R327); those of messages without room stay taken (R100). -/
def Link.free (x : Link) (vc taken now : Nat) : Link :=
  let n := min taken (x.inUse vc - x.stuck vc)
  if n = 0 then x
  else { x with
    freed := tmod 0 x.freed vc (· + n), rxDone := takeDone vc n x.rxDone,
    freedAt := if tget none x.freedAt vc = none then tset none x.freedAt vc (some now) else x.freedAt }

/-- The CREDIT blocks that are due (R327): a channel's when FREED has advanced by 16 since the last one sent, or 32 ns after
any advance; every channel's when 1 µs has passed since all were sent. -/
def Link.reportDue (x : Link) (k now : Nat) : Link :=
  if x.reportAt + 1000 ≤ now then
    (List.range 4).foldl (fun x vc => x.report k vc) { x with reportAt := now }
  else (List.range 4).foldl (fun x vc =>
    let late : Bool := match tget none x.freedAt vc with
      | none => false
      | some t => decide (t + 32 ≤ now)
    if late || decide (tget 0 x.reported vc + 16 ≤ tget 0 x.freed vc) then x.report k vc else x) x

/-- CREDIT_REPORT (R327): the consumer has taken flits of a channel, and the CREDIT blocks due are sent. -/
def execCreditReport (t : Nat) (link : LinkId) (vc : Fin 4) (taken : Nat) (s : State) :
    Host.Outcome State Fault Refusal :=
  let k := linkKey link
  let s := s.linkEvent t link
  .next (s.modLink k fun x => (x.free vc.val taken s.now).reportDue k s.now)

/-- CREDIT_RECEIVE (R327): the difference from the last FREED received comes back as credits; more than the buffers
advertised is a violation (R340). -/
def execCreditReceive (t : Nat) (link : LinkId) (vc : Fin 4) (freed : BitVec 12) (s : State) :
    Host.Outcome State Fault Refusal :=
  let s := s.linkEvent t link
  let k := linkKey link
  let x := s.link k
  let n := (freed.toNat + 4096 - tget 0 x.lastFreed vc.val) % 4096
  .next (if tget 0 x.advert vc.val < n then s.violation k 1
    else s.modLink k fun x => { x with
      credits := tmod 0 x.credits vc.val (· + n), lastFreed := tset 0 x.lastFreed vc.val freed.toNat })

/-- REPLAY_TIMEOUT (R330, R333): OLDEST has not changed for REPLAY_TIMEOUT. -/
def execReplayTimeout (t : Nat) (link : LinkId) (s : State) : Host.Outcome State Fault Refusal :=
  let s := s.linkEvent t link
  let k := linkKey link
  .next (if (s.link k).st = 1 ∧ (s.link k).unacked ≠ [] then s.beginReplay k true else s)

/-- RETRAIN_TIMEOUT (R333): a retrain past its bound puts the link down. -/
def execRetrainTimeout (t : Nat) (link : LinkId) (s : State) : Host.Outcome State Fault Refusal :=
  let s := s.linkEvent t link
  .next (if (s.link (linkKey link)).st = 2 then s.linkDown (linkKey link) true else s)

/-- REPLAY_RATE_FAULT (R344, R528): more than 1,000 replays within the present second, at most one entry a minute. -/
def execReplayRateFault (t : Nat) (link : LinkId) (s : State) : Host.Outcome State Fault Refusal :=
  let s := s.linkEvent t link
  let k := linkKey link
  let x := s.link k
  let due : Bool := match x.rateLogged with
    | none => true
    | some l => decide (l + 60 * 10 ^ 9 ≤ s.now)
  .next (if decide (x.window = s.dieNow (txDie k) / 10 ^ 9) && decide (1000 < x.inWindow) && due then
      (s.modLink k fun x => { x with rateLogged := some s.now }).report (srcLink k) .corrected 5 x.inWindow
    else s)

/-- INIT_RECEIVE (R336): the credits of a channel after a fresh start. -/
def execInitReceive (t : Nat) (link : LinkId) (vc : Fin 4) (credits : BitVec 12) (s : State) :
    Host.Outcome State Fault Refusal :=
  .next ((s.linkEvent t link).modLink (linkKey link) fun x => { x with
    credits := tset 0 x.credits vc.val credits.toNat, advert := tset 0 x.advert vc.val credits.toNat,
    lastFreed := tset 0 x.lastFreed vc.val 0 })

/-- The siblings of a bundle that are up (Table 14-1). -/
def State.siblings (s : State) (b : Nat) : List Nat :=
  let all := if b < 8 then (List.range 4).map (· + b / 4 * 4) else (List.range 2).map (· + b / 2 * 2)
  all.filter fun i => i != b && (s.link i).st == 1

/-- A message that a fenced bundle had not begun, placed wholly on one of the siblings; which one is not stated (a free value,
notes/assumptions, row 87). -/
def State.moveEntry (s : State) (sibs : List Nat) (e : QEnt) : State :=
  let f := s.takeFree
  f.2.modLink (sibs.getD ((Config.freeValue f.1).toNat % sibs.length) 0) fun y => { y with queue := y.queue ++ [e] }

end Sys2Proof.Machine
end

