-- ==== Sys2Proof/Machine/Lights.lean ====
section
/-! DEFINITION. What Lantern commands share: light states of the fibres, width commands, calibration gaps, laser swaps,
fencing, drains (chapter 15, R341-R343, R390, R396). -/

namespace Sys2Proof.Machine

/-- The source ID of a Lantern (Table 18-2). -/
def srcLantern (l : Nat) : Nat := 0x0A0 + l

/-- The link of a port. -/
def portKey (l p : Nat) : Nat := 16 + 16 * l + p

/-- FULL, as LAN_PORT_DATA codes light (Table 15-21). -/
def lightFull : Nat := 0
/-- KEEP_ALIVE. -/
def lightKeep : Nat := 1
/-- DARK. -/
def lightDark : Nat := 2
/-- HANDSHAKE. -/
def lightReady : Nat := 3
/-- RAMP. -/
def lightRamp : Nat := 4

/-- One of a Lantern's wide counts advanced (Table 15-22). -/
def Lantern.count (x : Lantern) (i n : Nat) : Lantern := { x with counts := tmod 0 x.counts i (· + n) }

/-- A laser of a Lantern. -/
def Lantern.laser (x : Lantern) (i : Nat) : Laser := tget Laser.init x.lasers i

/-- A laser changed. -/
def Lantern.modLaser (x : Lantern) (i : Nat) (f : Laser → Laser) : Lantern :=
  { x with lasers := tmod Laser.init x.lasers i f }

/-- What serves a wavelength: 0 its fixed laser, 1 spare A, 2 spare B, 3 nothing, since it is retired. -/
def Lantern.sourceOf (x : Lantern) (k : Nat) : Nat := tget 0 x.source k

/-- The number of the laser that serves a wavelength. -/
def Lantern.laserOf (x : Lantern) (k : Nat) : Nat := if x.sourceOf k = 0 then k else 15 + x.sourceOf k

/-- A laser's bias ceiling (R347, R385): the lower of its fused limit and 1.5 times its baseline bias, which is the fused
nominal bias (Table 15-14; DEDUCED, notes/assumptions, row 92), or what R435 has lowered it to. -/
def State.ceiling (s : State) (l i : Nat) : Nat :=
  let f := tget (0, 0, 0) s.fuses.lasers (18 * l + i)
  let c := min f.2.1 (3 * f.1 / 2)
  match ((s.lan l).laser i).lowered with
  | some d => min c d
  | none => c

/-- BIAS_PCT (Table 15-19): a bias as a percentage of its ceiling; a laser that is off has none. -/
def percentOf (bias ceiling : Nat) : Nat := if bias = 0 then 0 else if ceiling ≤ bias then 100 else 100 * bias / ceiling

/-- A laser's BIAS_PCT. -/
def State.biasPct (s : State) (l i : Nat) : Nat := percentOf ((s.lan l).laser i).bias (s.ceiling l i)

/-- The place of a ring, or of a laser's heater, among a Lantern's heater codes. -/
def ringKey : RingId → Nat
  | .tx p k => 16 * p.val + k.val
  | .rx p k => 256 + 16 * p.val + k.val
  | .mux i => 512 + i.val

/-- The place of laser `i` of a Lantern at wavelength `k` among the ledger's baselines: a spare has one for each wavelength (Table
15-14). -/
def laserKey (l i k : Nat) : Nat := 1024 * l + if i < 16 then 512 + i else 544 + 16 * (i - 16) + k

/-- A laser's baseline output in 0.01 dBm (R347, R370, R384): that of commissioning, else the fused one. -/
def State.outputBase (s : State) (l i k : Nat) : Int :=
  (tget none s.led.outputs (laserKey l i k)).getD (tget (0, 0, 0) s.fuses.lasers (18 * l + i)).2.2

/-- The wavelength that a laser serves or is tuned to. -/
def Lantern.waveOf (x : Lantern) (i : Nat) : Nat := if i < 16 then i else (x.laser i).target

/-- The first of a Lantern's shutters that does not hold back 35 dB when closed (R378). -/
def badFibre (shutters : List Nat) : Option Nat :=
  (List.range (min 16 shutters.length)).find? fun i => decide (shutters.getD i 350 < 350)

/-- A Lantern's shutters in a report of several. -/
def shuttersOf (m : List (Fin 8 × List Nat)) (l : Nat) : List Nat := ((m.find? fun e => e.1.val == l).map (·.2)).getD []

/-- The wavelengths in service: those not retired. -/
def Lantern.waves (x : Lantern) : List Nat := (List.range 16).filter fun k => x.sourceOf k != 3

/-- A set of wavelengths as a bit mask. -/
def maskOf (l : List Nat) : Nat := l.foldl (fun m k => m ||| 2 ^ k) 0

/-- The wavelengths of a mask. -/
def wavesOf (m : Nat) : List Nat := (List.range 16).filter fun k => bitOf m k

/-! ### Width commands (R341-R343) -/

/-- ACTION of a width command (Table 14-3). -/
def actionCode : WidthAction → Nat
  | .drop => 1
  | .add => 2
  | .replace => 3

/-- The set of wavelengths after a width command. -/
def maskAfter (a : WidthAction) (m lane spare : Nat) : Nat :=
  match a with
  | .drop => maskOf ((wavesOf m).filter (· ≠ lane))
  | .add => m ||| 2 ^ lane
  | .replace => maskOf ((wavesOf m).filter (· ≠ lane)) ||| 2 ^ spare

/-- The logical order of a set of wavelengths after a width command (R341): REPLACE puts the spare in the replaced one's place,
DROP and ADD bind anew in ascending order, which an empty list stands for. -/
def orderAfter (a : WidthAction) (m : Nat) (order : List Nat) (lane spare : Nat) : List Nat :=
  match a with
  | .replace => (if order.isEmpty then wavesOf m else order).map fun k => if k = lane then spare else k
  | _ => []

/-- A port's transmitting set after a width command. -/
def LPort.afterTx (y : LPort) (a : WidthAction) (lane spare : Nat) : LPort :=
  { y with tx := maskAfter a y.tx lane spare, txOrder := orderAfter a y.tx y.txOrder lane spare }

/-- A port's receiving set after a width command. -/
def LPort.afterRx (y : LPort) (a : WidthAction) (lane spare : Nat) : LPort :=
  { y with rx := maskAfter a y.rx lane spare, rxOrder := orderAfter a y.rx y.rxOrder lane spare }

/-- A wavelength that the far end drops of its own accord, in a gap or a swap, is one to ask for again; an ADD settles it (Table
15-8, steps 3 and 4). -/
def LPort.gapSeen (y : LPort) (a : WidthAction) (lane : Nat) : LPort :=
  match a with
  | .drop => if tget none y.rxDropped lane = none ∧ y.rxGap.contains lane = false then { y with rxGap := y.rxGap ++ [lane] } else y
  | .add => { y with rxGap := y.rxGap.filter (· ≠ lane) }
  | .replace => y

/-- The lanes or wavelengths that carry a link's stream, in logical order (R305, R341, R355). -/
def State.streamLanes (s : State) (k : Nat) : List Nat :=
  if k < 16 then
    ((s.bundle k).lanes.filter fun e => e.2.role == .service).foldl
      (fun l e => insertById (fun j => (tget Lane.init (s.bundle k).lanes j).logical) e.1 l) []
  else
    let y := (s.lan ((k - 16) / 16)).port ((k - 16) % 16)
    if y.txOrder.isEmpty then wavesOf y.tx else y.txOrder

/-- A width command's LINK block (Table 14-3). -/
def Link.widthBlock (x : Link) (k op : Nat) (w : WidthCmd) : Link :=
  x.block k op w.cmd (actionCode w.action) (w.lane + 256 * (if w.action = .replace then w.spare else 0xFF))

/-- A width command numbered with the next CMD_ID. -/
def Link.numbered (x : Link) (a : WidthAction) (lane spare : Nat) : WidthCmd × Link :=
  (⟨x.nextCmd, a, lane, spare, false⟩, { x with nextCmd := (x.nextCmd + 1) % 256 })

/-- A drop counted against its port (Table 15-22). -/
def State.countDrop (s : State) (k : Nat) (a : WidthAction) : State :=
  if a = .drop then s.modLan ((k - 16) / 16) fun x => x.count (0x10 + (k - 16) % 16) 1 else s

/-- A port's receiving set changed with no command, its link in training (R343). -/
def State.settleRx (s : State) (k : Nat) (a : WidthAction) (lane spare : Nat) : State :=
  let l := (k - 16) / 16
  let p := (k - 16) % 16
  if k < 16 ∨ ((s.lan l).port p).light ≠ lightFull then s
  else (s.modLPort l p fun y => y.afterRx a lane spare).countDrop k a

/-- A port's transmitting set changed with no command, its link in training (R343). -/
def State.settleTx (s : State) (k : Nat) (a : WidthAction) (lane spare : Nat) : State :=
  let l := (k - 16) / 16
  let p := (k - 16) % 16
  if k < 16 ∨ ((s.lan l).port p).light ≠ lightFull then s
  else ((s.modLPort l p fun y => y.afterTx a lane spare).countDrop k a).oculusUpdate

/-- The receiver decides a change (step 1 of Table 14-7): WIDTH_REQ is sent, or the change waits for the earlier one; with
the link in training it is settled there. -/
def State.requestWidth (s : State) (k : Nat) (a : WidthAction) (lane spare : Nat) : State :=
  if (s.link k).st ≠ 1 then s.settleRx k a lane spare
  else s.modLink k fun x =>
    let r := x.numbered a lane spare
    match x.rxWidth with
    | none => ({ r.2 with rxWidth := some r.1 } : Link).widthBlock k 4 r.1
    | some _ => { r.2 with rxWait := r.2.rxWait ++ [r.1] }

/-! ### Light (R373, R374) -/

/-- Whether a Lantern may carry light at all: shell closed with no drain holding it, not fenced, not at thermal stop, not
under reset, the device running above P3 (R374, R379, R382). -/
def State.canLight (s : State) (l : Nat) : Bool :=
  let x := s.lan l
  x.present && decide (x.shell = 0 ∨ x.restoring = true) && !x.fenced && !x.stop && !x.held &&
    decide (s.start.phase = .running) && !s.start.safe && decide (s.pwr.st ≤ 2)

/-! ### Codewords of a wavelength (R355-R359) -/

/-- The receiver of a wavelength. -/
def LPort.wave (x : LPort) (k : Nat) : WaveRx := tget WaveRx.init x.fec k

/-- The receiver of a wavelength changed. -/
def LPort.modWave (x : LPort) (k : Nat) (f : WaveRx → WaveRx) : LPort := { x with fec := tmod WaveRx.init x.fec k f }

/-- Codewords received on a wavelength while its decoder holds its lock: those that cannot be corrected are counted, on the
Lantern, on the port, and in the present millisecond (R528); of the blocks passed on, LINK blocks that fail R324 are counted on
the port's link. -/
def State.receiveWords (s : State) (l p k : Nat) (words : List (List Sym)) : State :=
  let x := ((s.lan l).port p).wave k
  let taken := x.lock.held words
  let bad := uncorrectable taken
  let r := LaneRx.run x.line (wordBlocks taken)
  let w := s.dieNow (rxDie (portKey l p)) / 10 ^ 6
  ((s.modLPort l p fun y => y.modWave k fun x => {
      lock := taken.foldl FecLock.take x.lock, line := r.line, window := w,
      bad := (if x.window = w then x.bad else 0) + bad }).modLan l fun x => (x.count 2 bad).count (0x20 + p) bad).modLink
    (portKey l p) fun x => x.count 9 r.badLink

/-- Whether a receiver declares a wavelength failed by its codewords: its lock is lost, or it has seen more than 16 that
cannot be corrected in one millisecond (R359). -/
def WaveRx.failed (x : WaveRx) : Bool := !x.lock.locked || decide (16 < x.bad)

/-- A transmit fibre's light state changed; a change to KEEP_ALIVE or DARK is counted (Table 15-22), and the far end is seen anew. -/
def State.setLight (s : State) (l p light : Nat) : State :=
  let old := ((s.lan l).port p).light
  let s := s.modLPort l p fun x => { x with
    light := light, frames := 0, rampAt := none, rxGap := [],
    farSeen := x.farSeen && !(decide (light = lightKeep) || decide (light = lightDark)),
    tx := if light = lightFull ∨ light = lightRamp then x.tx else 0,
    rx := if light = lightFull ∨ light = lightRamp then x.rx else 0, txOrder := [], rxOrder := [] }
  if old ≠ light ∧ (light = lightKeep ∨ light = lightDark) then s.modLan l fun x => x.count 5 1 else s

/-- The ports of a Lantern whose links are up. -/
def State.upPorts (s : State) (l : Nat) : List Nat := allPorts.filter fun p => (s.link (portKey l p)).st == 1

/-- Ports of a Lantern that are down, as a mask. -/
def State.downMask (s : State) (l : Nat) : Nat :=
  maskOf (allPorts.filter fun p => (s.link (portKey l p)).st != 1)

/-! ### Retiring a wavelength and fencing a Lantern (R362, R369, R396) -/

/-- The commands that wait on a Lantern end with a status. -/
def State.failLanternWaits (s : State) (l status : Nat) : State :=
  s.gal.waiters.foldl (fun s w => match w.kind with
    | .swap a k => if a = l then (s.dropWaiter w.acc.id).reply w.acc status (0xFF + 256 * k) 0 0 else s
    | .drain a _ => if a = l then (s.dropWaiter w.acc.id).reply w.acc status (s.downMask l + 2 ^ 16 * (s.lan l).shell) 0 0 else s
    | .portUp a p => if a = l then (s.dropWaiter w.acc.id).reply w.acc status (s.portEntry l p) 0 0 else s
    | _ => s) s

/-- A Lantern fenced: lasers off, fibres dark, links fenced with the traffic handled as R396 gives; the Oculus table
first, then one PORT_DOWN for each port and LANTERN_FENCED with the kind that caused it (R15, R362). -/
def State.fenceLantern (s : State) (l cause : Nat) : State :=
  if (s.lan l).fenced then s
  else
    let s := s.modLan l fun x => { x with
      fenced := true, swap := none, swapQ := [], gap := none, drain := none, drainDone := false, restoring := false,
      lasers := (List.range 18).foldl (fun t i => tmod Laser.init t i fun y =>
        if y.st = 4 then y else { y with st := 0, warn := false }) x.lasers }
    let s := allPorts.foldl (fun s p => (s.setLight l p lightDark).modLink (portKey l p) fun x => { x with
      st := 4, replayAt := none, hello := false, width := none, waitWidth := [], rxWidth := none, rxWait := [] }) s
    let r := allPorts.foldl (fun (a : State × List Nat) p =>
      let q := a.1.purge (portKey l p)
      (q.1, a.2 ++ [q.2])) (s, [])
    let s := r.1.oculusUpdate
    let s := (List.zip allPorts r.2).foldl (fun s (p, n) => s.report (srcLink (portKey l p)) .contained 0x0A n) s
    (s.report (srcLantern l) .contained 0x09 cause).failLanternWaits l stFaulted

/-- The transmitter switches (steps 3-5 of Table 14-7): WIDTH_SWITCH is sent on every lane of the old set and the new set
carries the stream. A port's record shows its new width (step 7, R197); a bundle's follows its receiver. -/
def State.switchTx (s : State) (k : Nat) (w : WidthCmd) : State :=
  let w := { w with switched := true }
  let old := s.streamLanes k
  let s := s.modLink k fun x => ({ x with width := some w } : Link).emit (.switch old (targetOf k) w.cmd (actionCode w.action)
    (w.lane + 256 * (if w.action = .replace then w.spare else 0xFF)))
  if k < 16 then s
  else ((s.modLPort ((k - 16) / 16) ((k - 16) % 16) fun y =>
    y.afterTx w.action w.lane w.spare).countDrop k w.action).oculusUpdate

/-- The transmitting side decides a change on a link that is up; it waits while another is in progress (R343). With the link
in training it is settled there. -/
def State.startWidth (s : State) (k : Nat) (a : WidthAction) (lane spare : Nat) : State :=
  if (s.link k).st ≠ 1 then s.settleTx k a lane spare
  else
    let r := (s.link k).numbered a lane spare
    match (s.link k).width with
    | none => (s.setLink k r.2).switchTx k r.1
    | some _ => s.setLink k { r.2 with waitWidth := r.2.waitWidth ++ [r.1] }

/-- The key of a dropped lane among a port's logged drops. -/
def dropKey (k : Nat) (tx : Bool) : Nat := 2 * k + b2n tx

/-- The ADDRESS of a lane's fault: direction, wavelength, port (Table 18-3). -/
def lambdaAddr (p k : Nat) (tx : Bool) : Nat := (b2n tx) * 2 ^ 12 + k * 2 ^ 8 + p

/-- A wavelength's width command on the transmit direction of each of some ports. -/
def State.eachPort (s : State) (l : Nat) (ports : List Nat) (a : WidthAction) (k : Nat) : State :=
  ports.foldl (fun s p => s.startWidth (portKey l p) a k 0xFF) s

/-- A wavelength dropped on all 16 transmit directions (R369). -/
def State.dropWave (s : State) (l k : Nat) : State := s.eachPort l allPorts .drop k

/-- The wavelength after one in turn, retired ones skipped. -/
def Lantern.waveAfter (x : Lantern) (k : Nat) : Nat :=
  (((List.range 16).map fun i => (k + 1 + i) % 16).find? fun j => x.sourceOf j != 3).getD k

/-- The next wavelength in turn (R364). -/
def Lantern.turn (x : Lantern) : Nat := if x.sourceOf x.nextGap = 3 then x.waveAfter x.nextGap else x.nextGap

/-- A wavelength retired (R369): nothing serves it, it stays dropped, a contained fault; below 8 wavelengths the Lantern
is fenced (R362). -/
def State.retireWave (s : State) (l k : Nat) : State :=
  let x := s.lan l
  let s := (s.dropWave l k).modLan l fun x => (x.modLaser (x.laserOf k) fun y => { y with
    st := 4, warn := false })
  let s := s.modLan l fun x => { x with source := tset 0 x.source k 3 }
  let s := (s.oculusUpdate).report (srcLantern l) .contained 0x06 k
  if x.waves.length ≤ 8 then s.fenceLantern l 0x06 else s

/-! ### Swaps and gaps (R364-R371) -/

/-- A free spare: A when it is free, else B (R368); `want` names one. -/
def Lantern.freeSpare (x : Lantern) (want : Option Nat) : Option Nat :=
  [0, 1].find? fun i => (x.laser (16 + i)).st == 0 && (want == none || want == some i)

/-- A swap begins (step 2 of Table 15-9): the spare is powered and tuned; none is free: `none`. -/
def State.beginSwap (s : State) (l k : Nat) (atOnce dropped forced : Bool) (want : Option Nat) : Option State :=
  match (s.lan l).freeSpare want with
  | none => none
  | some i => some (s.modLan l fun x => { x.modLaser (16 + i) fun y => { y with st := 3, target := k, warn := false } with
      swap := some ⟨k, i, atOnce, false, dropped, false, forced, []⟩ })

/-- LASER_SWAP commands for a wavelength are replied to. -/
def State.replySwap (s : State) (l k spare status : Nat) : State :=
  s.gal.waiters.foldl (fun s w => match w.kind with
    | .swap a b => if a = l ∧ b = k then (s.dropWaiter w.acc.id).reply w.acc status (spare + 256 * k) 0 0 else s
    | _ => s) s

/-- A swap for which no spare is free (R281, R369): at the forced threshold, or when a command waiting for it allows that,
the wavelength is retired; else it is carried again where it was dropped, and the commands end with NO_RESOURCE. -/
def State.noSpare (s : State) (l k : Nat) (forced dropped : Bool) : State :=
  let allowed : Bool := s.gal.waiters.any fun v => (match v.kind with
    | .swap a b => a == l && b == k
    | _ => false) && v.acc.par 20 1 == 1
  if forced || allowed then (s.retireWave l k).replySwap l k 0xFF stDegraded
  else (if dropped then s.eachPort l allPorts .add k else s).replySwap l k 0xFF stNoResource

/-- The first of the waiting wavelengths for which a spare is free begins its swap (R369, R370). -/
def State.swapNext (s : State) (l : Nat) : List (Nat × Bool) → State
  | [] => s
  | (k, forced) :: r =>
    let s := s.modLan l fun x => { x with swapQ := r }
    match s.beginSwap l k forced forced forced none with
    | some s => s
    | none =>
      let s := s.noSpare l k forced forced
      if (s.lan l).fenced then s else s.swapNext l r

/-- The next waiting wavelength's swap begins. -/
def State.nextSwap (s : State) (l : Nat) : State := s.swapNext l (s.lan l).swapQ

/-- A swap is complete (step 7): Oculus update, a corrected fault, the command's reply; the next one begins. -/
def State.finishSwap (s : State) (l : Nat) : State :=
  match (s.lan l).swap with
  | none => s
  | some w =>
    let s := s.modLan l fun x => ({ x with swap := none } : Lantern).count 4 1
    let s := (s.oculusUpdate).report (srcLantern l) .corrected 0x05 (w.wave + 256 * w.spare)
    (s.replySwap l w.wave w.spare stOK).nextSwap l

/-- The locked spare is switched into the tree (step 5): the laser it replaces is off for good. A port in training settles the
wavelength there. -/
def State.switchSpare (s : State) (l : Nat) (ports : List Nat) : State :=
  match (s.lan l).swap with
  | none => s
  | some w =>
    let s := s.modLan l fun x =>
      let x := x.modLaser (x.laserOf w.wave) fun y => { y with st := 4, warn := false }
      let x := x.modLaser (16 + w.spare) fun y => { y with st := 1, target := w.wave }
      { x with source := tset 0 x.source w.wave (1 + w.spare), swap := some { w with switched := true, ports := ports } }
    let s := s.eachPort l (allPorts.filter fun p => (s.link (portKey l p)).st != 1) .add w.wave
    if ports.isEmpty then s.finishSwap l else s

/-- A shell opening or a service drain keeps a swap's spare locked on the dump port (R371), until light is brought back. -/
def Lantern.swapHeld (x : Lantern) : Bool := x.shell != 0 && !x.restoring

/-- A swap outside any gap goes on: the wavelength dropped, and the spare switched in once locked (R369). With the ports
down it needs no width commands (R371). -/
def State.runSwap (s : State) (l : Nat) : State :=
  match (s.lan l).swap with
  | none => s
  | some w =>
    if w.switched then s
    else
      let s := if w.dropped then s else
        (s.dropWave l w.wave).modLan l fun x => { x with swap := some { w with dropped := true } }
      if w.locked && !(s.lan l).swapHeld then s.switchSpare l (s.upPorts l) else s

/-- A swap outside any gap that a drain held goes on, the drain abandoned (R371). -/
def State.releaseSwap (s : State) (l : Nat) : State :=
  match (s.lan l).swap with
  | none => s
  | some w => if w.atOnce then s.runSwap l else s

/-- A gap ends (step 5 of Table 15-8). -/
def State.endGap (s : State) (l : Nat) : State :=
  let s := s.modLan l fun x => ({ x with gap := none } : Lantern).count 3 1
  s.oculusUpdate

/-- A port's wavelength is back in use, or is no longer waited for: a gap or swap that waited for it goes on. -/
def State.portSettled (s : State) (l p k : Nat) : State :=
  let s : State := match (s.lan l).gap with
    | none => s
    | some g =>
      if g.wave ≠ k then s
      else
        let left := g.ports.filter (· ≠ p)
        if left.isEmpty then s.endGap l else s.modLan l fun x => { x with gap := some { g with ports := left } }
  match (s.lan l).swap with
  | none => s
  | some w =>
    if w.wave ≠ k ∨ !w.switched then s
    else
      let left := w.ports.filter (· ≠ p)
      let s := s.modLan l fun x => { x with swap := some { w with ports := left } }
      if left.isEmpty then s.finishSwap l else s

/-- A transmit wavelength is added again: within 1 s of its drop that is a corrected fault (R359, R360). -/
def State.reAdded (s : State) (l p k : Nat) : State :=
  match tget none ((s.lan l).port p).txDropped k with
  | none => s
  | some since =>
    let s := s.modLPort l p fun y => { y with
      txDropped := tset none y.txDropped k none, dropLogged := y.dropLogged.filter (· ≠ dropKey k true) }
    if s.now ≤ since + 10 ^ 9 then s.report (srcLantern l) .corrected 0x02 (lambdaAddr p k true) else s

/-- The transmitter takes a change that waited, an ADD with what waits for it (step 3 of Table 14-7, R359). -/
def State.takeTx (s : State) (k : Nat) (w : WidthCmd) : State :=
  let l := (k - 16) / 16
  let p := (k - 16) % 16
  let s := s.switchTx k w
  if k < 16 ∨ w.action ≠ .add then s
  else (s.reAdded l p w.lane).portSettled l p w.lane

/-- Whether a gap may start (R365): no gap, no drain, shell closed, no swap outside a gap, gaps not held off, lit. -/
def State.gapFree (s : State) (l : Nat) : Bool :=
  let x := s.lan l
  x.gap.isNone && x.shell == 0 && x.drain.isNone && x.gapMode == 0 && !x.fenced && !x.held && !x.stop &&
    decide (s.start.phase = .running) && !s.start.safe && decide (s.pwr.st ≤ 2) &&
    (match x.swap with
     | none => true
     | some w => !w.atOnce)

/-- A gap starts (steps 1-2 of Table 15-8): on the wavelength whose swap waits for it, out of turn, else on the next in
turn; a swap that is due takes place in it. -/
def State.startGap (s : State) (l : Nat) : State :=
  let x := s.lan l
  let due : Bool := match x.swap with
    | some w => w.locked && !w.switched
    | none => false
  let k := match x.swap with
    | some w => if due then w.wave else x.turn
    | none => x.turn
  let ports := s.upPorts l
  let s := (s.eachPort l ports .drop k).modLan l fun x => { x with
    gap := some ⟨k, ports, s.now⟩, gapLambda := k, gapStart := some s.now,
    nextGap := if due then x.nextGap else x.waveAfter k, gapAsked := false }
  let s := if due then s.switchSpare l ports else s
  if ports.isEmpty then s.endGap l else s

/-- Whether PERIOD_MS has passed since the last gap began, or a gap commanded during a hold waits for its end (R365, R366). -/
def State.gapDue (s : State) (l : Nat) : Bool := (s.lan l).gapAsked || match (s.lan l).gapStart with
  | none => true
  | some g => decide (g + (s.lan l).gapPeriod * 10 ^ 6 ≤ s.now)

/-- A hold of gaps is over: one that fell due during it runs (R365, R366). -/
def State.dueGap (s : State) (l : Nat) : State :=
  if s.gapFree l && s.gapDue l then (s.startGap l).oculusUpdate else s

/-- A port goes to KEEP_ALIVE or DARK: its link goes down and holds its traffic, and a gap on the Lantern ends (R365). -/
def State.dropPort (s : State) (l p light : Nat) (log : Bool) : State :=
  let k := portKey l p
  let st := (s.link k).st
  let s := if st = 1 ∨ st = 2 then s.linkDown k log else s
  let s := s.setLight l p light
  let s := match (s.lan l).gap with
    | none => s
    | some _ => s.endGap l
  match (s.lan l).swap with
  | none => s
  | some w => s.portSettled l p w.wave

/-- Every fibre of a Lantern goes to a light state. -/
def State.dropAll (s : State) (l light : Nat) (log : Bool) : State :=
  allPorts.foldl (fun s p => s.dropPort l p light log) s

/-- Fibres that are dark go to KEEP_ALIVE where the Lantern may carry light (R374). -/
def State.relight (s : State) (l : Nat) : State :=
  if s.canLight l then allPorts.foldl (fun s p =>
    if ((s.lan l).port p).light = lightDark then s.setLight l p lightKeep else s) s
  else s

/-- A swap with its spare locked whose ports are all down needs no width commands: the spare is switched in before the
first port comes up (R371). -/
def State.resumeSwap (s : State) (l : Nat) : State :=
  match (s.lan l).swap with
  | some w => if w.locked && !w.switched && (s.upPorts l).isEmpty then s.switchSpare l [] else s
  | none => s

/-! ### Drains (R381, R382) -/

/-- Every fibre of a Lantern is DARK. -/
def Lantern.dark (x : Lantern) : Bool := allPorts.all fun p => (x.port p).light == lightDark

/-- Shutters tested while the fibres are dark: one that fails fences its Lantern, with a contained fault (R362, R378). -/
def State.testShutters (s : State) (l : Nat) (shutters : List Nat) : State :=
  match badFibre shutters with
  | none => s
  | some f => if (s.lan l).fenced then s else (s.report (srcLantern l) .contained 0x08 f).fenceLantern l 0x08

/-- SERVICE_DRAIN commands of an action on a Lantern are replied to (R283). -/
def State.replyDrain (s : State) (l action status : Nat) : State :=
  s.gal.waiters.foldl (fun s w => match w.kind with
    | .drain a b => if a = l ∧ b = action then
        (s.dropWaiter w.acc.id).reply w.acc status (s.downMask l + 2 ^ 16 * (s.lan l).shell) 0 0 else s
    | _ => s) s

/-- A drain begins (step 2 of Table 15-13). A fibre on its way up goes no higher than DARK (R382). -/
def State.startDrain (s : State) (l : Nat) : State :=
  let s := s.modLan l fun x => { x with shell := 2, drain := some s.now, drainDone := false, restoring := false }
  (allPorts.foldl (fun s p =>
    let y := (s.lan l).port p
    if y.light = lightReady ∨ y.light = lightRamp then s.setLight l p lightDark else s) s).oculusUpdate

/-- Steps 5 and 6: the ports are taken down holding what is queued, every fibre dark, the drain is done. -/
def State.completeDrain (s : State) (l : Nat) : State :=
  let s := s.dropAll l lightDark false
  let s := (s.modLan l fun x => { x with drainDone := true }).oculusUpdate
  s.replyDrain l 0 stOK

/-- Light is brought back after a drain (step 10). -/
def State.startRestore (s : State) (l : Nat) : State :=
  (s.modLan l fun x => { x with restoring := true }).relight l

/-- Step 11: once every port that has a far end and a role is up, the shell is closed again. -/
def State.settleRestore (s : State) (l : Nat) : State :=
  let x := s.lan l
  let waiting := allPorts.filter fun p =>
    let y := x.port p
    let k := s.link (portKey l p)
    k.st != 1 && k.everUp && !y.takenDown
  if x.restoring && waiting.isEmpty then
    let s := (s.modLan l fun x => { x with shell := 0, drain := none, drainDone := false, restoring := false }).oculusUpdate
    (s.replyDrain l 1 stOK).dueGap l
  else s

end Sys2Proof.Machine
end

