-- ==== Sys2Proof/Machine/Domains.lean ====
section
/-! DEFINITION. Register domains and the configuration check (R202, R216-R219). -/

namespace Sys2Proof.Machine

/-- The domain of the die that receives a link: a bundle by its direction (Table 8-6), a port's by its side. -/
def lnkDomain (k : Nat) : Nat :=
  if k < 4 then 3 else if k < 10 then 2 else if k < 12 then 0 else if k < 14 then 3 else if k < 16 then 0
  else 2 + (k - 16) / 64

/-- The domain a block's registers lie in (Table 9-1). -/
def domainOf (b : Block) (inst : Nat) : Nat := match b with
  | .arr => 2 + inst % 2
  | .tst => 2 + inst % 2
  | .hbm => 2 + inst % 2
  | .lan => 4 + inst % 8
  | .lnk => lnkDomain inst
  | .sec => 1
  | .drm => 0
  | .fab => 0
  | .pwr => 0
  | .thm => 0
  | .flt => 0
  | .ocu => 0
  | .hst => 0
  | .hstQ => 0

/-- Whether a half is lost or its reset is asserted, which an orderly one is at step 6 of Table 20-6. -/
def State.halfOut (s : State) (h : Half) : Bool := decide ((s.arr.get h).half ≠ .inService) && !(s.arr.get h).preparing

/-- Whether a domain is in reset, lost or powered off (R203). -/
def State.domainDown (s : State) (d : Nat) : Bool :=
  if d = 2 then s.halfOut .west
  else if d = 3 then s.halfOut .east
  else if 4 ≤ d ∧ d < 12 then
    (s.lan (d - 4)).held || decide (s.pwr.st = 3) || s.halfOut (halfOf ((d - 4) / 4))
  else false

/-- A configuration register: its window offset and its value as it reads, the mask half zero. -/
def cfgReg (code inst off value : Nat) : Nat × Nat := ((Config.blockBase code inst).toNat + off, value)

/-- The configuration registers of one LNK_ block (Tables 13-9, 14-11). -/
def State.cfgLink (s : State) (k : Nat) : List (Nat × Nat) :=
  (if k < 16 then [cfgReg 6 k 0x010 (s.bundle k).ctrl] else []) ++ [cfgReg 6 k 0x110 (s.link k).ctrl]

/-- The configuration registers of a domain, in no order (the chapters of the blocks name them). -/
def State.cfgRegs (s : State) (d : Nat) : List (Nat × Nat) :=
  let links := ((List.range 144).filter fun k => lnkDomain k == d).flatMap s.cfgLink
  if d = 0 then
    (allParts.flatMap fun p => [cfgReg 13 p.val 0x004 (s.part p).slotQuota, cfgReg 13 p.val 0x008 (s.part p).guarantee,
      cfgReg 13 p.val 0x00C (s.part p).limit]) ++ [cfgReg 8 0 0x010 s.pwr.ctrl] ++ links
  else if d = 2 ∨ d = 3 then
    let h := halfOf (d - 2)
    [cfgReg 2 (d - 2) 0x020 (b2n (s.arr.get h).remapEn), cfgReg 4 (d - 2) 0x010 (s.hbm.get h).ctrl] ++ links
  else if 4 ≤ d ∧ d < 12 then [cfgReg 5 (d - 4) 0x010 (s.lan (d - 4)).ctrl]
  else []

/-- A register put into ascending address order. -/
def insertReg (x : Nat × Nat) : List (Nat × Nat) → List (Nat × Nat)
  | [] => [x]
  | y :: l => if x.1 < y.1 then x :: y :: l else y :: insertReg x l

/-- LIVE (R216). -/
def State.liveOf (s : State) (d : Nat) : Word :=
  crc32c (((s.cfgRegs d).foldl (fun l x => insertReg x l) []).flatMap fun x => leBytes 4 x.2)

/-- A domain's registers written and committed (R217, R219): a fresh scan is stored in REF and the check is armed. -/
def State.commitDomain (s : State) (d : Nat) : State :=
  let v := s.liveOf d
  s.modDom d fun x => { x with live := v, ref := v, armed := true, commitBusy := false }

/-- The links whose registers lie in a domain, in the order of `cfgRegs`. -/
def linksIn (d : Nat) : List Nat := (List.range 144).filter fun k => lnkDomain k == d

/-- The settings of links given, bundles' first. -/
def State.setLinks (s : State) : List Nat → List Nat → State
  | [], _ => s
  | k :: ks, v =>
    if k < 16 then ((s.modBundle k fun x => { x with ctrl := v.headD 0 }).modLink k fun x => { x with ctrl := v.getD 1 0 }).setLinks
      ks (v.drop 2)
    else (s.modLink k fun x => { x with ctrl := v.headD 0 }).setLinks ks v.tail

/-- The configuration registers of a half's or a Lantern's domain set, in the order of `cfgRegs`. -/
def State.setCfg (s : State) (d : Nat) (v : List Nat) : State :=
  if d = 2 ∨ d = 3 then
    let h := halfOf (d - 2)
    (((s.modArr h fun x => { x with remapEn := decide (v.headD 0 = 1) }).modHbm h fun x => { x with ctrl := v.getD 1 0 }).gateFar
      h).setLinks (linksIn d) (v.drop 2)
  else if 4 ≤ d ∧ d < 12 then s.modLan (d - 4) fun x => { x with ctrl := v.headD 0 }
  else s

/-- Their reset values (Tables 2-14, 6-12, 13-9, 14-12, 15-17). -/
def cfgResets (d : Nat) : List Nat :=
  if d = 2 ∨ d = 3 then [1, 0x103] ++ (linksIn d).flatMap fun k => (if k < 16 then [Bundle.init.ctrl] else []) ++ [(linkInit k).ctrl]
  else [Lantern.init.ctrl]

/-- A domain is reset: it comes back open, its configuration registers at their reset values; Gallery keeps what they held
(R219). What is no configuration register, as ARR_SENT_SEL, the sentinels' readings and the wave counts, keeps its value over a
reset of its half (DESIGN CHOICE, notes/assumptions, row 105). -/
def State.openDomain (s : State) (d : Nat) : State :=
  let s := if (tget [] s.drm.kept d).isEmpty then
      { s with drm := { s.drm with kept := tset [] s.drm.kept d ((s.cfgRegs d).map (·.2)) } } else s
  (s.setCfg d (cfgResets d)).modDom d fun x => { x with armed := false, commitBusy := false }

/-- A domain's warm start: Gallery writes its configuration registers again and commits them (R219). The manual does not say
with which values: those they held before the reset (DESIGN CHOICE, notes/assumptions, row 85). -/
def State.restoreDomain (s : State) (d : Nat) : State :=
  let v := tget [] s.drm.kept d
  let s := if v.isEmpty then s else
    ({ s with drm := { s.drm with kept := tset [] s.drm.kept d [] } } : State).setCfg d v
  s.commitDomain d

/-- A setting that Gallery changes on another's behalf (R217): where the check is open, the commit is left to the
steward. -/
def State.galleryCommit (s : State) (d : Nat) (f : State → State) : State :=
  if (s.dom d).armed then (f s).commitDomain d else f s

end Sys2Proof.Machine
end

