-- ==== Sys2Proof/Machine/Aperture.lean ====
section
/-! DEFINITION. Goard's counts and what BAR2 accesses do (R226, R227, R232, R497, R528), and what an endpoint's configuration
space reads (R223, R235). -/

namespace Sys2Proof.Machine

/-! ### Goard's counts (R226, R232, R528) -/

/-- A dropped write or an unmapped BAR2 access counted against the partition that made it. -/
def State.goard (s : State) (p : Fin 4) (unmapped : Bool) : State :=
  let w := s.now / 10 ^ 9
  s.modPart p fun x =>
    let x := if x.rateWindow = w then x else { x with rateWindow := w, rateDropped := 0, rateUnmapped := 0 }
    if unmapped then { x with unmapped := satTo 65535 (x.unmapped + 1), rateUnmapped := x.rateUnmapped + 1 }
    else { x with dropped := satTo 65535 (x.dropped + 1), rateDropped := x.rateDropped + 1 }

/-- The source ID of a host port (Table 18-2). -/
def srcPort (p : Fin 4) : Nat := 0x010 + p.val

/-! ### BAR2 (R226, R227, R497) -/

/-- Bytes of the aperture. -/
def apertureBytes : Nat := 64 * 2 ^ 30

/-- The bus answers with Unsupported Request. -/
def State.answerUnsupported (s : State) : State := { s with bus := ⟨0, [], true, false, false⟩ }

/-- The bus answers with bytes. -/
def State.answerBytes (s : State) (bs : List Byte) (poison : Bool) : State :=
  { s with bus := ⟨BitVec.ofNat 32 (ofLe (bs.take 4)), bs, false, poison, false⟩ }

/-- The partition address of an aperture offset (R226). -/
def State.barAddr (s : State) (p : Fin 4) (off : Nat) : Nat := (s.part p).bar2 * 2 ^ 21 + off

/-- A BAR2 read served: unmapped addresses are counted and answered with Unsupported Request, a half that is away answers
with poisoned data, lost words poison the completion. -/
def State.barRead (s : State) (p : Fin 4) (a len : Nat) : State :=
  if len = 0 ∨ !s.mappedRange p a len then (s.goard p true).answerUnsupported
  else if (s.halvesMissing (s.homesOf p a len)).isSome then s.answerBytes [] true
  else
    let s := s.settlePart p a len
    s.answerBytes (s.partRead p a len) (!(s.partPoison p a len).isEmpty)

/-- A BAR2 write carried out: dropped where unmapped or when its half is lost. -/
def State.barWrite (s : State) (p : Fin 4) (a : Nat) (bs : List Byte) : State :=
  if bs.isEmpty then s
  else if !s.mappedRange p a bs.length then s.goard p true
  else if (s.homesOf p a bs.length).any fun h => decide ((s.arr.get h).half = .lost) then s
  else s.partWrite p a bs

/-- Whether a BAR2 write has to wait for a half under reset. -/
def State.barWaits (s : State) (p : Fin 4) (a len : Nat) : Bool := s.halvesMissing (s.homesOf p a len) == some false

/-- An access held behind those of its endpoint. -/
def State.holdBar (s : State) (x : HeldBar) : State := { s with barHeld := s.barHeld ++ [x] }

/-- Held BAR2 accesses are carried out, each endpoint's in order, up to its first whose half is still under reset (R227,
R497). -/
def State.releaseBar (s : State) : State :=
  s.barHeld.foldl (fun s x =>
    let blocked := s.barHeld.any fun y => y.port == x.port
    match x.bytes with
    | none => if blocked then s.holdBar x else s.barRead x.port x.addr x.len
    | some bs => if blocked || s.barWaits x.port x.addr x.len then s.holdBar x else s.barWrite x.port x.addr bs)
    { s with barHeld := [] }

/-- Whether an endpoint has accesses held. -/
def State.barPending (s : State) (p : Fin 4) : Bool := s.barHeld.any fun x => x.port == p

/-! ### Configuration space (R223) -/

/-- The capabilities of Table 10-2; the list names no other. -/
inductive Capability where
  | pciExpress | powerManagement | msix | advancedErrors | serialNumber | secondaryPcie | dataLinkFeature
  | physical16 | physical32 | physical64 | laneMargining | device3 | flitLogging | dataObjectExchange
deriving DecidableEq, Repr

/-- A base address register pair: its size in bytes and whether it is prefetchable; every one is a 64-bit memory BAR. -/
structure Bar where
  size : Nat
  prefetchable : Bool
deriving DecidableEq, Repr

/-- What a function's configuration space holds of Table 10-2. -/
structure CfgSpace where
  vendor : Hword
  device : Hword
  classCode : BitVec 24
  revision : Byte
  subVendor : Hword
  subsystem : Hword
  bars : List Bar
  maxPayload : Nat
  maxReadRequest : Nat
  tagBits : List Nat
  relaxedOrdering : Bool
  idOrdering : Bool
  functionReset : Bool
  aspm : Bool
  powerStates : List Nat
  powerState : Nat
  vectors : Nat
  msixTable : Nat
  msixPending : Nat
  serial : Dword
  doeProtocols : List Nat
  capabilities : List Capability
deriving DecidableEq, Repr

/-- Bytes of BAR0. -/
def bar0Bytes : Nat := 64 * 2 ^ 20

/-- The configuration space of an endpoint (Table 10-2); the subsystem's numbers are flash's, when it holds any. -/
def State.cfgSpace (s : State) (p : Fin 4) : CfgSpace :=
  let sub := s.start.flashSubsystem.getD (0x1F3D, 0x0001)
  { vendor := 0x1F3D, device := 0x2480, classCode := 0x120000, revision := (s.dieFuses 2).stepping, subVendor := sub.1,
    subsystem := sub.2, bars := [⟨bar0Bytes, false⟩, ⟨apertureBytes, true⟩], maxPayload := 512, maxReadRequest := 4096,
    tagBits := [10, 14], relaxedOrdering := true, idOrdering := true, functionReset := true, aspm := false,
    powerStates := [0, 3], powerState := if (s.port p).d3 then 3 else 0, vectors := 32, msixTable := 0xF0000,
    msixPending := 0xF8000, serial := (s.dieFuses 2).serial, doeProtocols := [0, 1],
    capabilities := [.pciExpress, .powerManagement, .msix, .advancedErrors, .serialNumber, .secondaryPcie, .dataLinkFeature,
      .physical16, .physical32, .physical64, .laneMargining, .device3, .flitLogging, .dataObjectExchange] }

/-- A configuration read: Request Retry Status (`none`) while a reset of the partition is in progress (Table 10-16). -/
def State.cfgRead (s : State) (p : Fin 4) : Option CfgSpace := if (s.part p).resetting then none else some (s.cfgSpace p)

/-- A configuration request that would have an effect: answered with Request Retry Status, and without it, while a reset of
the partition is in progress (Table 10-16, steps 1 and 6). -/
def State.cfgRequest (s : State) (p : Fin 4) (f : State → State) : State :=
  if (s.part p).resetting then { s with bus := ⟨0, [], false, false, true⟩ } else f s

end Sys2Proof.Machine
end

