-- ==== Sys2Proof/Machine/Words.lean ====
section
/-! DEFINITION. The detail words of replies, and what the records show of Lanterns, heat and lanes (R258, R280-R293). -/

namespace Sys2Proof.Machine

/-! ### Lanterns -/

/-- PARAPET: no fibre of a Lantern is in FULL. -/
def Lantern.parapet (x : Lantern) : Bool := allPorts.all fun p => (x.port p).light != lightFull

/-- The SPARE entry of a Lantern (Tables 8-7, 15-9): it becomes the wavelength only with step 7's update. -/
def Lantern.spareEntry (x : Lantern) (i : Nat) : Nat :=
  let y := x.laser (16 + i)
  if y.st = 4 then 0xFF
  else if y.st = 2 then 0x80
  else if y.st = 1 then (match x.swap with
    | some w => if w.spare = i then 0x80 else y.target
    | none => y.target)
  else 0x40

/-- Wavelengths whose laser is at warning. -/
def Lantern.fadeMask (x : Lantern) : Nat := maskOf ((List.range 16).filter fun k => (x.laser (x.laserOf k)).warn)

/-- What SERVICE_DRAIN replies with. -/
def State.drainDetail (s : State) (l : Nat) : Nat := s.downMask l + 2 ^ 16 * (s.lan l).shell

/-- One byte of a record. -/
def byteOf (n : Nat) : Byte := BitVec.ofNat 8 n

/-- The body of a LANTERN record (Table 8-7). -/
def State.lanternBody (s : State) (l : Nat) : List Byte :=
  let x := s.lan l
  [byteOf x.shell, byteOf (b2n x.parapet), byteOf (x.spareEntry 0), byteOf (x.spareEntry 1)] ++
    leBytes 2 (maskOf (s.upPorts l)) ++ leBytes 2 (maskOf x.waves)

/-! ### Heat -/

/-- The hottest valid sensor of a die, in 1/16 degrees; none before the first sample. -/
def DieTh.hottest (d : DieTh) : Option Int :=
  (List.zip (List.range d.temps.length) d.temps).foldl (fun (m : Option Int) (i, v) =>
    if d.broken.contains i then m else match m with
      | none => some v
      | some w => some (max v w)) none

/-- Temperature as a 16-bit field of an ADDRESS. -/
def temp16 (v : Int) : Nat := codeOf 16 v

/-- A signed 16-bit field, 0x8000 where there is no value. -/
def temp16? (v : Option Int) : Nat := match v with
  | some x => temp16 x
  | none => 0x8000

/-- A die is off: a Lantern in P3. -/
def State.dieOff (s : State) (d : Nat) : Bool := decide (3 ≤ d) && decide (s.pwr.st = 3)

/-- Sensors of a die (R423). -/
def sensorsOf (die : Nat) : Nat := if die < 2 then 64 else if die = 2 then 16 else 8

/-- A sensor's reading a span ago: that of the newest sample at least as old. -/
def DieTh.past (d : DieTh) (now span i : Nat) : Option Int :=
  (d.history.find? fun e => decide (e.1 + span ≤ now)).bind fun e => e.2[i]?

/-- Valid sensors of a die. -/
def DieTh.valid (d : DieTh) (die : Nat) : List Nat :=
  (List.range (min (sensorsOf die) d.temps.length)).filter fun i => !d.broken.contains i

/-- A sensor's rise over 2 ms, in 1/16 degrees: twice its rate per ms (R426). -/
def DieTh.rise2 (d : DieTh) (now i : Nat) : Int := match d.past now 2000000 i with
  | some v => d.temps.getD i 0 - v
  | none => 0

/-- The largest rise over 2 ms of the valid sensors. -/
def DieTh.maxRise2 (d : DieTh) (die now : Nat) : Int := match (d.valid die).map (d.rise2 now) with
  | [] => 0
  | x :: r => r.foldl max x

/-- A Spire is at its throttle level, or sends no telemetry and is treated so (R412, R425). -/
def State.atThrottle (s : State) (d : Nat) : Bool := decide (d < 2) && ((s.die d).throttle || (s.die d).lost)

/-- The level of a die: 0 below warn, 1 warn, 2 throttle, 3 rate of rise, 4 orderly stop. -/
def State.dieLevel (s : State) (d : Nat) : Nat :=
  let x := s.die d
  if s.dieOff d then 0
  else if x.stop || (decide (3 ≤ d) && (s.lan (d - 3)).stop) then 4
  else if x.rise then 3
  else if s.atThrottle d then 2
  else b2n x.warn

/-- The hottest valid sensor of a die that is on. -/
def State.dieHottest (s : State) (d : Nat) : Option Int := if s.dieOff d then none else (s.die d).hottest

/-- The largest rate of rise of a die in 1/16 degrees per ms (R426). -/
def State.dieRise (s : State) (d : Nat) : Int := (s.die d).maxRise2 d s.now / 2

/-! ### Lanes -/

/-- The figure of merit that a lane reads: 0 while its bundle is asleep. -/
def Bundle.fomOf (x : Bundle) (i : Nat) : Nat := if x.txAsleep then 0 else (tget Lane.init x.lanes i).fom

/-- The code of a security state (Table 8-4). -/
def SecState.code : SecState → Nat
  | .factory => 0
  | .locked => 1
  | .observe => 2
  | .control => 3
  | .terminated => 4

/-! ### Detail words (chapter 12) -/

/-- LANTERN_STATUS's (R280). -/
def State.lanternWords (s : State) (l : Nat) : Nat × Nat × Nat :=
  (le (s.lanternBody l) 0 4, le (s.lanternBody l) 4 4, (s.lan l).fadeMask + 2 ^ 16 * temp16? (s.die (3 + l)).hottest)

/-- THERM_STATUS's (R285). -/
def State.thermWords (s : State) (d : Nat) : Nat × Nat × Nat :=
  let x := s.die d
  (temp16? (s.dieHottest d) + 2 ^ 16 * s.dieLevel d,
    temp16 (s.dieRise d) + 2 ^ 16 * (x.broken.length % 256) + 2 ^ 24 * b2n x.conservative, 0)

/-- LANE_FOM_READ's (R293). -/
def State.fomWords (s : State) (b i : Nat) : Nat × Nat × Nat :=
  let x := s.bundle b
  let y := tget Lane.init x.lanes i
  (packBits [(0, x.fomOf i), (8, y.ctle), (12, x.speed), (16, b2n (decide (y.role = .service))),
    (17, b2n (decide (y.role = .spare))), (18, b2n (decide (y.role = .failed))), (19, b2n x.txAsleep), (20, b2n x.rxAsleep)], 0, 0)

/-- The report that a DIGEST_READ names; of a slot closed since the command was accepted there is none. -/
def State.reportRead (s : State) (a : Acc) : Option Report :=
  if a.par 16 1 = 1 then (if a.closed then none else (s.slot a.slotField).report)
  else tget none s.eng.reports (listKey a.part (a.par 17 1))

/-- The detail words of an accepted command that ends without its effect, as the block then stands: an entry's words apply to
every reply from acceptance on (R258); those it gives for OK alone are zero. -/
def State.endWords (s : State) (a : Acc) : Nat × Nat × Nat :=
  let op := a.opcode
  let p := a.par
  let sl := s.slot a.slotField
  if op = 0x0110 then (s.pwr.st, 0, 0)
  else if op = 0x0302 then (if a.closed then (0, 0, 0) else (sl.commit, 0, 0))
  else if op = 0x0311 then
    (if a.closed then (0, 0, 0) else (sl.commit, sl.gen.toNat + 2 ^ 16 * b2n (decide (a.mark < sl.commits)), 0))
  else if op = 0x0402 then (a.mark, 0, 0xFFFFFFFF)
  else if op = 0x0410 then (b2n (s.reportRead a).isSome, 0, 0)
  else if op = 0x0510 then (s.portEntry (p 16 1) (p 17 1), 0, 0)
  else if op = 0x0601 then s.lanternWords (p 16 1)
  else if op = 0x0610 then (0xFF + 256 * p 17 1, 0, 0)
  else if op = 0x0620 then ((s.lan (if p 16 1 = 0xFF then 0 else p 16 1)).gapPeriod, 0, 0)
  else if op = 0x0630 then (s.drainDetail (p 16 1), 0, 0)
  else if op = 0x0701 then (s.pwr.cap, s.pwr.measured, 0)
  else if op = 0x0710 then s.thermWords (p 16 1)
  else if op = 0x0801 then (0, p 16 4, 0)
  else if op = 0x0910 then (16 * s.sec.st.code, 0, 0)
  else if op = 0x0920 then match s.sec.session with
    | some x => (x.slot, x.received, 0)
    | none => (1 - s.sec.runSlot, 0, 0)
  else if op = 0x0A10 then ((tget Lane.init (s.bundle (p 16 1)).lanes (p 17 1)).slip, 0, 0)
  else if op = 0x0A20 then s.fomWords (p 16 1) (p 17 1)
  else (0, 0, 0)

/-- An accepted command ended without its effect. -/
def State.endCommand (s : State) (a : Acc) (status : Nat) : State :=
  let w := s.endWords a
  s.reply a status w.1 w.2.1 w.2.2

/-- A command that waits ended: a power transition and a cap keep what they replaced (R263, R284). -/
def State.endWaiter (s : State) (w : Waiter) (status : Nat) : State := match w.kind with
  | .power _ prev susp cancelled => s.reply w.acc status prev susp cancelled
  | .cap prev => s.reply w.acc status prev s.pwr.measured 0
  | _ => s.endCommand w.acc status

end Sys2Proof.Machine
end

