-- ==== Sys2Proof/Machine/Halves.lean ====
section
/-! DEFINITION. What the loss or reset of a half does, and the safe state (R46, R311, R457, R497-R502). -/

namespace Sys2Proof.Machine

/-- The source ID of a half (Table 18-2). -/
def srcHalf (h : Half) : Nat := 0x040 + halfNo h

/-- The source ID of an array. -/
def srcArray (h : Half) : Nat := 0x042 + halfNo h

/-- The bundles that end in a half: the eight half-to-half ones and its four hub-to-half ones (Table 8-6). -/
def bundlesOf (h : Half) : List Nat := List.range 8 ++ (List.range 4).map (· + 8 + 4 * halfNo h)

/-! ### Runs that end before their last operation -/

/-- The group of the collective that a run has in hand, when it has one (R406). -/
def Run.collective (r : Run) : Option Nat :=
  match r.fence with
  | some f => if f.mode = 2 then some f.group else none
  | none => match r.cur with
    | some o => if o.desc.group = 0 then none else some o.desc.group
    | none => (r.sentTo.find? fun x => x.1 == r.index).map (·.2)

/-- An abandoned collective's group becomes spent (R406). -/
def State.spend (s : State) (r : Run) : State :=
  match r.collective with
  | none => s
  | some g => s.spendGroups { r with groups := r.groups.filter fun x => x.group == g }

/-- The digests of a slot's drafter tiles already written in the operation in flight, in its drafter digest (R180). -/
def State.bankSlot (s : State) (o : OpFlight) (i : Nat) : State :=
  s.modSlot i fun x => { x with draftDigest := x.draftDigest + tget 0 o.slots i }

/-- The operation in flight is given up: the tiles of it that are written stand in the digests, the others enter nothing
(R180). -/
def State.giveUp (s : State) (r : Run) : State × Run :=
  match r.cur with
  | none => (s, r)
  | some o => match r.draft with
    | some dr => (o.slots.foldl (fun s e => s.bankSlot o e.1) s,
        { r with cur := none, draft := some { dr with digest := dr.digest + o.digest } })
    | none => (s, { r with
        cur := none, digest := r.digest + o.digest, markDigest := r.markDigest + o.digest,
        slotDigest := o.slots.foldl (fun m e => tmod 0 m e.1 (· + e.2)) r.slotDigest })

/-- A run abandoned: its collective spent, its steps and its command replied to with a status (R108, R406). The waves of an
operation that does not reach its boundary are added to no count (DESIGN CHOICE, notes/assumptions, row 80). -/
def State.abandonRun (s : State) (r : Run) (status : Nat) : State :=
  let x := (s.spend r).giveUp r
  x.1.endRun { x.2 with fence := none } status

/-- A slot's queued steps replied to with a status. -/
def State.endSteps (s : State) (i status flags : Nat) : State :=
  (s.slot i).steps.foldl (fun s q => s.dropStep i q status flags) s

/-- Every slot that holds a conversation becomes LOST, its queued steps replied to with LOST (R111, R500). -/
def State.loseSlots (s : State) : State :=
  allSlots.foldl (fun s i =>
    let x := s.slot i
    if x.st = .free ∨ x.st = .lost then s
    else (s.endSteps i stLost 0).modSlot i fun x => { x with
      st := .lost, steps := [], tent := x.commit, drafts := [], fedNow := 0 }) s

/-- The run in flight ends with LOST and every slot becomes LOST (R500). -/
def State.loseWork (s : State) : State :=
  let s := match s.eng.run with
    | some r => s.abandonRun r stLost
    | none => s
  s.loseSlots

/-! ### Links and Lanterns of a half that goes away -/

/-- A link after a reset of a half's die (R336, R500): its engines in that die are initialised, so it starts afresh; what a
transmitter there held is discarded, a port's counted. A transmitter elsewhere holds its flits until the fresh start, when it
discards them, but the Drum discards at once what it has not begun to send; what a receiver elsewhere has taken in stays. The
link keeps its role. -/
def State.freshLink (s : State) (h : Half) (k : Nat) : State :=
  let x := s.link k
  let lost := (x.queue.map (·.no) ++ x.unacked.map (·.msg)).eraseDups.length
  let y : Link := { linkInit k with
    st := if x.st = 4 then 4 else 0, everUp := x.everUp, gen := x.gen, farGen := x.farGen, ctrl := x.ctrl,
    counts := x.counts, nextMsg := x.nextMsg }
  let y := if txDie k = some h then y else { y with
    queue := if txDie k = none then x.queue.filter (·.started) else x.queue, unacked := x.unacked, nextTx := x.nextTx }
  let y := if rxDie k = some h then y else { y with
    nextRx := x.nextRx, taken := x.taken, freed := x.freed, rxPart := x.rxPart, rxMoved := x.rxMoved, rxDone := x.rxDone, rxHeld := x.rxHeld }
  let s := s.setLink k y
  if 16 ≤ k then s.countFab 6 lost else s

/-- A Lantern is held in reset, dark, its register domain open (R219, R496). -/
def State.holdLantern (s : State) (l : Nat) (log : Bool) : State :=
  let s := (s.dropAll l lightDark log).openDomain (4 + l)
  s.modLan l fun x => { x with held := true }

/-- The commands that wait for a half to return end with FAULTED (R497). -/
def State.failHalfWaits (s : State) : State :=
  s.gal.waiters.foldl (fun s w => match w.kind with
    | .memHalf => (s.dropWaiter w.acc.id).reply w.acc stFaulted 0 0 0
    | _ => s) s

/-- A half is declared lost (R46, R501): the run and the slots are lost, its links and Lanterns go away, commands that
wait for it end, HALF_LOST is issued with the source of the cause after the Oculus update; BAR2 accesses held for it are
released (R227, R497). -/
def State.loseHalf (s : State) (h : Half) (cause : Nat) : State :=
  if (s.arr.get h).half = .lost then s
  else
    let s := s.loseWork.clearFar
    let s := (s.modArr h fun x => { x with half := .lost, preparing := false, bound := [] }).openDomain (2 + halfNo h)
    let s := (lansOf h).foldl (fun s l => allPorts.foldl (fun s p => s.freshLink h (portKey l p)) (s.holdLantern l false)) s
    let s := (bundlesOf h).foldl (fun s b => (s.freshLink h b).modBundle b fun x => if x.st = 2 then x else { x with st := 0 }) s
    let s := { s with start := { s.start with wasLost := true } }
    ((s.failHalfWaits.oculusUpdate).report (srcHalf h) .fatal 1 cause).releaseBar

/-- An abrupt reset of a half begins (R500): everything in flight in it is lost. -/
def State.abruptHalf (s : State) (h : Half) (cause : Nat) : State :=
  if (s.arr.get h).half = .lost ∨ (s.arr.get h).half = .abrupt then s
  else
    let s := s.loseWork.clearFar
    let s := (s.modArr h fun x => { x with half := .abrupt, preparing := false, resetSince := s.now, resetCause := cause }).openDomain (2 + halfNo h)
    let s := (lansOf h).foldl (fun s l => allPorts.foldl (fun s p => s.freshLink h (portKey l p)) (s.holdLantern l false)) s
    let s := (bundlesOf h).foldl (fun s b => (s.freshLink h b).modBundle b fun x => if x.st = 2 then x else { x with st := 0 }) s
    (s.oculusUpdate).report (srcHalf h) .contained 2 cause

/-- Steps 5 and 6 of an orderly reset (Table 20-6): the half's HBM keeps its contents in self-refresh, its links keep their
state and hold their traffic, the far caches are invalidated (R164). -/
def State.assertHalf (s : State) (h : Half) : State :=
  let s := (s.clearFar.modArr h fun x => { x with preparing := false }).openDomain (2 + halfNo h)
  let s := s.modHbm h fun x => { x with selfRefresh := true }
  let s := (lansOf h).foldl (fun s l => s.holdLantern l false) s
  let s := (bundlesOf h).foldl (fun s b =>
    if (s.link b).st = 1 ∨ (s.link b).st = 2 then s.linkDown b false else s) s
  s.oculusUpdate

/-- Whether every link to a half's die has nothing unacknowledged (R336); a fenced one's flits move to a sibling by its FENCE_NOTE. -/
def State.linksQuiet (s : State) (h : Half) : Bool :=
  (bundlesTo h).all fun b => (s.link b).unacked.isEmpty

/-- An orderly reset of a half begins (R498): the operation in flight is held for it. The reset itself waits until the links
to the half have nothing unacknowledged (R336). -/
def State.orderlyHalf (s : State) (h : Half) (cause : Nat) : State :=
  let s := match s.eng.run with
    | none => s
    | some r => s.setRun (some { r with early := [], ahead := ⟨[], []⟩, cur := r.cur.map fun (o : OpFlight) => { o with pausedFor := some h } })
  let s := (s.modArr h fun x => { x with half := .orderly, preparing := true, resetSince := s.now, resetCause := cause }).oculusUpdate
  if s.linksQuiet h then s.assertHalf h else s

/-- Orderly resets whose links have come to rest go on (R336). -/
def State.settleOrderly (s : State) : State :=
  allHalves.foldl (fun s h => if (s.arr.get h).preparing && s.linksQuiet h then s.assertHalf h else s) s

/-- Whether the fenced bundles, and one more when named, cut a half off (R311): both hub-to-half bundles into or out of it,
or, for Spire East, all four half-to-half bundles of a direction. -/
def State.cutOff (s : State) (more : Option Nat) (h : Half) : Bool :=
  let fenced (l : List Nat) : Bool := l.all fun b => (s.bundle b).st == 2 || more == some b
  fenced [8 + 4 * halfNo h, 9 + 4 * halfNo h] || fenced [10 + 4 * halfNo h, 11 + 4 * halfNo h] ||
    (h == .east && (fenced [0, 1, 2, 3] || fenced [4, 5, 6, 7]))

/-- A half that the fenced bundles cut off is lost (R311). -/
def State.settleBundles (s : State) (cause : Nat) : State :=
  let west := s.cutOff none .west
  let east := s.cutOff none .east
  let s := if west then s.loseHalf .west cause else s
  if east then s.loseHalf .east cause else s

/-- A bundle fenced (R309, R311, R337): its link holds its flits until its receiver's FENCE_NOTE moves them; the Oculus
table first, then BUNDLE_FENCED with the lanes that are good. -/
def State.fenceBundle (s : State) (b good : Nat) : State :=
  if (s.bundle b).st = 2 then s
  else
    let s := s.modBundle b fun x => { x with st := 2 }
    let s := s.modLink b fun x =>
      ({ x with
        st := 4, replayAt := none, hello := false, width := none, waitWidth := [], rxWidth := none,
        rxWait := [] } : Link).block b 9 x.nextRx 0 0
    ((s.oculusUpdate).report (srcLink b) .contained 3 good).settleBundles (srcLink b)

/-! ### The safe state (R457, R458) -/

/-- Every outstanding step replied to with LOST and every other outstanding command with FAULTED (Table 18-5, step 4). -/
def State.failCommands (s : State) : State :=
  let s := match s.eng.run with
    | some r => s.abandonRun r (if r.acc.isSome then stFaulted else stLost)
    | none => s
  let s := (s.endComing stLost 0).loseSlots
  let s := s.eng.waiting.foldl (fun s q => s.reply q.acc stFaulted q.number 0 0xFFFFFFFF) s
  let s := s.modEng fun e => { e with waiting := [] }
  let s := s.gal.waiters.foldl (fun s w => s.endWaiter w stFaulted) s
  let s := s.gal.accepted.foldl (fun s a => s.endCommand a stFaulted) s
  let s := s.gal.keepQ.foldl (fun s a => s.reply a stFaulted 0 0 0) s
  { s with gal := { s.gal with accepted := [], keepQ := [], waiters := [] } }

/-- After an abrupt reset every data word of the half holds zero, poisoned (R500), and so it is taken to be where the contents are
declared lost (R457; DEDUCED, notes/assumptions, row 103); frames in no use are zeroed before they are mapped (R167), so theirs are
not listed. -/
def State.poisonHalf (s : State) (h : Half) : State :=
  let word (w : Nat) : Bool := decide (dpaHalf (8 * w) = h)
  let used := (s.hbm.get h).use.filter fun e => match e.2 with
    | .mapped _ _ => true
    | .kv _ _ => true
    | _ => false
  let m := s.mem
  { s with mem := { m with
    cells := m.cells.filter fun e => dpaHalf e.1 != h,
    poison := m.poison.filter fun e => !word e.1,
    upset := m.upset.filter fun e => !word e.1,
    badLoc := m.badLoc.filter fun e => !word e.1,
    fpoison := tinsertAll (m.fpoison.filter fun e => decide (e.1 / halfFrames ≠ halfNo h))
      (used.map fun e => (dpaFrame h e.1, true)) } }

/-- The device enters the safe state (R457): no runs, all work ended, fibres dark, links down, arrays off, HBM in
self-refresh, its contents lost, power reading P3; `noFetch` when Gallery or the Drum caused it, so that no queue is fetched (R458). -/
def State.safeState (s : State) (noFetch : Bool) : State :=
  if s.start.safe then s
  else
    let s := { s with start := { s.start with safe := true, safeNoFetch := noFetch, safeAt := s.now } }
    let s := s.failCommands
    let s := allLans.foldl (fun s l => s.dropAll l lightDark false) s
    let s := (s.modHbm .west fun x => { x with selfRefresh := true }).modHbm .east fun x => { x with selfRefresh := true }
    let s := allHalves.foldl (fun s h => s.modArr h fun a => { a with target := 0 }) s
    let s := { s with pwr := { s.pwr with st := 3, volts := ⟨0, 0⟩, goal := none }, eng := { s.eng with hold := false } }
    (((s.poisonHalf .west).poisonHalf .east).clearFar).oculusUpdate

end Sys2Proof.Machine
end

