-- ==== Sys2Proof/Machine/Lanes.lean ====
section
/-! DEFINITION. The serial lanes of the bundles: training, failures, spares, sleep; width commands of bundles and ports;
time blocks; UCIe modules (chapter 13, R339-R343). -/

namespace Sys2Proof.Machine

/-- LANES_BUILT of a bundle (R295). -/
def lanesBuilt (b : Nat) : Nat := if b < 8 then 64 else 32

/-- Physical lanes of a bundle. -/
def lanesOf (b : Nat) : Nat := if b < 8 then 68 else 34

/-- A physical lane. -/
def Bundle.lane (x : Bundle) (i : Nat) : Lane := tget Lane.init x.lanes i

/-- A physical lane changed. -/
def Bundle.modLane (x : Bundle) (i : Nat) (f : Lane → Lane) : Bundle := { x with lanes := tmod Lane.init x.lanes i f }

/-- The lanes with a role, in ascending order. -/
def Bundle.withRole (x : Bundle) (r : LaneRole) : List Nat := (x.lanes.filter fun e => e.2.role == r).map (·.1)

/-- W (R295). -/
def Bundle.width (x : Bundle) : Nat := (x.withRole .service).length

/-- Lanes ordered by figure of merit, highest first, lower physical number first among equals (R305). -/
def byFom (foms : List Nat) : List Nat :=
  (List.range foms.length).foldl (fun l i => insertById (fun j => 256 - foms.getD j 0) i l) []

/-- Logical lanes bound to the lanes in service in ascending physical order. -/
def Bundle.rebind (x : Bundle) : Bundle :=
  let on := x.withRole .service
  (List.zip (List.range on.length) on).foldl (fun x (n, i) => x.modLane i fun y => { y with logical := n }) x

/-- SLIP_POS at which the slip search from a position ends on the word that a lane delivers, when it matches; a search that
does not has slipped 64 times and ends where it began (R304). -/
def slipFound (word : Option (BitVec 64)) (pos : Nat) : Option Nat := word.bind fun w => bitslipSearch 64 w pos

/-- The skew in blocks that a receiver can remove (R298). -/
def maxSkew : Nat := 8

/-- The figures of merit of a lane's equaliser codes. -/
def LaneTry.foms (y : LaneTry) : List Nat := (y.eyes.take 16).map Eye.fom

/-- The best equaliser code, the lowest among equals. -/
def LaneTry.code (y : LaneTry) : Nat := (byFom (LaneTry.foms y)).headD 0

/-- Whether a lane is good at the speed (R303): the slip search matched, the skew can be removed (R298), the best equaliser code
gives a figure of merit of 64 or more, and 65,536 blocks show no invalid header. -/
def LaneTry.good (y : LaneTry) : Bool :=
  (slipFound y.word 0).isSome && decide (y.skew ≤ maxSkew) && decide (64 ≤ (LaneTry.foms y).getD (LaneTry.code y) 0) && y.invalid == 0

/-- A lane as training leaves it, good or not. -/
def LaneTry.trained (y : LaneTry) (pos : Nat) : Lane :=
  { Lane.init with slip := (slipFound y.word pos).getD pos, ctle := LaneTry.code y, fom := (LaneTry.foms y).getD (LaneTry.code y) 0 }

/-- What one speed gives on each lane of a bundle; a lane fused out at assembly stays powered down (Table 13-3, step 1). -/
def fitsOf (b : Nat) (fused : List Nat) (l : List LaneTry) : List (Option LaneTry) :=
  (List.range (lanesOf b)).map fun i => if fused.contains i then none else l[i]?

/-- Lanes that are good. -/
def goodOf (l : List (Option LaneTry)) : Nat := (l.filter fun y => y.any LaneTry.good).length

/-- The speeds tried, with the good lanes at each (Table 13-3, step 6): from the lowest up to the highest one allowed, or to
the first that leaves fewer than a quarter of the lanes. -/
def speedsTried (b : Nat) (fused : List Nat) (top : Nat) : Nat → List (List LaneTry) → List (Nat × Nat)
  | _, [] => []
  | c, l :: r =>
    let n := goodOf (fitsOf b fused l)
    (c, n) :: (if n < lanesBuilt b / 4 ∨ top ≤ c then [] else speedsTried b fused top (c + 1) r)

/-- The speed chosen (R303): the largest product of speed and lanes in use, the lower speed among equals. -/
def bestSpeed (b : Nat) : List (Nat × Nat) → Nat × Nat
  | [] => (0, 0)
  | x :: r => r.foldl (fun (best : Nat × Nat) y =>
      if 2 ^ best.1 * min best.2 (lanesBuilt b) < 2 ^ y.1 * min y.2 (lanesBuilt b) then y else best) x

/-- A bundle trained by the cold procedure (R303, R305): the speed, the lanes for service, up to four spares; lanes not
good are failed, further good ones powered down, each with the slip and the equaliser code that training left it. The number of
good lanes is returned. -/
def Bundle.train (x : Bundle) (b : Nat) (fused : List Nat) (tr : BundleTrain) : Bundle × Nat :=
  let tried := speedsTried b fused (x.ctrl % 4) 0 tr.tries
  let speed := (bestSpeed b tried).1
  let again := decide ((tried.getLast?).map (·.1) ≠ some speed)
  let fits := fitsOf b fused (if again then tr.again else tr.tries.getD speed [])
  let trained (i : Nat) : Lane := ((fits.getD i none).map fun y => LaneTry.trained y (x.lane i).slip).getD (x.lane i)
  let good := (byFom ((List.range (lanesOf b)).map fun i => (trained i).fom)).filter fun i => (fits.getD i none).any LaneTry.good
  let on := good.take (lanesBuilt b)
  let spare := (good.drop (lanesBuilt b)).take 4
  let lane (i : Nat) : Lane :=
    if fused.contains i then { Lane.init with role := .fused }
    else if on.contains i then { trained i with role := .service }
    else if spare.contains i then { trained i with role := .spare }
    else if good.contains i then { trained i with role := .idle, fom := 0 }
    else { trained i with role := .failed, logical := 127 }
  let x := (List.range (lanesOf b)).foldl (fun x i => x.modLane i fun _ => lane i) x
  (({ x with speed := speed, wait := [], planned := none, txAsleep := false, rxAsleep := false } : Bundle).rebind, good.length)

/-- A bundle trained in service or at a start: fenced when fewer than a quarter of its lanes are good, else ready for
HELLO (R303), its record showing what it has (R197). -/
def State.trainBundle (s : State) (b : Nat) (tr : BundleTrain) : State :=
  let r := (s.bundle b).train b (s.fusedLanes b) tr
  let s := s.modBundle b fun _ => r.1
  if r.2 < lanesBuilt b / 4 then s.fenceBundle b r.2
  else (s.modLink b fun x => ({ x with st := if x.everUp then 2 else 0 } : Link).sendHello b).oculusUpdate

/-- The lanes after a width command has switched (R341). -/
def Bundle.apply (x : Bundle) (a : WidthAction) (lane spare : Nat) : Bundle :=
  let old := (x.lane lane).logical
  let fail (x : Bundle) : Bundle := x.modLane lane fun y => { y with role := .failed, logical := 127 }
  let x : Bundle := match a with
    | .drop => (fail x).rebind
    | .add => (x.modLane lane fun y => { y with role := .service }).rebind
    | .replace => (fail x).modLane spare fun y => { y with role := .service, logical := old }
  { x with changes := x.changes + 1 }

/-- The change's record: Oculus update, then the fault (step 7 of Table 14-7, R309, R435). -/
def State.laneChanged (s : State) (b : Nat) (a : WidthAction) (lane spare : Nat) : State :=
  let planned := (s.bundle b).planned == some lane
  let s := (s.modBundle b fun x => ({ x with planned := if planned then none else x.planned } : Bundle).apply a lane spare).oculusUpdate
  match a with
  | .drop => s.report (srcLink b) .contained 2 lane
  | .add => s
  | .replace => s.report (srcLink b) .corrected 1 (lane + spare * 2 ^ 8 + (b2n planned) * 2 ^ 15)

/-- A failed lane of a bundle handled (R309): replaced by the spare with the highest figure of merit, else dropped, else
the bundle fenced. On a link that is up the change goes by a width command; a retrain settles it at once (R343). -/
def State.changeLane (s : State) (b lane : Nat) : State :=
  let x := s.bundle b
  let spare := (x.withRole .spare).foldl (fun (best : Option Nat) i => match best with
    | none => some i
    | some j => if (x.lane j).fom < (x.lane i).fom then some i else some j) none
  let go (a : WidthAction) (sp : Nat) : State :=
    if (s.link b).st = 1 then s.requestWidth b a lane sp else s.laneChanged b a lane sp
  match spare with
  | some sp => go .replace sp
  | none =>
    if x.width - 1 < lanesBuilt b / 4 then
      (s.modBundle b fun x => x.modLane lane fun y => { y with role := .failed, logical := 127 }).fenceBundle b (x.width - 1)
    else go .drop 0xFF

/-- A lane declared failed (R309, R310): a spare is marked failed; a lane in service is handled now or after the change in
progress. -/
def State.declareLane (s : State) (b lane : Nat) : State :=
  let x := s.bundle b
  match (x.lane lane).role with
  | .spare =>
    let s := (s.modBundle b fun x => x.modLane lane fun y => { y with role := .failed, low := 0 }).oculusUpdate
    s.report (srcLink b) .corrected 4 lane
  | .service =>
    let busy : Bool := (match (s.link b).rxWidth with
      | some w => w.lane == lane
      | none => false) || x.wait.contains lane
    if busy || x.st == 2 then s
    else
      let s := s.modBundle b fun x => { x with lastFailed := some lane }
      if (s.link b).rxWidth.isSome || !x.wait.isEmpty then s.modBundle b fun x => { x with wait := x.wait ++ [lane] }
      else s.changeLane b lane
  | _ => s

/-- Whether a lane verifies: its alignment word found, its skew removed, 65,536 blocks without an invalid header (R306,
Table 14-6). -/
def LaneCheck.good (c : LaneCheck) : Bool :=
  (slipFound c.word 0).isSome && decide (c.skew ≤ maxSkew) && c.invalid == 0

/-- The slip search of lanes that are verified: each keeps the position at which it ends. -/
def Bundle.slipLanes (x : Bundle) (l : List LaneCheck) : Bundle :=
  l.foldl (fun x c => x.modLane c.lane fun y => { y with slip := (slipFound c.word y.slip).getD y.slip }) x

/-- Lanes whose receiver a reset has put back to no delay. -/
def freshSlips (l : Tbl Lane) : Tbl Lane := l.map fun e => (e.1, { e.2 with slip := 0 })

/-- The lanes in service and spares that fail verification, in ascending order (R310). -/
def Bundle.failing (x : Bundle) (b : Nat) (l : List LaneCheck) : List Nat :=
  (List.range (lanesOf b)).filter fun i =>
    ((x.lane i).role == .service || (x.lane i).role == .spare) && l.any fun c => c.lane == i && !LaneCheck.good c

/-- Lanes that fail verification are handled as failures in service, unless they fence the bundle (R306, R309). -/
def State.declareAll (s : State) (b : Nat) (l : List Nat) : State :=
  l.foldl (fun s i => if (s.bundle b).st = 2 then s else s.declareLane b i) s

/-- A bundle's warm start (R306): its stored speed and selection, the slip search run on each lane, each lane in service that
fails verification handled as a failure in service; the cold procedure when more fail than there are spares, or when the stored
parameters are absent or do not match the identity fuses. -/
def State.warmBundle (s : State) (b : Nat) (kept : Nat × Tbl Lane) (x : BundleStart) : State :=
  let y : Bundle := (({ s.bundle b with speed := kept.1, lanes := kept.2 } : Bundle).rebind).slipLanes x.lanes
  let failed := (y.failing b x.lanes).filter fun i => (y.lane i).role == .service
  if kept.2.isEmpty ∨ y.withRole .fused ≠ (List.range (lanesOf b)).filter (fun i => (s.fusedLanes b).contains i) ∨
      (y.withRole .spare).length < failed.length then s.trainBundle b x.cold
  else
    let s := (s.modBundle b fun _ => y).modLink b fun x => { x with st := if x.everUp then 2 else 0 }
    let s := s.declareAll b failed
    if (s.bundle b).st = 2 then s else s.modLink b fun x => x.sendHello b

/-- The figures of merit of lanes, each by its eye. -/
def fomsOf (eyes : List Eye) : List Nat := eyes.map Eye.fom

/-- A measurement of a lane counted among those of the present hour (R434). -/
def Bundle.noteFom (x : Bundle) (i fom : Nat) : Bundle :=
  { x with foms := tmod [] x.foms i fun m => tmod 0 m fom (· + 1) }

/-- LANE_FOM_MEASURE (R301, R309, R310): every lane in service or spare is measured; 100 measurements in a row below 40 make a
lane failed, in ascending physical order. -/
def execLaneFomMeasure (t : Nat) (bundle : Fin 16) (eyes : List Eye) (s : State) : Host.Outcome State Fault Refusal :=
  let s := s.atTime t
  let b := bundle.val
  let x := s.bundle b
  let foms := fomsOf eyes
  .next (if x.st = 1 ∧ x.rxAsleep = false then
    let lanes := (List.range (lanesOf b)).filter fun i =>
      ((x.lane i).role == .service || (x.lane i).role == .spare) && decide (i < foms.length)
    let s := s.modBundle b fun x => lanes.foldl (fun x i => (x.modLane i fun y => { y with
      fom := foms.getD i 0, low := if foms.getD i 0 < 40 then y.low + 1 else 0 }).noteFom i (foms.getD i 0)) x
    (lanes.filter fun i => decide (100 ≤ ((s.bundle b).lane i).low)).foldl (fun s i => s.declareLane b i) s
  else s)

/-- Blocks received on a lane (R296, R299, R324): invalid headers are counted against the lane, in the present millisecond
(R528), and on the bundle; LINK blocks that are discarded are counted on its link. -/
def State.receiveBlocks (s : State) (b lane : Nat) (blocks : List RawBlock) : State :=
  let r := LaneRx.run ((s.bundle b).lane lane).line blocks
  let w := s.dieNow (rxDie b) / 10 ^ 6
  (s.modBundle b fun x => x.modLane lane fun y => { y with
    line := r.line, window := w, invalid := (if y.window = w then y.invalid else 0) + r.invalid }).modLink b fun x =>
      (x.count 1 r.invalid).count 9 r.badLink

/-- LANE_FAILURE (R296, R309, R310): more than 64 invalid headers in one millisecond, 100 low figures of merit, or lost
alignment. -/
def execLaneFailure (t : Nat) (bundle : Fin 16) (lane : Nat) (cause : LaneCause) (s : State) :
    Host.Outcome State Fault Refusal :=
  let s := s.atTime t
  let b := bundle.val
  .next (match cause with
    | .invalidHeaders blocks =>
      let s := s.receiveBlocks b lane blocks
      if 64 < ((s.bundle b).lane lane).invalid then s.declareLane b lane else s
    | .lowFom => if 100 ≤ ((s.bundle b).lane lane).low then s.declareLane b lane else s
    | .lostAlignment => s.declareLane b lane)

/-- SPARE_EQ_SWEEP (R302): a spare keeps the equaliser code with the highest figure of merit, the lowest among equals. -/
def execSpareEqSweep (t : Nat) (bundle : Fin 16) (lane : Nat) (eyes : List Eye) (s : State) :
    Host.Outcome State Fault Refusal :=
  let s := s.atTime t
  let foms := fomsOf (eyes.take 16)
  .next (match byFom foms with
    | [] => s
    | c :: _ =>
      if ((s.bundle bundle.val).lane lane).role = .spare then
        s.modBundle bundle.val fun x => x.modLane lane fun y => { y with ctle := c, fom := foms.getD c 0 }
      else s)

/-- IDLE_TIME of LNK_BUNDLE_CTRL in ns (Table 13-9). -/
def Bundle.idleTime (x : Bundle) : Nat := [1000, 4000, 16000, 64000].getD (bitsOf x.ctrl 14 12) 4000

/-- Whether the bundle's next sleep is a deep one: in P2 half-to-half bundles sleep deep, hub-to-half bundles light,
whatever SLEEP_POLICY says (R308); `none` is no sleep. -/
def State.sleepDepth (s : State) (b : Nat) : Option Bool :=
  if 2 ≤ s.pwr.st then some (decide (b < 8))
  else match bitsOf (s.bundle b).ctrl 5 4 with
    | 1 => some false
    | 2 => some true
    | _ => none

/-- Whether a bundle's link has nothing to send, nothing unacknowledged and every FREED sent (R307). -/
def State.bundleQuiet (s : State) (b : Nat) : Bool :=
  let k := s.link b
  k.queue.isEmpty && k.unacked.isEmpty && (List.range 4).all fun vc => tget 0 k.freed vc == tget 0 k.reported vc

/-- BUNDLE_SLEEP (R307, R339): only with nothing to send, nothing unacknowledged and every FREED sent. -/
def execBundleSleep (t : Nat) (bundle : Fin 16) (s : State) : Host.Outcome State Fault Refusal :=
  let s := s.atTime t
  let b := bundle.val
  let x := s.bundle b
  .next (match s.sleepDepth b with
    | some deep =>
      if (s.link b).st == 1 && !x.txAsleep && s.bundleQuiet b && decide (x.idleSince + x.idleTime ≤ s.now) then
        (s.modBundle b fun x => { x with txAsleep := true, rxAsleep := deep }).oculusUpdate
      else s
    | none => s)

/-- BUNDLE_WAKE (R308): the SLEEP byte of the bundle's record changes (R194, R197; DEDUCED, notes/assumptions, row 23). -/
def execBundleWake (t : Nat) (bundle : Fin 16) (s : State) : Host.Outcome State Fault Refusal :=
  let s := s.atTime t
  .next (if (s.bundle bundle.val).txAsleep then
    (s.modBundle bundle.val fun x => { x with txAsleep := false, rxAsleep := false, idleSince := s.now }).oculusUpdate
  else s)

/-- TIME_BLOCK (R315, R450): a half that no TIME block can reach is unsynchronised, its Lanterns with it, until one
arrives; where its own free-running count then stands is not stated (a free value, notes/assumptions, row 3). -/
def execTimeBlock (t : Nat) (half : Half) (arrived : Bool) (s : State) : Host.Outcome State Fault Refusal :=
  let s := s.atTime t
  let up : Bool := [8 + 4 * halfNo half, 9 + 4 * halfNo half].any fun b => (s.link b).st == 1
  .next (if arrived && up then s.modArr half fun x => { x with unsync := false, unsyncLogged := [] }
    else if up || (s.arr.get half).unsync then s
    else
      let f := s.takeFree
      f.2.modArr half fun x => { x with unsync := true, ownCount := (Config.freeValue f.1).toNat })

/-- The module that carries flit `i` of a Lantern's stream: the flits, 256 bytes each, go round the modules in service (Table
13-5). -/
def moduleOf (modules : List Nat) (i : Nat) : Nat := modules.getD (i % modules.length) 0

/-- UCIE_MODULE_LOSS (R313): the module is taken out of use, a contained fault; with three or fewer the Lantern is fenced. -/
def execUcieModuleLoss (t : Nat) (lantern : Fin 8) (module : Fin 5) (s : State) : Host.Outcome State Fault Refusal :=
  let s := s.atTime t
  let l := lantern.val
  .next (if (s.lan l).fenced || !(s.lan l).modules.contains module.val then s
    else
      let s := ((s.modLan l fun x => { x with modules := x.modules.filter (· ≠ module.val) }).oculusUpdate).report
        (srcLink (portKey l 0)) .contained 0x0B module.val
      if (s.lan l).modules.length ≤ 3 then s.fenceLantern l 0x0B else s)

/-- DOWN_RETRY (R335): training is tried again; a bundle by the cold procedure, a port when its fibres carry full light.
Once training succeeds the ends send HELLO. -/
def execDownRetry (t : Nat) (link : LinkId) (train : Option BundleTrain) (s : State) : Host.Outcome State Fault Refusal :=
  let s := s.linkEvent t link
  let k := linkKey link
  .next (if (s.link k).st ≠ 3 then s
    else match link, train with
      | _, none => s
      | .bundle b, some tr => s.trainBundle b.val tr
      | .port l p, some _ =>
        if ((s.lan l.val).port p.val).light = lightFull then (s.modLink k fun x => ({ x with st := 2 } : Link).sendHello k).oculusUpdate
        else s)

/-- WIDTH_REQ (R341, R343): the transmitter's side takes the request, unless its CMD_ID is that of the command in progress
or of the last one completed; it waits behind another change. -/
def execWidthReq (t : Nat) (link : LinkId) (cmd : BitVec 8) (action : WidthAction) (lane spare : Nat) (s : State) :
    Host.Outcome State Fault Refusal :=
  let s := s.linkEvent t link
  let k := linkKey link
  let x := s.link k
  let w : WidthCmd := ⟨cmd.toNat, action, lane, spare, false⟩
  let seen : Bool := x.lastCmd == some cmd.toNat || (match x.width with
    | some v => v.cmd == cmd.toNat
    | none => false)
  let settle (s : State) : State := match link, action with
    | .port l p, .add => (s.reAdded l.val p.val lane).portSettled l.val p.val lane
    | _, _ => s
  .next (if x.st ≠ 1 ∨ seen = true then s
    else match x.width with
      | none => settle (s.switchTx k w)
      | some _ => s.modLink k fun x => { x with waitWidth := x.waitWidth ++ [w] })

/-- The lanes or wavelengths that a link's receiver uses. -/
def State.rxWidthOf (s : State) : LinkId → Nat
  | .bundle b => (s.bundle b.val).width
  | .port l p => (wavesOf ((s.lan l.val).port p.val).rx).length

/-- WIDTH_SWITCH (R341): seen on at least half the lanes of the old set, the receiver rebinds, answers WIDTH_DONE and turns to
its next change; seen on fewer, it is missed. -/
def execWidthSwitch (t : Nat) (link : LinkId) (cmd : BitVec 8) (action : WidthAction) (lane : Nat) (seen : SwitchSeen)
    (s : State) : Host.Outcome State Fault Refusal :=
  let s := s.linkEvent t link
  let k := linkKey link
  let spare := seen.spare
  .next (if (s.link k).st ≠ 1 ∨ 2 * seen.lanes < s.rxWidthOf link then s
    else
      let s : State := match link with
        | .bundle b =>
          if ((s.bundle b.val).lane lane).role = .service ∨ action = .add then s.laneChanged b.val action lane spare else s
        | .port l p => ((s.modLPort l.val p.val fun y => (y.afterRx action lane spare).gapSeen action lane).countDrop k action).oculusUpdate
      let s := s.modLink k fun x =>
        let x := ({ x with rxLastCmd := some cmd.toNat } : Link).block k 6 cmd.toNat 0 0
        match x.rxWidth with
        | none => x
        | some w =>
          if w.cmd ≠ cmd.toNat then x
          else match x.rxWait with
            | [] => { x with rxWidth := none }
            | v :: r => ({ x with rxWidth := some v, rxWait := r } : Link).widthBlock k 4 v
      match link with
      | .port _ _ => s
      | .bundle b =>
        if (s.link k).rxWidth.isSome then s
        else match (s.bundle b.val).wait with
          | [] => s
          | i :: r => (s.modBundle b.val fun x => { x with wait := r }).changeLane b.val i)

/-- WIDTH_DONE (R343): the command is complete and a later change may go. -/
def execWidthDone (t : Nat) (link : LinkId) (cmd : BitVec 8) (s : State) : Host.Outcome State Fault Refusal :=
  let s := s.linkEvent t link
  let k := linkKey link
  let x := s.link k
  .next (match x.width with
    | none => s
    | some w =>
      if w.cmd ≠ cmd.toNat ∨ x.st ≠ 1 then s
      else
        let s := s.modLink k fun x => { x with width := none, lastCmd := some w.cmd }
        match x.waitWidth with
        | [] => s
        | v :: r => (s.modLink k fun x => { x with waitWidth := r }).takeTx k v)

/-! ### A retrain completes (R334, R343) -/

/-- A link whose retrain has settled its width commands: the one already switched is complete, none waits. -/
def Link.noWidths (x : Link) : Link := { x with
  width := none, waitWidth := [], rxWidth := none, rxWait := [],
  lastCmd := match x.width with
    | some w => some w.cmd
    | none => x.lastCmd }

/-- The failed lanes of a bundle that waited their turn are handled (R309, R310), its link in training. -/
def State.settleLanes (s : State) (b : Nat) : State :=
  (s.bundle b).wait.foldl (fun s i => if ((s.bundle b).lane i).role = .service ∧ (s.bundle b).st ≠ 2 then s.changeLane b i
    else s) (s.modBundle b fun x => { x with wait := [] })

/-- A retrain settles the lane set (R343): every change not yet switched is made, on a bundle with its record. -/
def State.settleWidths (s : State) (link : LinkId) : State :=
  let k := linkKey link
  let x := s.link k
  let asked := x.rxWidth.toList ++ x.rxWait
  let s := s.modLink k Link.noWidths
  match link with
  | .port _ _ =>
    let s := asked.foldl (fun s w => s.settleRx k w.action w.lane w.spare) s
    x.waitWidth.foldl (fun s w => s.settleTx k w.action w.lane w.spare) s
  | .bundle b =>
    (asked.foldl (fun s w => if ((s.bundle b.val).lane w.lane).role = .service then
      s.laneChanged b.val w.action w.lane w.spare else s) s).settleLanes b.val

/-- The link whose retrain is complete. -/
def Retrained.link : Retrained → LinkId
  | .bundle b _ => .bundle b
  | .port l p => .port l p

/-- What a retrain finds on a bundle (Table 14-6): the slip search of each lane, and the lanes that fail the check handled. -/
def State.checkLanes (s : State) : Retrained → State
  | .bundle b l =>
    let s := s.modBundle b.val fun x => x.slipLanes l
    s.declareAll b.val ((s.bundle b.val).failing b.val l)
  | .port _ _ => s

/-- RETRAIN_COMPLETE (R334, R343): the lane set is settled, lanes that fail the check are handled, and each end sends HELLO; the
retrain is a corrected fault (Table 14-8). A bundle that its failed lanes fence stays fenced. -/
def execRetrainComplete (t : Nat) (found : Retrained) (s : State) : Host.Outcome State Fault Refusal :=
  let s := s.linkEvent t (Retrained.link found)
  let k := linkKey (Retrained.link found)
  .next (if (s.link k).st = 2 then
      let s := (s.settleWidths (Retrained.link found)).checkLanes found
      if (s.link k).st = 2 then (s.modLink k fun x => x.sendHello k).report (srcLink k) .corrected 6 (s.link k).oldest
      else s
    else s)

/-! ### Acknowledges and the move of a fenced bundle's traffic (R330, R337) -/

/-- ACK_RECEIVE (R330): a cumulative ACK; one behind OLDEST is ignored, one for a flit never sent is a violation. -/
def execAckReceive (t : Nat) (link : LinkId) (seq : BitVec 12) (s : State) : Host.Outcome State Fault Refusal :=
  let s := s.linkEvent t link
  let k := linkKey link
  let x := s.link k
  let n := (seq.toNat + 4097 - x.oldest) % 4096
  .next (if n ≤ x.unacked.length then (s.modLink k fun x => x.acked n).settleOrderly
    else if (seq.toNat + 4096 - x.nextTx) % 4096 < 2048 then s.violation k 2
    else s)

/-- NAK_RECEIVE (R330): the flits before it are acknowledged and a replay starts from it, unless a replay under way has
not yet resent it; a link that is not up holds its flits until HELLO (R334, R335). -/
def execNakReceive (t : Nat) (link : LinkId) (seq : BitVec 12) (s : State) : Host.Outcome State Fault Refusal :=
  let s := s.linkEvent t link
  let k := linkKey link
  let x := s.link k
  let n := (seq.toNat + 4096 - x.oldest) % 4096
  .next (if n ≤ x.unacked.length then
      let s := (s.modLink k fun x => x.acked n).settleOrderly
      let x := s.link k
      if x.st != 1 || x.unacked.isEmpty || x.replayAt == some 0 then s else s.beginReplay k true
    else s)

/-- FENCE_NOTE_RECEIVE (R337): the fenced bundle's flits from NEXT_RX are resent as new flits on one sibling, and its
queued messages move to the siblings. With no sibling up nothing moves (R311). A message that either bundle has begun goes on
before one that is not begun, so no message's flits lie among another's; what the receiver has of a message that goes on at the
sibling goes there with it. -/
def execFenceNoteReceive (t : Nat) (bundle : Fin 16) (nextRx : BitVec 12) (s : State) :
    Host.Outcome State Fault Refusal :=
  let k := bundle.val
  let s := s.linkEvent t (.bundle bundle)
  let x := s.link k
  let sibs := s.siblings k
  .next (match sibs with
    | [] => s
    | sib :: _ =>
      if x.st ≠ 4 then s
      else
        let n := (nextRx.toNat + 4096 - x.oldest) % 4096
        let left := if n ≤ x.unacked.length then x.unacked.drop n else x.unacked
        let moved := left.map fun f => ({ no := f.msg, vc := f.vc, flits := [f], started := true, msg := none } : QEnt)
        let s := s.modLink sib fun y => { y with
          queue := y.queue.filter (·.started) ++ moved ++ x.queue.filter (·.started) ++ y.queue.filter (!·.started) }
        let begun := (((List.range 4).filter fun vc => !(tget [] x.rxPart vc).isEmpty).map fun vc => (vc, tget [] x.rxPart vc)) ++ x.rxMoved
        let s := s.modLink sib fun y => { y with rxMoved := y.rxMoved ++ begun }
        let s := (x.queue.filter (!·.started)).foldl (fun s e => s.moveEntry sibs e) s
        (s.modLink k fun x => { x with
          queue := [], unacked := [], replayAt := none, fails := 0, afterRetrain := false, rxPart := [], rxMoved := [] }).settleOrderly)

end Sys2Proof.Machine
end

