-- ==== Sys2Proof/Machine/Lanterns.lean ====
section
/-! DEFINITION. The commands of the Lanterns: lasers, swaps, gaps, wavelength lanes, Parapet, drains, Lantern resets
(chapter 15, R495, R496). -/

namespace Sys2Proof.Machine

/-! ### Lasers (R367-R371) -/

/-- The most heater steps of one update: 0.2 GHz, where 65,535 steps are taken to be 4.0 THz (R349, R350; DEDUCED,
notes/assumptions, row 91). -/
def ringStep : Nat := 3

/-- A heater code moved by some steps, one update's at most, within its 16 bits. -/
def ringMove (old : Nat) (steps : Int) : Nat :=
  (max 0 (min 65535 ((old : Int) + max (-(ringStep : Int)) (min (ringStep : Int) steps)))).toNat

/-- The steps by which a loop would move a heater (R350): a modulator ring's back to its set point, a laser's to its reference
ring; a drop ring's `n` steps towards more current on either side. -/
def State.ringSteps (s : State) (l : Nat) (ring : RingId) (n : Nat) : RingReading → Int
  | .detuning d => ((tget 0 s.led.setPoints (1024 * l + ringKey ring) : Nat) : Int) - d
  | .currents below here above =>
    if here < above ∧ below ≤ above then n else if here < below then -(n : Int) else 0

/-- RING_LOCK_UPDATE (R347, R350): a loop moves the heater code of a ring, or of a laser, by at most one update's step. By how many
steps a drop ring's loop goes towards the better side is a free value (notes/assumptions, row 91). -/
def execRingLockUpdate (t : Nat) (lantern : Fin 8) (ring : RingId) (seen : RingReading) (s : State) :
    Host.Outcome State Fault Refusal :=
  let f := (s.atTime t).takeFree
  let steps := f.2.ringSteps lantern.val ring (1 + (Config.freeValue f.1).toNat % ringStep) seen
  .next (f.2.modLan lantern.val fun x => { x with rings := tmod 0 x.rings (ringKey ring) fun old => ringMove old steps })

/-- A laser at the forced threshold (R369): its wavelength is dropped at once and swapped, or retired when no spare is
free; while another swap runs it waits its turn, the lower wavelength first (R370). -/
def State.forceWave (s : State) (l k : Nat) : State :=
  let x := s.lan l
  match x.swap with
  | some w =>
    if w.wave = k then
      if w.switched then s
      else (s.modLan l fun x => { x with swap := some { w with atOnce := true, forced := true } }).runSwap l
    else if x.swapQ.contains (k, true) then s
    else (s.dropWave l k).modLan l fun x => { x with
      swapQ := insertById (·.1) (k, true) (x.swapQ.filter fun e => e.1 != k && e.2) ++
        x.swapQ.filter fun e => e.1 != k && !e.2 }
  | none => match s.beginSwap l k true false true none with
    | some s => s.runSwap l
    | none => s.retireWave l k

/-- A swap at warning (R368): with AUTO_SWAP_EN and a spare free. -/
def State.warnSwap (s : State) (l k : Nat) : State :=
  let x := s.lan l
  if !bitOf x.ctrl 0 then s
  else match x.swap with
    | some w => if w.wave = k || x.swapQ.any (fun e => e.1 == k) then s
                else s.modLan l fun x => { x with swapQ := x.swapQ ++ [(k, false)] }
    | none => (s.beginSwap l k false false false none).getD s

/-- LASER_CHECK (R347, R367-R370): output, bias and frequency compared with the baseline, a spare's with that of the wavelength for
which it stands in; power control raises the bias no further than its ceiling. -/
def execLaserCheck (t : Nat) (lantern : Fin 8) (laser : Fin 18) (bias : Nat) (output freq : Int) (offGrid : Bool)
    (s : State) : Host.Outcome State Fault Refusal :=
  let s := s.atTime t
  let l := lantern.val
  let i := laser.val
  let y := (s.lan l).laser i
  let delta := output - s.outputBase l i ((s.lan l).waveOf i)
  .next (if y.st ≠ 1 then s.modLan l fun x => x.modLaser i fun y => { y with bias := bias, delta := delta, freq := freq }
    else
      let k := (s.lan l).waveOf i
      let top := s.ceiling l i
      let warn : Bool := decide (delta ≤ -100) || decide (9 * top ≤ 10 * bias)
      let forced : Bool := decide (delta ≤ -200) || offGrid
      let s := s.modLan l fun x => x.modLaser i fun y => { y with
        bias := min top bias, delta := delta, freq := freq, warn := warn || forced }
      let s := if (warn || forced) && !y.warn then (s.oculusUpdate).report (srcLantern l) .corrected 0x04 i else s
      if forced then s.forceWave l k
      else if warn then s.warnSwap l k else s)

/-- LASER_SUDDEN_FADE (R367, R369): 6 dB within 1 ms is the forced threshold at once. -/
def execLaserSuddenFade (t : Nat) (lantern : Fin 8) (laser : Fin 18) (s : State) : Host.Outcome State Fault Refusal :=
  let s := s.atTime t
  let l := lantern.val
  let i := laser.val
  let y := (s.lan l).laser i
  .next (if y.st ≠ 1 then s
    else
      let s := s.modLan l fun x => x.modLaser i fun y => { y with warn := true }
      let s := if y.warn then s else (s.oculusUpdate).report (srcLantern l) .corrected 0x04 i
      s.forceWave l ((s.lan l).waveOf i))

/-- SPARE_LOCKED (R368, R369, R371): a swap at once goes on; another waits for a gap, or, with no port up, is switched in. An
open shell or a drain holds it. -/
def execSpareLocked (t : Nat) (lantern : Fin 8) (spare : Fin 2) (s : State) : Host.Outcome State Fault Refusal :=
  let s := s.atTime t
  let l := lantern.val
  .next (match (s.lan l).swap with
    | none => s
    | some w =>
      if w.spare ≠ spare.val ∨ w.locked = true then s
      else
        let s := (s.modLan l fun x => { x.modLaser (16 + spare.val) fun y => { y with st := 2 } with
          swap := some { w with locked := true } }).oculusUpdate
        if w.atOnce then s.runSwap l
        else if (s.upPorts l).isEmpty && !(s.lan l).swapHeld then s.switchSpare l [] else s)

/-- SPARE_LOCK_FAIL (R370): the spare is marked failed and the other one is tried, or none is free. -/
def execSpareLockFail (t : Nat) (lantern : Fin 8) (spare : Fin 2) (s : State) : Host.Outcome State Fault Refusal :=
  let s := s.atTime t
  let l := lantern.val
  .next (match (s.lan l).swap with
    | none => s
    | some w =>
      if w.spare ≠ spare.val ∨ w.locked = true then s
      else
        let s := ((s.modLan l fun x => { x.modLaser (16 + spare.val) fun y => { y with st := 4 } with
          swap := none }).oculusUpdate).report (srcLantern l) .corrected 0x07 (256 * spare.val)
        match s.beginSwap l w.wave w.atOnce w.dropped w.forced none with
        | some s => s
        | none => (s.noSpare l w.wave w.forced w.dropped).nextSwap l)

/-! ### Calibration gaps (R364-R366) -/

/-- CAL_GAP_START (R364, R365). -/
def execCalGapStart (t : Nat) (lantern : Fin 8) (s : State) : Host.Outcome State Fault Refusal :=
  let s := s.atTime t
  .next (s.dueGap lantern.val)

/-- CAL_GAP_TIMEOUT (Table 15-8): a port whose ADD has not come 5 ms after step 1 keeps the wavelength dropped. -/
def execCalGapTimeout (t : Nat) (lantern : Fin 8) (port : Fin 16) (s : State) : Host.Outcome State Fault Refusal :=
  let s := s.atTime t
  let l := lantern.val
  let p := port.val
  let x := s.lan l
  let late : Option Nat := match x.gap with
    | some g => if g.ports.contains p && decide (g.since + 5 * 10 ^ 6 ≤ s.now) then some g.wave else none
    | none => match x.swap with
      | some w => if w.switched && w.ports.contains p then some w.wave else none
      | none => none
  .next (match late with
    | none => s
    | some k => (s.modLPort l p fun y => { y with txDropped := tset none y.txDropped k (some s.now) }).portSettled l p k)

/-- CAL_GAP_HOLD_END (R282, R365): the hold is over; a gap that fell due during it runs. -/
def execCalGapHoldEnd (t : Nat) (lantern : Fin 8) (s : State) : Host.Outcome State Fault Refusal :=
  let s := s.atTime t
  let l := lantern.val
  .next (match (s.lan l).holdUntil with
    | none => s
    | some h =>
      if s.now < h then s
      else
        (s.modLan l fun x => { x with gapMode := 0, holdUntil := none }).dueGap l)

/-! ### Wavelength lanes (R359-R361) -/

/-- The receiving port engine drops a wavelength by WIDTH_REQ. -/
def State.lambdaLost (s : State) (l p k : Nat) : State :=
  (s.modLPort l p fun y => { y with rxDropped := tset none y.rxDropped k (some s.now) }).requestWidth (portKey l p) .drop k 0xFF

/-- LAMBDA_FAIL (R357, R359): codewords received on a wavelength in use, or its drop ring out of lock for 100 µs; a wavelength
that has failed is dropped. -/
def execLambdaFail (t : Nat) (lantern : Fin 8) (port : Fin 16) (loss : LambdaLoss) (s : State) :
    Host.Outcome State Fault Refusal :=
  let s := s.atTime t
  let l := lantern.val
  let p := port.val
  let k := loss.wave.val
  let y := (s.lan l).port p
  .next (if y.light = lightFull ∧ bitOf y.rx k ∧ tget none y.rxDropped k = none then match loss.cause with
      | .ringLost => s.lambdaLost l p k
      | .codewords words =>
        let s := s.receiveWords l p k words
        if (((s.lan l).port p).wave k).failed then s.lambdaLost l p k else s
    else s)

/-- MOD_RING_LOCK_LOSS (R360): the transmitting side drops the wavelength from step 3. -/
def execModRingLockLoss (t : Nat) (lantern : Fin 8) (port wave : Fin 16) (s : State) : Host.Outcome State Fault Refusal :=
  let s := s.atTime t
  let l := lantern.val
  let p := port.val
  let k := wave.val
  let y := (s.lan l).port p
  .next (if y.light = lightFull ∧ bitOf y.tx k ∧ tget none y.txDropped k = none then
      (s.modLPort l p fun y => { y with txDropped := tset none y.txDropped k (some s.now) }).startWidth (portKey l p)
        .drop k 0xFF
    else s)

/-- LAMBDA_RELOCK_ATTEMPT (R342, R355, R357, R359): a lane whose decoder has locked again, whose skew can be removed, and that has
run clean for 1 ms, is added again; within 1 s that is a corrected fault. A wavelength that the far end's gap or swap took off is
asked for once it has locked (Table 15-8, steps 3 and 4). -/
def execLambdaRelockAttempt (t : Nat) (lantern : Fin 8) (port wave : Fin 16) (tx : Bool) (found : RelockTry) (s : State) :
    Host.Outcome State Fault Refusal :=
  let s := s.atTime t
  let l := lantern.val
  let p := port.val
  let k := wave.val
  let y := (s.lan l).port p
  let lock := FecLock.search found.words
  let fits : Bool := lock.locked && decide (found.skew ≤ maxSkew)
  let relocked (s : State) : State := s.modLPort l p fun y => y.modWave k fun x => { x with lock := lock, bad := 0 }
  .next (if y.light ≠ lightFull then s
    else if tx then
      if found.clean && (tget none y.txDropped k).isSome then (s.reAdded l p k).startWidth (portKey l p) .add k 0xFF else s
    else match tget none y.rxDropped k with
      | some since =>
        if !found.clean || !fits then s
        else
          let s := (relocked s).modLPort l p fun y => { y with
            dropLogged := y.dropLogged.filter (· ≠ dropKey k false), rxDropped := tset none y.rxDropped k none }
          let s := s.requestWidth (portKey l p) .add k 0xFF
          if s.now ≤ since + 10 ^ 9 then s.report (srcLantern l) .corrected 0x02 (lambdaAddr p k false) else s
      | none =>
        if y.rxGap.contains k && fits then ((relocked s).modLPort l p fun y => { y with
          rxGap := y.rxGap.filter (· ≠ k) }).requestWidth (portKey l p) .add k 0xFF
        else s)

/-- LAMBDA_DROP_TIMEOUT (R359): still dropped after 1 s, a contained fault. -/
def execLambdaDropTimeout (t : Nat) (lantern : Fin 8) (port wave : Fin 16) (tx : Bool) (s : State) :
    Host.Outcome State Fault Refusal :=
  let s := s.atTime t
  let l := lantern.val
  let p := port.val
  let k := wave.val
  let y := (s.lan l).port p
  .next (match tget none (if tx then y.txDropped else y.rxDropped) k with
    | none => s
    | some since =>
      if s.now < since + 10 ^ 9 ∨ y.dropLogged.contains (dropKey k tx) then s
      else (s.modLPort l p fun y => { y with dropLogged := y.dropLogged ++ [dropKey k tx] }).report (srcLantern l)
        .contained 0x03 (lambdaAddr p k tx))

/-- SER_CHECK (R361): a lane's symbol errors over 1 s; above 1 in 10^6 a corrected fault, one a minute for each lane. -/
def execSerCheck (t : Nat) (lantern : Fin 8) (port wave : Fin 16) (errors symbols : Nat) (s : State) :
    Host.Outcome State Fault Refusal :=
  let s := s.atTime t
  let l := lantern.val
  let p := port.val
  let k := wave.val
  let s := (s.modLPort l p fun y => { y with corrected := tset 0 y.corrected k errors }).modLan l fun x => x.count 1 errors
  let key := 16 * p + k
  let due : Bool := match tget none (s.lan l).serLogged key with
    | none => true
    | some x => decide (x + 60 * 10 ^ 9 ≤ s.now)
  .next (if decide (symbols < errors * 10 ^ 6) && due then
      (s.modLan l fun x => { x with serLogged := tset none x.serLogged key (some s.now) }).report (srcLantern l)
        .corrected 0x01 (k * 2 ^ 8 + p)
    else s)

/-! ### Parapet (R373-R377) -/

/-- A Lantern below 20 degrees holds its fibres at KEEP_ALIVE (Table 17-5). -/
def State.lanCold (s : State) (l : Nat) : Bool := match (s.die (3 + l)).hottest with
  | none => false
  | some v => decide (v < 320)

/-- The conditions of R376 for READY. -/
def State.ready (s : State) (l p : Nat) : Bool :=
  let x := s.lan l
  s.canLight l && (x.drain.isNone || x.restoring) && decide (s.pwr.st ≤ 1) && !(x.port p).takenDown && !s.lanCold l

/-- SHELL_OPEN (R374, R378, R382, R383): every fibre dark at once, and its shutters tested. With no drain in effect the opening is
a contained fault of its own; during a drain its remaining steps complete at once, and the reply tells of the open shell. -/
def execShellOpen (t : Nat) (dark : DarkTest) (s : State) : Host.Outcome State Fault Refusal :=
  let s := s.atTime t
  let l := dark.lantern.val
  let x := s.lan l
  let s := s.modLan l fun x => { x with present := false }
  let s : State := match x.drain with
    | none =>
      let s := s.dropAll l lightDark true
      if x.shell = 1 then s
      else ((s.modLan l fun x => { x with shell := 1 }).oculusUpdate).report (srcLantern l) .contained 0x0A 0
    | some _ =>
      let s := s.modLan l fun x => { x with shell := 1, restoring := false }
      if x.drainDone then (s.dropAll l lightDark false).oculusUpdate else s.completeDrain l
  .next (s.testShutters l dark.shutters)

/-- SHELL_CLOSED (R374, R381-R383): low for 50 ms; in a drain the fibres stay dark. -/
def execShellClosed (t : Nat) (lantern : Fin 8) (s : State) : Host.Outcome State Fault Refusal :=
  let s := s.atTime t
  let l := lantern.val
  let s := (s.modLan l fun x => { x with present := true, shell := if x.drain.isSome then 2 else 0 }).oculusUpdate
  .next (if (s.lan l).drain.isSome then s else (s.relight l).dueGap l)

/-- RX_LIGHT_LOSS (R374): a fibre in RAMP or FULL goes to KEEP_ALIVE. -/
def execRxLightLoss (t : Nat) (lantern : Fin 8) (port : Fin 16) (s : State) : Host.Outcome State Fault Refusal :=
  let s := s.atTime t
  let l := lantern.val
  let y := (s.lan l).port port.val
  .next (if y.light = lightFull ∨ y.light = lightRamp then (s.dropPort l port.val lightKeep true).oculusUpdate else s)

/-- Whether a beacon frame is valid: SYNC and CHECK (Table 15-11). -/
def beaconOk (frame : BitVec 64) : Bool :=
  decide (bitsOf frame.toNat 15 0 = 0xB38E) && crc8 (leBytes 7 (frame.toNat % 2 ^ 56)) == BitVec.ofNat 8 (frame.toNat >>> 56)

/-- A port that sends READY. -/
def State.sendReady (s : State) (l p frames : Nat) : State :=
  (s.setLight l p lightReady).modLPort l p fun y => { y with frames := frames }

/-- BEACON_RECEIVE (R375-R377): the far end is read; READY is sent when R376 allows it, and three frames in a row with
READY or RAMP start the ramp. -/
def execBeaconReceive (t : Nat) (lantern : Fin 8) (port : Fin 16) (frame : BitVec 64) (s : State) :
    Host.Outcome State Fault Refusal :=
  let s := s.atTime t
  let l := lantern.val
  let p := port.val
  let f := frame.toNat
  .next (if !beaconOk frame then s
    else
      let st := bitsOf f 17 16
      let y := (s.lan l).port p
      let n := if st = 1 ∨ st = 2 then y.frames + 1 else 0
      let s := s.modLPort l p fun y => { y with
        frames := n, lastFrame := some s.now, farSeen := true,
        farId := if bitOf f 33 then some (bitsOf f 32 18) else none, farLantern := bitsOf f 36 34,
        farPort := bitsOf f 40 37 }
      let s := if y.light = lightKeep ∧ y.retryAt = none ∧ s.ready l p then s.sendReady l p n else s
      if ((s.lan l).port p).light = lightReady ∧ 3 ≤ n then
        ((s.setLight l p lightRamp).modLPort l p fun y => { y with rampAt := some s.now }).oculusUpdate
      else s)

/-- A port falls back to KEEP_ALIVE and may send READY again after 100 ms (R376). -/
def State.backOff (s : State) (l p : Nat) : State :=
  (s.setLight l p lightKeep).modLPort l p fun y => { y with retryAt := some (s.now + 10 ^ 8) }

/-- RAMP_TIMEOUT (R376): full light from the far end has not come 10 ms after RAMP began. -/
def execRampTimeout (t : Nat) (lantern : Fin 8) (port : Fin 16) (s : State) : Host.Outcome State Fault Refusal :=
  let s := s.atTime t
  let y := (s.lan lantern.val).port port.val
  .next (match y.rampAt with
    | none => s
    | some r => if y.light = lightRamp ∧ r + 10 ^ 7 ≤ s.now then s.backOff lantern.val port.val else s)

/-- BEACON_TIMEOUT (R376): no valid frame for 5 ms before RAMP; the port then has no far end (R388). -/
def execBeaconTimeout (t : Nat) (lantern : Fin 8) (port : Fin 16) (s : State) : Host.Outcome State Fault Refusal :=
  let s := s.atTime t
  let y := (s.lan lantern.val).port port.val
  let late : Bool := match y.lastFrame with
    | none => true
    | some f => decide (f + 5 * 10 ^ 6 ≤ s.now)
  .next (if late && y.light == lightReady then s.backOff lantern.val port.val
    else if late && y.light == lightKeep then s.modLPort lantern.val port.val fun y => { y with farSeen := false } else s)

/-- READY_RETRY (R376): the 100 ms have passed. -/
def execReadyRetry (t : Nat) (lantern : Fin 8) (port : Fin 16) (s : State) : Host.Outcome State Fault Refusal :=
  let s := s.atTime t
  let l := lantern.val
  let p := port.val
  let y := (s.lan l).port p
  .next (match y.retryAt with
    | none => s
    | some r =>
      if s.now < r then s
      else
        let s := s.modLPort l p fun y => { y with retryAt := none }
        if y.light = lightKeep ∧ s.ready l p then s.sendReady l p 0 else s)

/-- The wavelengths that light a fibre: those in service, less those whose swap has taken them off (R365, R369). -/
def Lantern.litWaves (x : Lantern) : List Nat :=
  x.waves.filter fun k => !(x.swapQ.contains (k, true)) && (match x.swap with
    | some w => !(w.wave == k && w.atOnce && !w.switched)
    | none => true)

/-- Lane baselines not yet recorded are recorded at the first bring-up of their port (R384). -/
def State.baseLanes (s : State) (l p : Nat) (found : RampFound) : State :=
  if s.led.st ≠ 1 then s
  else { s with led := { s.led with laneBase := (wavesOf found.locked.toNat).foldl (fun m k =>
    match tget none m (256 * l + 16 * p + k) with
    | some _ => m
    | none => tset none m (256 * l + 16 * p + k) (some (found.powers.getD k 0, found.errors.getD k 0))) s.led.laneBase } }

/-- PORT_RAMP_COMPLETE (R377, R384): the fibre is FULL with every wavelength added again, received on those that locked; the link
comes up through HELLO once the port has a role (R395). -/
def execPortRampComplete (t : Nat) (lantern : Fin 8) (port : Fin 16) (found : RampFound) (s : State) :
    Host.Outcome State Fault Refusal :=
  let s := s.atTime t
  let l := lantern.val
  let p := port.val
  let k := portKey l p
  let locked := found.locked
  .next (if ((s.lan l).port p).light ≠ lightRamp then s
    else
      let s := ((s.setLight l p lightFull).resumeSwap l).baseLanes l p found
      let s := s.modLPort l p fun y => { y with
        tx := maskOf (s.lan l).litWaves, rx := locked.toNat, txDropped := [], rxDropped := [], dropLogged := [], retryAt := none,
        fec := (wavesOf locked.toNat).map fun k => (k, { WaveRx.init with lock := ⟨true, 0, 0⟩ }) }
      let s := s.modLink k fun x => { x with wire := [], st := if x.st = 3 then 2 else x.st }
      (s.modLink k fun x => if x.st = 0 ∨ x.st = 2 then x.sendHello k else x).oculusUpdate)

/-! ### Service (R380-R383) -/

/-- SVC_BUTTON_PRESS (R380, R381): a press drains a shell in service, or brings light back after a drain; it is ignored while a
drain is under way or BUTTON_EN is 0. BUTTON of LAN_SHELL follows the debounced input. -/
def execSvcButtonPress (t : Nat) (edge : ButtonEdge) (s : State) : Host.Outcome State Fault Refusal :=
  let l := edge.lantern.val
  let s := (s.atTime t).modLan l fun x => { x with button := edge.pressed }
  let x := s.lan l
  .next (if !edge.pressed || !bitOf x.ctrl 1 || x.fenced then s
    else match x.drain with
      | none => if x.shell = 0 then s.startDrain l else s
      | some _ => if x.drainDone && x.present && !x.restoring then (s.startRestore l).settleRestore l else s)

/-- DRAIN_PORTS_EMPTY (Table 15-13, steps 4-6): nothing queued and nothing unacknowledged on any port. The shutters of the dark
fibres are tested (R378). -/
def execDrainPortsEmpty (t : Nat) (dark : DarkTest) (s : State) : Host.Outcome State Fault Refusal :=
  let s := s.atTime t
  let l := dark.lantern.val
  let x := s.lan l
  let empty := allPorts.all fun p => (s.link (portKey l p)).queue.isEmpty && (s.link (portKey l p)).unacked.isEmpty
  .next (if x.drain.isSome && !x.drainDone && empty then (s.completeDrain l).testShutters l dark.shutters else s)

/-- DRAIN_TIMEOUT in ns; no limit is none (Table 15-17). -/
def Lantern.drainLimit (x : Lantern) : Option Nat := match bitsOf x.ctrl 6 4 with
  | 0 => some (10 ^ 8)
  | 1 => some (10 ^ 9)
  | 2 => some (10 ^ 10)
  | 3 => some (6 * 10 ^ 10)
  | _ => none

/-- DRAIN_TIMEOUT (Table 15-13, step 4): the wait ends and what is queued is held. The shutters of the dark fibres are tested
(R378). -/
def execDrainTimeout (t : Nat) (dark : DarkTest) (s : State) : Host.Outcome State Fault Refusal :=
  let s := s.atTime t
  let l := dark.lantern.val
  let x := s.lan l
  .next (match x.drain, x.drainLimit with
    | some since, some lim => if !x.drainDone && decide (since + lim ≤ s.now) then
        (s.completeDrain l).testShutters l dark.shutters else s
    | _, _ => s)

/-- AUTO_RESTORE (Table 15-13, step 9): the shell has been closed for 1 s and AUTO_RESTORE is 1. -/
def execAutoRestore (t : Nat) (lantern : Fin 8) (s : State) : Host.Outcome State Fault Refusal :=
  let s := s.atTime t
  let l := lantern.val
  let x := s.lan l
  .next (if bitOf x.ctrl 2 && x.drain.isSome && x.drainDone && x.present && !x.restoring then
      (s.startRestore l).settleRestore l
    else s)

/-! ### Resets of a Lantern (R363, R495, R496) and its thermal stop (R431) -/

/-- A Lantern goes under reset: dark, its links down and holding; the third reset within 60 s fences it (R496). -/
def State.resetLantern (s : State) (l : Nat) : State :=
  if (s.lan l).fenced then s
  else
    let s := s.holdLantern l true
    let s := (s.modLan l fun x => { x with
      resetSince := some s.now,
      resetTimes := (x.resetTimes.filter fun r => decide (s.now < r + 60 * 10 ^ 9)) ++ [s.now] }).oculusUpdate
    if 3 ≤ (s.lan l).resetTimes.length then s.fenceLantern l 0 else s

/-- LANTERN_PLL_UNLOCK (R495): out of lock for 1 µs. -/
def execLanternPllUnlock (t : Nat) (lantern : Fin 8) (s : State) : Host.Outcome State Fault Refusal :=
  .next ((s.atTime t).resetLantern lantern.val)

/-- A Lantern comes out of reset: a module that could not be repaired at training is out of use, a contained fault (R313);
its shutters are tested and its fibres go to KEEP_ALIVE (R496, R378). With fewer than 8 wavelengths in service it is fenced
(R362); one that is fenced stays so, dark, its register domain up again (Table 20-6). -/
def State.lanternBack (s : State) (l : Nat) (badModules shutters : List Nat) : State :=
  if (s.lan l).fenced then
    if (s.lan l).held then ((s.modLan l fun x => { x with held := false, resetSince := none }).restoreDomain (4 + l)).oculusUpdate
    else s
  else
    let out := (List.range 5).filter fun m => badModules.contains m
    let s := ((s.modLan l fun x => { x with
      held := false, resetSince := none, modules := (List.range 5).filter fun m => !out.contains m }).restoreDomain
        (4 + l)).oculusUpdate
    let s := out.foldl (fun s m => s.report (srcLink (portKey l 0)) .contained 0x0B m) s
    let s := s.testShutters l shutters
    if (s.lan l).fenced then s
    else if 2 ≤ out.length then s.fenceLantern l 0x0B
    else if (s.lan l).waves.length < 8 then s.fenceLantern l 0x06
    else s.relight l

/-- LANTERN_RETURN (R496). -/
def execLanternReturn (t : Nat) (lantern : Fin 8) (badModules : List (Fin 5)) (shutters : List Nat) (s : State) :
    Host.Outcome State Fault Refusal :=
  let s := s.atTime t
  let l := lantern.val
  .next (if (s.lan l).resetSince.isNone then s
    else s.lanternBack l (badModules.map (·.val)) shutters)

/-- LANTERN_RETURN_TIMEOUT (R496): not back 1 s after its cause ended. -/
def execLanternReturnTimeout (t : Nat) (lantern : Fin 8) (s : State) : Host.Outcome State Fault Refusal :=
  let s := s.atTime t
  .next (if (s.lan lantern.val).resetSince.isSome then s.fenceLantern lantern.val 0 else s)

/-- LANTERN_STOP_EXIT (R431): below 80 degrees for 1 s. -/
def execLanternStopExit (t : Nat) (lantern : Fin 8) (s : State) : Host.Outcome State Fault Refusal :=
  let s := s.atTime t
  let l := lantern.val
  .next (match (s.die (3 + l)).coolSince with
    | none => s
    | some c =>
      if (s.lan l).stop && decide (c + 10 ^ 9 ≤ s.now) then
        ((s.modLan l fun x => { x with stop := false }).modDie (3 + l) fun d => { d with stop := false }).relight l
      else s)

/-- FABRIC_MESSAGE_RECEIVE (R390-R393, R399): a message completed on a port is taken from it, and is for this device or crosses
it. -/
def execFabricMessageReceive (t : Nat) (lantern : Fin 8) (port : Fin 16) (msg : List Byte) (s : State) :
    Host.Outcome State Fault Refusal :=
  let s := s.atTime t
  let m := FMsg.ofBytes msg
  let k := portKey lantern.val port.val
  let s := s.modLink k fun x => { x with rxDone := x.rxDone.erase (vcOf m.type, msg) }
  .next (if s.fab.devId.isNone || (s.link k).gen == 0 then s
    else if s.fab.devId = some m.dstDev then s.deliverFrom k m
    else s.transit (halfOf (lantern.val / 4)) m)

/-- ROUTER_RELEASE (R391): a message held at the router is routed again. -/
def execRouterRelease (t : Nat) (k : Nat) (s : State) : Host.Outcome State Fault Refusal :=
  let s := s.atTime t
  .next (match s.fab.held[k]? with
    | none => s
    | some m => ({ s with fab := { s.fab with held := s.fab.held.eraseIdx k } }).route m)

/-- ROLE_NOTICE (R407): another device's partition has ended a generation. -/
def execRoleNotice (t : Nat) (dev : Nat) (partition : Fin 4) (gen : BitVec 16) (s : State) :
    Host.Outcome State Fault Refusal :=
  .next ((s.atTime t).endRole dev partition.val gen.toNat).retryPool

/-- HELLO_RECEIVE (R334, R336, R338, R395): a port that comes up ends the waits for it (R279, Table 15-13 step 11). -/
def execHelloReceive (t : Nat) (link : LinkId) (fresh : Bool) (nextRx : BitVec 12) (gen : BitVec 16) (s : State) :
    Host.Outcome State Fault Refusal :=
  let s := ((s.linkEvent t link).hello (linkKey link) fresh nextRx.toNat gen.toNat).settleOrderly.settlePorts
  .next (match link with
    | .bundle _ => s
    | .port l _ => s.settleRestore l.val)

end Sys2Proof.Machine
end

