-- ==== Sys2Proof/Machine/Operands.lean ====
section
/-! DEFINITION. Operand forms: what each kind of operation reads and writes, address resolve's checks, tensors read from
partition memory, activation tables, the epilogue (R84-R89, R105, R108). -/

namespace Sys2Proof.Machine

/-- What an operation comes to: it waits for messages, is refused, meets poison, or has tiles to write, with its waves on
each array and the halves whose epilogue met an anchor mismatch. -/
inductive OpRes where
  | wait
  | refuse (status : Nat)
  | fault
  | ok (tiles : List Tile) (waves : Both Nat) (bad : List Half)
deriving DecidableEq, Repr

/-- Rows of an operation: M, or the row map's when M is 0 (R82). -/
def Desc.rowsOf (d : Desc) (rows : List RowEnt) : Nat := if d.m = 0 then rows.length else d.m

/-- Bytes of an activation table (R89). -/
def actBytes : Nat := 8224

/-- The ranges of partition memory an operation of `m` rows reads: address and bytes. -/
def Desc.reads (d : Desc) (m : Nat) : List (Nat × Nat) :=
  let rowsA (n : Nat) := [(d.a, m * rowBytes d.fmtA n)] ++ (if isBlockFmt d.fmtA then [(d.as, m * scaleBytes d.fmtA n)] else [])
  let epi := (if d.residEn then [(d.c, m * rowBytes d.fmtC d.outCols)] else []) ++
    (if d.biasEn then [(d.x, 4 * d.n)] else []) ++ (if d.actMode != 0 then [(d.actTable, actBytes)] else [])
  if d.kind == kMatmul then rowsA d.k ++ [(d.b, d.n * rowBytes d.fmtB d.k)] ++
    (if isBlockFmt d.fmtB then [(d.bs, d.n * scaleBytes d.fmtB d.k)] else []) ++ epi
  else if d.kind == kAttend then rowsA ((d.par 0 + 2 * d.par 1) * d.par 2)
  else if d.kind == kNorm then rowsA d.n ++ [(d.x, 4 * d.n * (d.mode + 1))]
  else if d.kind == kAct then rowsA d.n ++ [(d.x, actBytes)]
  else if d.kind == kRope then rowsA d.n ++ [(d.x, d.par 3 * d.par 1 / 2 * 8)]
  else if d.kind == kSample || d.kind == kDraft then rowsA d.n
  else if d.kind == kVerify then rowsA 1
  else if d.kind == kGather then [(d.a, d.par 0 * rowBytes d.fmtA d.n), (d.b, 4 * m)] ++
    (if isBlockFmt d.fmtA then [(d.as, d.par 0 * scaleBytes d.fmtA d.n)] else [])
  else if d.kind == kScatter then rowsA d.n ++ [(d.b, 4 * m)]
  else if d.kind == kCopy then (if d.mode = 0 then [(d.a, m * d.n)] else rowsA d.n)
  else if d.kind == kXsend then [(d.a, d.n)]
  else if d.kind == kXreduce then rowsA d.n
  else if d.kind == kFence then (if d.mode = 1 then [(d.x, 4)] else [])
  else if d.kind == kExactReduce then [(d.a, (if d.group = 0 then d.par 0 else 1) * m * d.n * 32)] ++ epi
  else []

/-- The ranges an operation writes. -/
def Desc.writes (d : Desc) (m : Nat) : List (Nat × Nat) :=
  let rowsD (n : Nat) := [(d.d, m * rowBytes d.fmtD n)] ++ (if isBlockFmt d.fmtD then [(d.ds, m * scaleBytes d.fmtD n)] else [])
  if d.kind == kMatmul then (if d.partialOut then [(d.d, m * d.n * 32)] else rowsD d.outCols)
  else if d.kind == kAttend then rowsD (d.par 0 * d.par 2)
  else if d.kind == kScatter then [(d.d, d.par 0 * rowBytes d.fmtD d.n)] ++
    (if isBlockFmt d.fmtD then [(d.ds, d.par 0 * scaleBytes d.fmtD d.n)] else [])
  else if d.kind == kCopy && d.mode = 0 then [(d.d, m * d.n)]
  else if d.kind == kXrecv then [(d.d, d.n)]
  else if d.kind == kSample || d.kind == kDraft then [(d.d, 4 * m)]
  else if d.kind == kExactReduce then rowsD d.outCols
  else if d.kind == kMark then [(d.d, 32)]
  else if d.kind == kVerify || d.kind == kXsend || d.kind == kFence || d.kind == kLoop then []
  else rowsD d.n

/-- Two ranges share a byte. -/
def overlaps (x y : Nat × Nat) : Bool :=
  decide (0 < x.2) && decide (0 < y.2) && decide (x.1 < y.1 + y.2) && decide (y.1 < x.1 + x.2)

/-- The one source range that a destination range may equal (R105): that of C with RESID_EN, that of A of an element-wise
kind, with its scales. -/
def Desc.inPlace (d : Desc) (m : Nat) (w : Nat × Nat) : List (Nat × Nat) :=
  let resid := (d.kind == kMatmul || d.kind == kExactReduce) && d.residEn && w == (d.d, m * rowBytes d.fmtC d.outCols)
  let elem := (d.kind == kNorm || d.kind == kAct || d.kind == kRope || (d.kind == kCopy && d.mode == 1 && d.fmtA == d.fmtD))
  if (resid && d.c == d.d) || (elem && d.a == d.d &&
      (w == (d.a, m * rowBytes d.fmtA d.n) || (isBlockFmt d.fmtD && d.as == d.ds && w == (d.as, m * scaleBytes d.fmtA d.n))))
  then [w] else []

/-- No destination range shares a byte with a source other than the one R105 lets it equal. -/
def Desc.overlapOk (d : Desc) (m : Nat) : Bool :=
  (d.writes m).all fun w => ((d.inPlace m w).foldl List.erase (d.reads m)).all fun x => !overlaps w x

/-- Address resolve's refusal of an operation for its ranges (R108): outside the partition, or R105 broken. -/
def State.rangeRefusal (s : State) (p : Fin 4) (d : Desc) (m : Nat) : Option Nat :=
  let rd := d.reads m
  let wr := d.writes m
  if !(rd ++ wr).all (fun x => s.mappedRange p x.1 x.2) then some stNotPermitted
  else if !d.overlapOk m then some stBadParam
  else none

/-- The words of every operand range decoded (R153). -/
def State.settleReads (s : State) (p : Fin 4) (d : Desc) (m : Nat) : State :=
  (d.reads m).foldl (fun s x => s.settlePart p x.1 x.2) s

/-- A poisoned word among an operation's operands (R154). -/
def State.readsPoison (s : State) (p : Fin 4) (d : Desc) (m : Nat) : Bool :=
  (d.reads m).any fun x => !(s.partPoison p x.1 x.2).isEmpty

/-- Row `i` of a tensor of rows of `n` elements. -/
def State.tensorRow (s : State) (p : Fin 4) (f addr saddr n i : Nat) : RowVals :=
  readRow f n (s.partRead p (addr + i * rowBytes f n) (rowBytes f n))
    (s.partRead p (saddr + i * scaleBytes f n) (scaleBytes f n))

/-- FP32 values at an address. -/
def State.fp32s (s : State) (p : Fin 4) (addr n : Nat) : List FVal :=
  (List.range n).map fun i => decodeF layFP32 (ofLe (s.partRead p (addr + 4 * i) 4))

/-- An activation table (R89). -/
structure ActTab where
  wexp : Int
  lo : FVal
  ninf : FVal
  pinf : FVal
  segs : List (FVal × FVal)
deriving DecidableEq, Repr

/-- The table at an address; none when its header fails the check of R89. -/
def State.actTable (s : State) (p : Fin 4) (addr : Nat) : Option ActTab :=
  let h := s.partRead p addr 32
  let lo := decodeF layFP32 (le h 4 4)
  if le h 0 1 ≠ 1 ∨ le h 2 2 ≠ 0 ∨ !allZero (slice h 16 16) ∨ notFinite lo then none
  else some ⟨signedOf 8 (le h 1 1), decodeF layFP32 (le h 4 4), decodeF layFP32 (le h 8 4), decodeF layFP32 (le h 12 4),
    (List.range 1024).map fun i =>
      let b := s.partRead p (addr + 32 + 8 * i) 8
      (decodeF layFP32 (le b 0 4), decodeF layFP32 (le b 4 4))⟩

/-- ⌊(x − lo) / 2^w⌋ for finite x and lo. -/
def segIndex (w : Int) (lo x : FVal) : Int :=
  match addVal 0 x (negVal lo) with
  | .fin neg m e =>
    let v : Int := if neg then -(m : Int) else m
    let k := e - w
    if 0 ≤ k then v * 2 ^ k.toNat else v / 2 ^ (-k).toNat
  | _ => 0

/-- The function a table gives (R89). -/
def ActTab.apply (t : ActTab) (mode : Nat) (x : FVal) : FVal :=
  match x with
  | .nan => .nan
  | .inf true => t.ninf
  | .inf false => t.pinf
  | .fin .. =>
    let i := (min (max (segIndex t.wexp t.lo x) 0) 1023).toNat
    let ab := t.segs.getD i (.fin false 0 0, .fin false 0 0)
    fp32 mode (addVal mode (mulVal ab.1 x) ab.2)

/-- The epilogue of R87 over one row of accumulator values: bias, activation or gating, residual. -/
def epilogue (d : Desc) (bias : List FVal) (act : Option ActTab) (c : List FVal) (vs : List FVal) : List FVal :=
  let rm := d.rmode
  let v := vs.map (scaleVal d.outScale)
  if !d.biasEn && d.actMode == 0 && !d.residEn then v
  else
    let y := v.map (fp32 rm)
    let y := if d.biasEn then List.zipWith (fun a b => fp32 rm (addVal rm a b)) y bias else y
    let f (x : FVal) : FVal := match act with
      | some t => t.apply rm x
      | none => x
    let y := if d.actMode == 1 then y.map f
      else if d.actMode == 2 then (List.range (d.n / 2)).map fun i =>
        fp32 rm (mulVal (f (y.getD (64 * (i / 32) + i % 32) .nan)) (y.getD (64 * (i / 32) + 32 + i % 32) .nan))
      else y
    if d.residEn then List.zipWith (fun a b => fp32 rm (addVal rm a b)) y c else y

/-- A result row in FMT_D as tiles of PART 0 and PART 1 (R179). -/
def resultTiles (d : Desc) (rows : List RowEnt) (m : Nat) (vs : List FVal) : List Tile :=
  let k := rowKey d rows m
  let w := writeRow d.fmtD d.rmode d.sat vs
  rowTiles 0 k.1 k.2 (fun o => .part (d.d + m * w.1.length + o)) w.1 ++
    rowTiles 1 k.1 k.2 (fun o => .part (d.ds + m * w.2.length + o)) w.2

/-- A row moved without arithmetic, element bytes and scale bytes, as tiles. -/
def movedTiles (d : Desc) (key : Nat × Option Nat) (place : Nat) (bs sc : List Byte) : List Tile :=
  rowTiles 0 key.1 key.2 (fun o => .part (d.d + place * bs.length + o)) bs ++
    rowTiles 1 key.1 key.2 (fun o => .part (d.ds + place * sc.length + o)) sc

/-- The activation table an operation reads: none when it reads none, `some none` when its header fails (R89). -/
def State.actOf (s : State) (p : Fin 4) (d : Desc) : Option (Option ActTab) :=
  if d.actMode != 0 || d.kind == kAct then some (s.actTable p d.actTable) else none

/-- Other members' contributions in ascending rank, when every other rank of the group is there and has the length the
operation expects; `wait` while one is missing, BAD_PARAM on a wrong length (R404, R406). -/
def peersOf (g : GroupSnap) (peers : List Contribution) (len : Nat) : Except OpRes (List Contribution) :=
  let others := (List.range g.members.length).filter (· ≠ g.rank)
  let found := others.filterMap fun k => peers.find? (·.rank == k)
  if found.length ≠ others.length then .error .wait
  else if found.all (fun c => c.bytes.length == len) then .ok found
  else .error (.refuse stBadParam)

/-! ### Remote reads (R148, R162)

Which half reads which line: each half streams every row that its columns or heads need and reads the epilogue's operands and
tables for its own columns (R22); a row of a GATHER table is read by the half that holds the row's destination, "each half
working on the data it holds" (R25; DESIGN CHOICE, notes/assumptions, row 83). -/

/-- Ranges of partition memory that a half reads and that allocate in its far cache. -/
def State.streams (s : State) (d : Desc) (m : Nat) (h : Half) : List (Nat × Nat) :=
  let sh := s.share d.n h
  let lo := if s.start.singleHalf ∨ h = .west then 0 else d.n - sh
  let rowsA (n : Nat) := [(d.a, m * rowBytes d.fmtA n)] ++ (if isBlockFmt d.fmtA then [(d.as, m * scaleBytes d.fmtA n)] else [])
  let out (v : Nat) := v * d.outCols / d.n
  let epi := (if d.residEn then (List.range m).map fun i =>
      (d.c + i * rowBytes d.fmtC d.outCols + rowBytes d.fmtC (out lo), rowBytes d.fmtC (out sh)) else []) ++
    (if d.biasEn then [(d.x + 4 * lo, 4 * sh)] else []) ++ (if d.actMode != 0 then [(d.actTable, actBytes)] else [])
  if d.kind == kMatmul then (if sh = 0 then [] else rowsA d.k ++ epi)
  else if d.kind == kExactReduce then (if sh = 0 then [] else epi)
  else if d.kind == kAttend then (if s.kvHeadsOf d h = [] then [] else rowsA ((d.par 0 + 2 * d.par 1) * d.par 2))
  else if d.kind == kNorm then [(d.x, 4 * d.n * (d.mode + 1))]
  else if d.kind == kAct then [(d.x, actBytes)]
  else if d.kind == kRope then [(d.x, d.par 3 * d.par 1 / 2 * 8)]
  else []

/-- A half reads a range of partition memory through its far cache. -/
def State.farRange (s : State) (h : Half) (p : Fin 4) (a n : Nat) : State :=
  if (s.homesOf p a n).all (· == h) then s
  else (List.range ((a % 256 + n + 255) / 256)).foldl (fun s i => match s.dpaOf p (a / 256 * 256 + 256 * i) with
    | some x => s.farLine h (x / 256)
    | none => s) s

/-- A half reads a range of a slot's pages through its far cache. -/
def State.farKv (s : State) (h : Half) (slot : Nat) (home : Half) (off n : Nat) : State :=
  if home = h then s
  else (List.range ((off % 256 + n + 255) / 256)).foldl (fun s i =>
    s.farLine h (s.kvDpa slot home (off / 256 * 256 + 256 * i) / 256)) s

/-- The entries that ATTEND reads of one row's slot, for the heads that a half computes. -/
def State.farAttend (s : State) (d : Desc) (h : Half) (x : RowEnt) : State :=
  let sl := s.slot x.slot
  match sl.groupOf (d.par 3) with
  | none => s
  | some (g, _, _) => (List.range (x.pos + 1)).foldl (fun s t => (s.kvHeadsOf d h).foldl (fun s k =>
      (sl.kvParts g (d.par 3) k t).foldl (fun s q => s.farKv h x.slot q.1 q.2.1 q.2.2) s) s) s

/-- The rows of a GATHER table that a half reads. -/
def State.farGather (s : State) (p : Fin 4) (d : Desc) (m : Nat) (h : Half) : State :=
  (List.range m).foldl (fun s i =>
    let t := ofLe (s.partRead p (d.b + 4 * i) 4)
    if s.homesOf p (d.d + i * rowBytes d.fmtD d.n) 1 == [h] && decide (t < d.par 0) then
      (s.farRange h p (d.a + t * rowBytes d.fmtA d.n) (rowBytes d.fmtA d.n)).farRange h p
        (d.as + t * scaleBytes d.fmtA d.n) (scaleBytes d.fmtA d.n)
    else s) s

/-- What an operation's reads make of a half's far cache. How often a line is read again while the operation lasts is not
stated: those hits are a free value (notes/assumptions, row 83). -/
def State.farHalfOp (s : State) (r : Run) (d : Desc) (h : Half) : State :=
  let m := d.rowsOf r.rows
  let dead := (r.members.filter (·.cancelled)).map (·.slot)
  let reads (s : State) : State :=
    if d.kind = kGather then s.farGather r.part d m h
    else
      let s := (s.streams d m h).foldl (fun s x => s.farRange h r.part x.1 x.2) s
      if d.kind = kAttend then (r.rows.take m).foldl (fun s x => if dead.contains x.slot then s else s.farAttend d h x) s else s
  if !s.farOn h then s
  else
    let after := reads s
    let count (s : State) : Nat := (s.hbm.get h).fcHits + (s.hbm.get h).fcMisses
    if count after = count s then after
    else
      let f := after.takeFree
      f.2.modHbm h fun x => { x with fcHits := x.fcHits + (Config.freeValue f.1).toNat }

/-- What an operation's reads make of the far caches. -/
def State.farOp (s : State) (r : Run) (d : Desc) : State := s.runHalves.foldl (fun s h => s.farHalfOp r d h) s

/-! ### Run-ahead (R26-R38)

What the front pipelines hold beyond the operation in the array. Nothing of it can be seen but RUN_AHEAD (R32, R49); how
soon it is filled is timing, and the model fills it as an operation starts (DESIGN CHOICE, notes/assumptions, row 79). -/

/-- Slots of the weight ring (Table 2-3). -/
def weightSlots : Nat := 28

/-- Operations beyond the one in the array that a half holds (Table 2-4). -/
def windowDepth : Nat := 8

/-- Weight tiles of an operation's share of a half: one for each n_tile and K pass (R23). -/
def State.weightTiles (s : State) (d : Desc) (h : Half) : Nat :=
  if d.kind = kMatmul then ceilDiv (s.share d.n h) (96 * s.columns h) * ceilDiv d.k (kTile d.fmtA d.fmtB) else 0

/-- Whether an operation's addresses depend on what earlier ones have yet to write: the indices of a GATHER or SCATTER, or
positions that a VERIFY moves (R34). -/
def Desc.addressed (d : Desc) (m : Nat) (writes : List (Nat × Nat)) (verify : Bool) : Bool :=
  ((d.kind == kGather || d.kind == kScatter) && writes.any (overlaps (d.b, 4 * m))) || (d.needsRows && verify)

/-- A half's window being filled: its operations so far, the ranges that earlier operations write, whether a VERIFY is among
them, whether resolve is held up, the weight slots still free. -/
structure Filling where
  ops : List Ahead
  writes : List (Nat × Nat)
  verify : Bool
  held : Bool
  free : Nat

/-- The next operation taken into the window. Resolve does not pass a FENCE (R35) nor an operation whose addresses are still
to be written (R34), an operand that an earlier operation writes is not streamed (R33), and streaming stops when no slot is
free (R27). -/
def State.fill (s : State) (h : Half) (f : Filling) (x : Run × Desc) : Filling :=
  let m := x.2.rowsOf x.1.rows
  let ok := !f.held && !x.2.addressed m f.writes f.verify
  let hazard := (x.2.reads m).any fun a => f.writes.any (overlaps a)
  let n := if ok && !hazard then min f.free (s.weightTiles x.2 h) else 0
  { ops := f.ops ++ [⟨x.1.pc, ((x.1.loop.map (·.iter)).getD 0), ok, n⟩], writes := f.writes ++ x.2.writes m,
    verify := f.verify || x.2.kind == kVerify, held := !ok || x.2.kind == kFence, free := f.free - n }

/-- The accepted run that follows the one in the arrays, as it stands now, with its list (R81). -/
def State.nextRun (s : State) : Option (Run × OpList) :=
  let list (q : RunReq) := (s.list q.acc.part q.list).map fun l =>
    (newRun q.acc.part q.list q.number (some q.acc) [] [] [], l)
  let steps (i : Nat) (q : StepReq) :=
    let g := (s.gather (s.waitingSteps.filter fun x =>
      (s.slot x.1).owner == some q.acc.part && (s.slot x.1).list == (s.slot i).list) [] []).2
    (s.list q.acc.part (s.slot i).list).map fun l => (newRun q.acc.part (s.slot i).list 0 none g.1 g.2 [], l)
  match s.eng.waiting, s.waitingSteps with
  | [], [] => none
  | q :: _, [] => list q
  | [], (i, q) :: _ => steps i q
  | q :: _, (i, x) :: _ => if q.acc.id < x.acc.id then list q else steps i x

/-- A half's window while the descriptor in turn is in the array. From the end of the run it runs on into the next accepted one
(R81): addresses of another partition never meet, and a VERIFY of this run moves no position of the next. A drafter section still
to come keeps the window within the run. -/
def State.window (s : State) (r : Run) (l : OpList) (d : Desc) (h : Half) : List Ahead :=
  let own := (r.step).places l (2 * windowDepth + 1) windowDepth
  let f := own.foldl (s.fill h)
    { ops := [], writes := d.writes (d.rowsOf r.rows), verify := d.kind == kVerify, held := d.kind == kFence,
      free := weightSlots - s.weightTiles d h }
  if windowDepth ≤ own.length ∨ l.targetLen < l.descs.length then f.ops
  else match s.nextRun with
    | none => f.ops
    | some (q, k) => ((q.places k (2 * windowDepth + 1) (windowDepth - own.length)).foldl (s.fill h)
        { f with writes := if q.part = r.part then f.writes else [], verify := false }).ops

/-- The run with the windows of the halves in service filled; a half that is away holds nothing (Table 2-5). -/
def State.runAhead (s : State) (r : Run) (d : Desc) : Run :=
  match s.list r.part r.list with
  | none => r
  | some l =>
    let w (h : Half) : List Ahead := if s.halfUp h then s.window r l d h else []
    { r with ahead := ⟨w .west, w .east⟩ }

end Sys2Proof.Machine
end

