-- ==== Sys2Proof/Machine/Flags.lean ====
section
/-! DEFINITION. The flags and special values that results carry: the INVALID / POS_INF / NEG_INF rules by operation class
(Table 3-5) and the flag bytes of token records, reports and replies. -/

namespace Sys2Proof.Machine

/-- Whether any element of a row is NaN or infinite: NORM's rule (Table 3-5). -/
def rowSpecial (vs : List FVal) : Bool := vs.any notFinite

/-- FLAGS of a token record (Table 5-9). -/
def recordFlags (stopped limit invalid cancelled : Bool) : Nat :=
  b2n stopped + 2 * b2n limit + 4 * b2n invalid + 8 * b2n cancelled

/-- FLAGS of a digest report (Table 7-6), VALID included. -/
def Report.flags (r : Report) : Nat :=
  1 + 2 * b2n r.vPresent + 4 * b2n r.inexact + 8 * b2n r.refused + 16 * b2n r.truncated

/-- FLAGS of an exact partial record (Table 3-4). -/
def Accum.flagByte (c : Accum) : Nat := b2n c.invalid + 2 * b2n c.posInf + 4 * b2n c.negInf

end Sys2Proof.Machine
end

