-- ==== Sys2Proof/Machine/Sampler.lean ====
section
/-! DEFINITION. The position-keyed sampler (R125-R127). -/

namespace Sys2Proof.Machine

/-- The mixing function of R125, modulo 2^64. -/
def mix64 (z : BitVec 64) : BitVec 64 :=
  let z := (z ^^^ (z >>> 30)) * 0xBF58476D1CE4E5B9#64
  let z := (z ^^^ (z >>> 27)) * 0x94D049BB133111EB#64
  z ^^^ (z >>> 31)

/-- The uniform draw of a seed, position and stream (R125). -/
def draw (seed q stream : Nat) : BitVec 64 :=
  let k := mix64 (BitVec.ofNat 64 seed ^^^ 0x6A09E667F3BCC909#64)
  let c := BitVec.ofNat 64 (q + stream * 2 ^ 32 + 1)
  mix64 (k + c * 0x9E3779B97F4A7C15#64)

/-- The largest of values, −∞ for none. -/
def maxVal (vs : List FVal) : FVal := vs.foldl (fun a b => if ltVal a b then b else a) (.inf true)

/-- Insertion by weight descending, token ascending among equal weights. -/
def insertWeight (x : Nat × Nat) : List (Nat × Nat) → List (Nat × Nat)
  | [] => [x]
  | y :: r => if y.2 < x.2 ∨ (y.2 = x.2 ∧ x.1 < y.1) then x :: y :: r else y :: insertWeight x r

/-- (token, weight) pairs ordered by weight descending, token ascending. -/
def byWeight (l : List (Nat × Nat)) : List (Nat × Nat) := l.foldr insertWeight []

/-- The shortest prefix whose weights reach `need`. -/
def prefixTo (need : Nat) : List (Nat × Nat) → List (Nat × Nat)
  | [] => []
  | x :: r => if need = 0 then [] else x :: prefixTo (need - x.2) r

/-- The first pair, in order, whose running sum exceeds `r`. -/
def pickAt (r : Nat) : List (Nat × Nat) → Option Nat
  | [] => none
  | x :: rest => if r < x.2 then some x.1 else pickAt (r - x.2) rest

/-- The token that marks an invalid row (R127). -/
def noToken : Nat := 0xFFFFFFFF

/-- The lowest token with the largest value; invalid rows give 0xFFFF_FFFF (R126 greedy, R127 DRAFT MODE 0). -/
def greedyToken (s : List FVal) : Nat :=
  if s.any (fun v => decide (v = .nan)) || s.any (fun v => decide (v = .inf false)) ||
    s.all (fun v => decide (v = .inf true)) then noToken
  else ((List.range s.length).find? fun t => eqVal (s.getD t .nan) (maxVal s)).getD noToken

/-- The sampled token of one row (R126). -/
def sampleToken (l : List FVal) (invTemp : Nat) (topK topP : Nat) (greedy : Bool) (seed q stream : Nat) : Nat :=
  if l.any fun v => decide (v = .nan) then noToken
  else if greedy then greedyToken l
  else
    let s := l.map fun v => fp32 0 (mulVal v (decodeF layFP32 invTemp))
    if s.any (fun v => decide (v = .inf false)) || s.all (fun v => decide (v = .inf true)) ||
      s.any (fun v => decide (v = .nan)) then noToken
    else
      let mx := maxVal s
      let w := s.map fun v => if v = .inf true then 0 else expWeight (addVal 0 v (negVal mx))
      let keep := (List.zip (List.range w.length) w).filter fun x => decide (0 < x.2)
      let sorted := byWeight keep
      let kept := if 0 < topK ∧ topK < keep.length then sorted.take topK else sorted
      let sum (x : List (Nat × Nat)) := (x.map (·.2)).foldl (· + ·) 0
      let kept := if topP < 65536 then prefixTo (ceilDiv (sum kept * topP) 65536) kept else kept
      let asc := kept.foldl (fun acc x => insertById (·.1) x acc) []
      let r := (draw seed q stream).toNat * sum asc / 2 ^ 64
      (pickAt r asc).getD noToken

/-- The token SAMPLE draws for a row of a slot's (R126, R127). -/
def Slot.sample (sl : Slot) (l : List FVal) (q stream : Nat) : Nat :=
  sampleToken l sl.invTemp sl.topK sl.topP sl.greedy sl.seed q stream

end Sys2Proof.Machine
end

