-- ==== Sys2Proof/Machine/Opexec.lean ====
section
/-! DEFINITION. What each kind of operation computes: the digest tiles it writes and its waves (chapters 3 and 4). Each
function takes the state after the operands' words have been decoded, and the row map. -/

namespace Sys2Proof.Machine

/-- No waves. -/
def noWaves : Both Nat := ⟨0, 0⟩

/-- The half that owns output column `n` of `total` (R22). -/
def State.columnHome (s : State) (total n : Nat) : Half :=
  if s.start.singleHalf then (if s.halfUp .west then .west else .east)
  else if n < min total (32 * ceilDiv total 64) then .west else .east

/-- The maxima that members exchange before a split exact MATMUL (R90, Table 16-3): rows of A, then vectors of B. -/
def maximaBytes (l : List (Option Int)) : List Byte := l.flatMap fun x => leBytes 2 (codeOf 16 (x.getD (-32768)))

/-- The maxima read back. -/
def maximaOf (bs : List Byte) (n : Nat) : List (Option Int) :=
  (List.range n).map fun i => let v := signedOf 16 (le bs (2 * i) 2); if v = -32768 then none else some v

/-- The largest block exponents of this member's rows of A and vectors of B (R90). -/
def State.ownMaxima (s : State) (p : Fin 4) (d : Desc) (m : Nat) : List (Option Int) :=
  ((List.range m).map fun i => maxExp (s.tensorRow p d.fmtA d.a d.as d.k i).blocks) ++
    (List.range d.n).map fun i => maxExp (s.tensorRow p d.fmtB d.b d.bs d.k i).blocks

/-- MATMUL (R23, R63-R74, R87-R93): `g` is the group's snapshot when GROUP is not 0. -/
def State.matmulRes (s : State) (p : Fin 4) (d : Desc) (rows : List RowEnt) (g : Option GroupSnap)
    (peers : List Contribution) : OpRes :=
  let m := d.rowsOf rows
  let xs := (List.range m).map fun i => s.tensorRow p d.fmtA d.a d.as d.k i
  let ws := (List.range d.n).map fun i => s.tensorRow p d.fmtB d.b d.bs d.k i
  let own := s.ownMaxima p d m
  let others : Except OpRes (List Contribution) := match g with
    | none => .ok []
    | some sn => peersOf sn peers (2 * (m + d.n))
  match others with
  | .error e => e
  | .ok cs =>
    let maxima := cs.foldl (fun acc c => List.zipWith (fun a b => maxExp [a, b]) acc (maximaOf c.bytes (m + d.n))) own
    let waves : Both Nat := ⟨s.matmulWaves d m .west, s.matmulWaves d m .east⟩
    let acc (i j : Nat) : Accum :=
      dotAt (anchorOf (maxima.getD i none) (maxima.getD (m + j) none)) ((xs.getD i ⟨[], []⟩).vals) ((ws.getD j ⟨[], []⟩).vals)
    if d.partialOut then
      .ok ((List.range m).flatMap fun i =>
        let k := rowKey d rows i
        rowTiles 0 k.1 k.2 (fun o => .part (d.d + i * d.n * 32 + o)) ((List.range d.n).flatMap fun j => (acc i j).record))
        waves []
    else match s.actOf p d with
      | some none => .refuse stBadParam
      | act =>
        let bias := if d.biasEn then s.fp32s p d.x d.n else []
        .ok ((List.range m).flatMap fun i =>
          let vs := (List.range d.n).map fun j =>
            if d.exact then (acc i j).value
            else passDot (kTile d.fmtA d.fmtB) (xs.getD i ⟨[], []⟩) (ws.getD j ⟨[], []⟩)
          let c := if d.residEn then (s.tensorRow p d.fmtC d.c 0 d.outCols i).vals else []
          resultTiles d rows i (epilogue d bias (act.bind id) c vs)) waves []

/-- One EXACT_REDUCE element: the partial records added under R73; none on a mismatch of anchors. -/
def mergeAll (l : List Accum) : Option Accum :=
  match l with
  | [] => none
  | a :: r => r.foldl (fun x b => x.bind fun y => y.merge b) (some a)

/-- EXACT_REDUCE (R73, R92). -/
def State.exactReduceRes (s : State) (p : Fin 4) (d : Desc) (rows : List RowEnt) (g : Option GroupSnap)
    (peers : List Contribution) : OpRes :=
  let m := d.rowsOf rows
  let len := m * d.n * 32
  let others : Except OpRes (List Contribution) := match g with
    | none => .ok []
    | some sn => peersOf sn peers len
  match others with
  | .error e => e
  | .ok cs =>
    let local_ := (List.range (if d.group = 0 then d.par 0 else 1)).map fun a => s.partRead p (d.a + a * len) len
    let arrays := local_ ++ cs.map (·.bytes)
    match s.actOf p d with
    | some none => .refuse stBadParam
    | act =>
      let bias := if d.biasEn then s.fp32s p d.x d.n else []
      let el (i j : Nat) : Option Accum := mergeAll (arrays.map fun b => Accum.ofRecord (slice b (32 * (i * d.n + j)) 32))
      let bad := allHalves.filter fun h => (List.range m).any fun i => (List.range d.n).any fun j =>
        (el i j).isNone && s.columnHome d.n j == h
      .ok ((List.range m).flatMap fun i =>
        let vs := (List.range d.n).map fun j => match el i j with
          | some a => a.value
          | none => .nan
        let c := if d.residEn then (s.tensorRow p d.fmtC d.c 0 d.outCols i).vals else []
        resultTiles d rows i (epilogue d bias (act.bind id) c vs)) noWaves bad

/-- A zero of either sign. -/
def isZero : FVal → Bool
  | .fin _ m _ => m == 0
  | _ => false

/-- One row of NORM by the steps of R96. -/
def normSteps (mode : Nat) (eps : FVal) (gamma beta : List FVal) (x : RowVals) : List FVal :=
  let n := x.vals.length
  if rowSpecial x.vals then x.vals.map fun _ => .nan
  else if mode = 0 then
    let ms := divFp32 0 (exactDot x x).value n 0
    let r := fp32 0 (rsqrtVal (fp32 0 (addVal 0 ms eps)))
    List.zipWith (fun v g => fp32 0 (mulVal (fp32 0 (mulVal v r)) g)) x.vals gamma
  else
    let mu := divFp32 0 (exactSum x.vals).value n 0
    let d := x.vals.map fun v => fp32 0 (addVal 0 v (negVal mu))
    let dr : RowVals := ⟨d, blockExps d⟩
    let va := divFp32 0 (exactDot dr dr).value n 0
    let r := fp32 0 (rsqrtVal (fp32 0 (addVal 0 va eps)))
    List.zipWith (fun v gb => fp32 0 (addVal 0 (fp32 0 (mulVal (fp32 0 (mulVal v r)) gb.1)) gb.2)) d (List.zip gamma beta)

/-- One row of NORM. A row of zeros gives zeros (Table 3-5): those of R96's steps, with their signs; where the steps give
something else, β or what a γ that is not finite makes, which of the two rules holds is open (notes/assumptions, row 75). -/
def normRow (mode : Nat) (eps : FVal) (gamma beta : List FVal) (x : RowVals) : List FVal :=
  let y := normSteps mode eps gamma beta x
  if x.vals.all isZero then y.map fun v => if isZero v then v else if Config.zeroRow then .fin false 0 0 else v else y

/-- NORM (R96). -/
def State.normRes (s : State) (p : Fin 4) (d : Desc) (rows : List RowEnt) : OpRes :=
  let gamma := s.fp32s p d.x d.n
  let beta := s.fp32s p (d.x + 4 * d.n) d.n
  let eps := decodeF layFP32 (d.par 0)
  .ok ((List.range (d.rowsOf rows)).flatMap fun i =>
    resultTiles d rows i (normRow d.mode eps gamma beta (s.tensorRow p d.fmtA d.a 0 d.n i))) noWaves []

/-- ACT (R89). -/
def State.actRes (s : State) (p : Fin 4) (d : Desc) (rows : List RowEnt) : OpRes :=
  match s.actTable p d.x with
  | none => .refuse stBadParam
  | some t => .ok ((List.range (d.rowsOf rows)).flatMap fun i =>
      resultTiles d rows i ((s.tensorRow p d.fmtA d.a d.as d.n i).vals.map fun v => t.apply d.rmode (fp32 d.rmode v))) noWaves []

/-- One rotated pair (R97). -/
def ropePair (mode : Nat) (x0 x1 c sn : FVal) : FVal × FVal :=
  if notFinite x0 || notFinite x1 || notFinite c || notFinite sn then (.nan, .nan)
  else (fp32 mode (addVal mode (mulVal x0 c) (negVal (mulVal x1 sn))), fp32 mode (addVal mode (mulVal x0 sn) (mulVal x1 c)))

/-- ROPE (R97): elements outside the rotated heads keep their bits when the formats are the same (R77). -/
def State.ropeRes (s : State) (p : Fin 4) (d : Desc) (rows : List RowEnt) : OpRes :=
  let m := d.rowsOf rows
  let hd := d.par 0
  let rd := d.par 1
  if (List.range m).any (fun i => match rows[i]? with
    | some r => decide (d.par 3 ≤ r.pos)
    | none => true) then .refuse stBadParam
  else .ok ((List.range m).flatMap fun i =>
    let pos := match rows[i]? with
      | some r => r.pos
      | none => 0
    let tab := s.fp32s p (d.x + pos * (rd / 2) * 8) rd
    let bs := s.partRead p (d.a + i * rowBytes d.fmtA d.n) (rowBytes d.fmtA d.n)
    let v (j : Nat) : FVal := decodeF (fmtLayout d.fmtA) (elemCode d.fmtA bs j)
    let codes := (List.range d.n).map fun j =>
      if j < d.par 2 * hd ∧ j % hd < rd then
        let pr := (j % hd) / 2
        let b := j / hd * hd + 2 * pr
        let y := ropePair d.rmode (v b) (v (b + 1)) (tab.getD (2 * pr) .nan) (tab.getD (2 * pr + 1) .nan)
        roundVal (fmtLayout d.fmtD) d.rmode d.sat (if (j % hd) % 2 = 0 then y.1 else y.2)
      else if d.fmtA = d.fmtD then elemCode d.fmtA bs j
      else roundVal (fmtLayout d.fmtD) d.rmode d.sat (v j)
    let k := rowKey d rows i
    rowTiles 0 k.1 k.2 (fun o => .part (d.d + i * rowBytes d.fmtD d.n + o)) (packElems d.fmtD codes)) noWaves []

/-- SAMPLE and DRAFT: one token per row, as its tile (R126, R127). -/
def State.tokenRes (s : State) (p : Fin 4) (d : Desc) (rows : List RowEnt) : OpRes × List Nat :=
  let m := d.rowsOf rows
  if rows.length < m then (.refuse stBadParam, [])
  else
    let toks := (List.range m).map fun i =>
      let l := (s.tensorRow p 7 d.a 0 d.n i).vals
      match rows[i]? with
      | none => noToken
      | some r => if d.kind = kDraft ∧ d.mode = 0 then greedyToken l
                  else (s.slot r.slot).sample l (r.pos + 1) (if d.kind = kDraft then 1 else 0)
    (.ok ((List.zip (List.range m) toks).flatMap fun (i, t) =>
      let k := rowKey d rows i
      rowTiles 0 k.1 k.2 (fun o => .part (d.d + 4 * i + o)) (leBytes 4 t)) noWaves [], toks)

/-- A row's bytes and scale bytes converted, or moved when the formats are the same (R77). -/
def convertRow (fa fd mode : Nat) (sat : Bool) (n : Nat) (bs sc : List Byte) : List Byte × List Byte :=
  if fa = fd then (bs, sc) else writeRow fd mode sat (readRow fa n bs sc).vals

/-- GATHER (R99). -/
def State.gatherRes (s : State) (p : Fin 4) (d : Desc) (rows : List RowEnt) : OpRes :=
  let m := d.rowsOf rows
  let idx := (List.range m).map fun i => ofLe (s.partRead p (d.b + 4 * i) 4)
  let rb := rowBytes d.fmtA d.n
  let sb := scaleBytes d.fmtA d.n
  if idx.any fun i => decide (d.par 0 ≤ i) then .refuse stBadParam
  else if idx.any (fun i => !(s.partPoison p (d.a + i * rb) rb).isEmpty || !(s.partPoison p (d.as + i * sb) sb).isEmpty) ||
    !(s.partPoison p d.b (4 * m)).isEmpty then .fault
  else .ok ((List.zip (List.range m) idx).flatMap fun (i, t) =>
    let w := convertRow d.fmtA d.fmtD d.rmode d.sat d.n (s.partRead p (d.a + t * rb) rb) (s.partRead p (d.as + t * sb) sb)
    movedTiles d (rowKey d rows i) i w.1 w.2) noWaves []

/-- The order in which SCATTER MODE 1 adds rows: the order of arrival given, then any row it leaves out (R99). -/
def arrivalOrder (order : List Nat) (m : Nat) : List Nat :=
  let o := (order.filter (· < m)).eraseDups
  o ++ (List.range m).filter fun i => !o.contains i

/-- Whether row `i` of an operation belongs to a cancelled slot; a row of an explicit M belongs to none. -/
def rowDead (d : Desc) (rows : List RowEnt) (dead : List Nat) (i : Nat) : Bool :=
  d.m == 0 && (match rows[i]? with
    | some x => dead.contains x.slot
    | none => false)

/-- SCATTER (R99): each table row written is one set of tiles with its final content. A row of a slot in `dead`, which is
cancelled, neither replaces nor adds (R134). R99 rounds the additions of MODE 1 by RMODE and R75 to nearest: where the two differ, which
holds is open (notes/assumptions, row 75). -/
def State.scatterRes (s : State) (p : Fin 4) (d : Desc) (rows : List RowEnt) (order dead : List Nat) : OpRes :=
  let m := d.rowsOf rows
  let idx := (List.range m).map fun i => ofLe (s.partRead p (d.b + 4 * i) 4)
  let rb := rowBytes d.fmtA d.n
  let sb := scaleBytes d.fmtA d.n
  let live := (List.range m).filter fun i => !rowDead d rows dead i
  let targets := (live.map fun i => idx.getD i 0).eraseDups
  if idx.any fun i => decide (d.par 0 ≤ i) then .refuse stBadParam
  else if d.mode = 1 && targets.any (fun t => !(s.partPoison p (d.d + t * rb) rb).isEmpty) then .fault
  else
  let mode := if d.rmode = 0 then 0 else if Config.scatterNearest then 0 else d.rmode
  .ok (targets.flatMap fun t =>
    let hits := (arrivalOrder (if d.mode = 1 then order else []) m).filter fun i => idx.getD i 0 == t && live.contains i
    if d.mode = 0 then
      let i := hits.getLastD 0
      movedTiles d (t, none) t (s.partRead p (d.a + i * rb) rb) (s.partRead p (d.as + i * sb) sb)
    else
      let added := (s.tensorRow p 7 d.d 0 d.n t).vals :: hits.map fun i => (s.tensorRow p 7 d.a 0 d.n i).vals
      let fin := (List.range d.n).map fun j => flagSum mode (added.map (·.getD j .nan))
      movedTiles d (t, none) t (writeRow 7 d.rmode d.sat fin).1 []) noWaves []

/-- COPY (R76, R77, R86). -/
def State.copyRes (s : State) (p : Fin 4) (d : Desc) (rows : List RowEnt) : OpRes :=
  let m := d.rowsOf rows
  .ok ((List.range m).flatMap fun i =>
    if d.mode = 0 then movedTiles d (rowKey d rows i) i (s.partRead p (d.a + i * d.n) d.n) []
    else
      let rb := rowBytes d.fmtA d.n
      let sb := scaleBytes d.fmtA d.n
      let w := convertRow d.fmtA d.fmtD d.rmode d.sat d.n (s.partRead p (d.a + i * rb) rb) (s.partRead p (d.as + i * sb) sb)
      movedTiles d (rowKey d rows i) i w.1 w.2) noWaves []

/-- The maximum of some values: NaN when one of them is, and of two zeros the one that stands first (DESIGN CHOICE,
notes/assumptions, row 100). -/
def maxOf : List FVal → FVal
  | [] => .fin false 0 0
  | v :: r => r.foldl (fun a b => if a = .nan ∨ b = .nan then .nan else if ltVal a b then b else a) v

/-- XREDUCE (R101): `order` is the order in which the ranks' contributions arrive, used by the V mode only. -/
def State.xreduceRes (s : State) (p : Fin 4) (d : Desc) (rows : List RowEnt) (g : GroupSnap) (peers : List Contribution)
    (order : List Nat) : OpRes :=
  let m := d.rowsOf rows
  let rb := rowBytes d.fmtA d.n
  match peersOf g peers (m * rb) with
  | .error e => e
  | .ok cs =>
    let bytesOf (k : Nat) : List Byte :=
      if k = g.rank then s.partRead p d.a (m * rb) else ((cs.find? (·.rank == k)).map (·.bytes)).getD []
    let ranks := if d.mode = 2 then arrivalOrder order g.members.length else List.range g.members.length
    .ok ((List.range m).flatMap fun i =>
      let contrib := ranks.map fun k => (readRow d.fmtA d.n (slice (bytesOf k) (i * rb) rb) []).vals
      let comb (vs : List FVal) : FVal := if d.mode % 2 = 1 then maxOf vs else flagSum 0 vs
      resultTiles d rows i ((List.range d.n).map fun j => comb (contrib.map (·.getD j .nan)))) noWaves []

/-! ### ATTEND (R94, R529) -/

/-- A KV entry of a row that ATTEND writes: slot, position, head, and its four parts' bytes. -/
structure KvEntry where
  slot : Nat
  pos : Nat
  head : Nat
  parts : List (List Byte)
deriving DecidableEq, Repr

/-- The entries one row writes: K and V of each head, quantised to FMT_B along the head dimension. -/
def kvEntries (d : Desc) (r : RowEnt) (row : List FVal) : List KvEntry :=
  let hd := d.par 2
  (List.range (d.par 1)).map fun k =>
    let kx := (row.drop ((d.par 0 + k) * hd)).take hd
    let vx := (row.drop ((d.par 0 + d.par 1 + k) * hd)).take hd
    let kq := writeRow d.fmtB d.rmode d.sat kx
    let vq := writeRow d.fmtB d.rmode d.sat vx
    ⟨r.slot, r.pos, k, [kq.1, kq.2, vq.1, vq.2]⟩

/-- The four parts of an entry as now stored: this operation's own entries over the pages (R94). -/
def State.kvNow (s : State) (sl : Slot) (g : KvGroup) (layer slot head pos : Nat) (new : List KvEntry) : List (List Byte) :=
  match new.find? fun e => e.slot == slot && e.pos == pos && e.head == head with
  | some e => e.parts
  | none => (sl.kvParts g layer head pos).map fun x => s.kvRead slot x.1 x.2.1 x.2.2

/-- One query head's output over the positions 0 to p (R94, R529). R94 names no rounding mode for sc[t]: to nearest (DESIGN
CHOICE, notes/assumptions, row 100). -/
def attendHead (scale : FVal) (q : RowVals) (ks vs : List RowVals) (hd : Nat) : List FVal :=
  let sc := ks.map fun k => fp32 0 (mulVal (fp32 0 (exactDot q k).value) scale)
  if sc.any (fun v => decide (v = .nan)) || sc.any (fun v => decide (v = .inf false)) then List.replicate hd .nan
  else if sc.all (fun v => decide (v = .inf true)) then List.replicate hd (.fin false 0 0)
  else
    let mx := maxVal sc
    let live := (List.zip sc vs).filter fun x => !decide (x.1 = .inf true)
    let w := live.map fun x => expBf16 (addVal 0 x.1 (negVal mx))
    let wExp := maxExp (w.map exponentOf)
    let z := w.foldl Accum.add (Accum.empty wExp)
    match z.value with
    | .fin _ zm ze => (List.range hd).map fun j =>
        let vExp := maxExp (live.map fun x => x.2.blocks.getD (j / 32) none)
        let o := dotAt (anchorOf wExp vExp) w (live.map fun x => x.2.vals.getD j .nan)
        divFp32 0 o.value zm ze
    | _ => List.replicate hd .nan

/-- Pieces of bytes with their places, cut from an offset for a length, for a tile that holds part of them. -/
def cutPieces : List (Dest × List Byte) → Nat → Nat → List (Dest × List Byte)
  | [], _, _ => []
  | (d, b) :: r, off, n =>
    if n = 0 then []
    else if b.length ≤ off then cutPieces r (off - b.length) n
    else
      let take := min n (b.length - off)
      let d' : Dest := match d with
        | .part a => .part (a + off)
        | .kv i h o => .kv i h (o + off)
        | .send => .send
      (d', (b.drop off).take take) :: cutPieces r 0 (n - take)

/-- The PART 2 tiles of a row's KV entry (Table 7-3). -/
def kvTiles (sl : Slot) (g : KvGroup) (layer : Nat) (key : Nat × Option Nat) (es : List KvEntry) : List Tile :=
  let pieces := es.flatMap fun e => (List.zip (sl.kvParts g layer e.head e.pos) e.parts).map fun (x, b) =>
    (Dest.kv e.slot x.1 x.2.1, b)
  let all := pieces.flatMap (·.2)
  let n := ceilDiv all.length 4096
  (List.range n).map fun c => ⟨tileIndex 2 key.1 c, (all.drop (4096 * c)).take 4096,
    cutPieces pieces (4096 * c) (min 4096 (all.length - 4096 * c)), key.2⟩

/-- TENT_LIMIT (Table 5-2). -/
def Slot.tentLimit (sl : Slot) : Nat := sl.commit + sl.fedNow + sl.tentPos

/-- Whether a row of ATTEND is refused at address resolve: no such layer, another geometry, at or beyond TENT_LIMIT
(R94, R115). -/
def State.attendBad (s : State) (d : Desc) (r : RowEnt) : Bool :=
  let sl := s.slot r.slot
  match sl.groupOf (d.par 3) with
  | none => true
  | some (g, _, _) => g.nkvh != d.par 1 || g.headDim != d.par 2 || g.fmt != d.fmtB || decide (sl.tentLimit ≤ r.pos)

/-- ATTEND (R94, R95, R529); the rows of the slots in `dead`, which are cancelled, take no part (R134). -/
def State.attendRes (s : State) (p : Fin 4) (d : Desc) (rows : List RowEnt) (dead : List Nat) : OpRes :=
  let m := d.rowsOf rows
  let hd := d.par 2
  let live := (List.zip (List.range m) rows).filter fun x => !dead.contains x.2.slot
  let rs := live.map (·.2)
  if rows.length < m || rs.any (s.attendBad d) then .refuse stBadParam
  else
    let width := (d.par 0 + 2 * d.par 1) * hd
    let vals := live.map fun x => (s.tensorRow p d.fmtA d.a 0 width x.1).vals
    let new := (List.zip rs vals).flatMap fun x => kvEntries d x.1 x.2
    let scale := decodeF layFP32 (d.par 4)
    let tensor (bs sc : List Byte) : RowVals := readRow d.fmtB hd bs sc
    let lost := rs.any fun r =>
      let sl := s.slot r.slot
      match sl.groupOf (d.par 3) with
      | none => false
      | some (g, _, _) => (List.range (r.pos + 1)).any fun t => (List.range g.nkvh).any fun k =>
          !(new.any fun e => e.slot == r.slot && e.pos == t && e.head == k) &&
            (sl.kvParts g (d.par 3) k t).any fun x => s.kvPoison r.slot x.1 x.2.1 x.2.2
    if lost then .fault
    else
      let top := ((rows.take m).map (·.pos)).foldl max 0
      .ok ((List.zip live vals).flatMap fun ((i, r), row) =>
        let sl := s.slot r.slot
        match sl.groupOf (d.par 3) with
        | none => []
        | some (g, _, _) =>
          let kv (head t : Nat) : RowVals × RowVals :=
            let b := s.kvNow sl g (d.par 3) r.slot head t new
            (tensor (b.getD 0 []) (b.getD 1 []), tensor (b.getD 2 []) (b.getD 3 []))
          let out := (List.range (d.par 0)).flatMap fun h =>
            let qv := ((row.drop (h * hd)).take hd).map fun v => if d.fmtA = 7 then bf16 v else v
            let head := h * d.par 1 / d.par 0
            let kvs := (List.range (r.pos + 1)).map (kv head)
            attendHead scale ⟨qv, blockExps qv⟩ (kvs.map (·.1)) (kvs.map (·.2)) hd
          resultTiles d rows i out ++
            kvTiles sl g (d.par 3) (rowKey d rows i) (new.filter fun e => e.slot == r.slot && e.pos == r.pos))
        ⟨s.attendWaves d m top .west, s.attendWaves d m top .east⟩ []

end Sys2Proof.Machine
end

