-- ==== Sys2Proof/Machine/Arrays.lean ====
section
/-! DEFINITION. The arrays' columns, slab checks and sentinels (R42-R48), and the HBM's scrub, retirement and fencing
(R156-R159). -/

namespace Sys2Proof.Machine

/-! ### Columns (R44) -/

/-- The state of a physical column; 32 is the spare column. -/
def Arr.col (a : Arr) (i : Nat) : ColState := tget .good a.cols i

/-- Physical columns in a state, in ascending order. -/
def Arr.inState (a : Arr) (c : ColState) : List Nat := (List.range 33).filter fun i => a.col i == c

/-- Logical columns bound again: the lowest 32 in service, then reserve columns, which return to service (R44). -/
def Arr.bind (a : Arr) : Arr :=
  let good := a.inState .good
  let b := (good ++ a.inState .reserve).take 32
  { a with
    bound := b,
    cols := (b.filter fun i => a.col i == .reserve).foldl (fun t i => tset .good t i .good) a.cols }

/-- The ADDRESS of an array fault: the check that declared it, the column, the slab row (Table 18-3). -/
def slabAddr (check column row : Nat) : Nat := check * 2 ^ 16 + column * 2 ^ 8 + row % 32

/-- A column is declared failed (R43-R45): columns bound again, the Oculus table, then the column's own entry; the half is
lost when no column is left. A column that is not bound logs SPARE_COLUMN_FAILED, whichever it is, and one whose place any
unbound column takes logs COLUMN_REMAPPED (DESIGN CHOICE for a reserve column, notes/assumptions, row 101). -/
def State.failColumn (s : State) (h : Half) (column row check : Nat) : State :=
  let a := s.arr.get h
  if a.col column = .failed ∨ 33 ≤ column then s
  else
    let was := a.bound.contains column
    let s := s.modArr h fun a =>
      ({ a with cols := tset .good a.cols column .failed, lastFailed := some column } : Arr).bind
    let c := (s.arr.get h).bound.length
    if c = 0 then s.loseHalf h (srcArray h)
    else
      let s := s.oculusUpdate
      let addr := slabAddr check column row
      if !was then s.report (srcArray h) .corrected 4 addr
      else if c < a.bound.length then s.report (srcArray h) .contained 3 addr
      else s.report (srcArray h) .corrected 2 addr

/-- Waves spent again counted in ARR_WAVES_RETRY. -/
def State.countRetry (s : State) (h : Half) (n : Nat) : State := s.modArr h fun a => { a with wavesRetry := a.wavesRetry + n }

/-- An unstated number of waves spent again: a free value (notes/assumptions, row 3). -/
def State.countFreeRetry (s : State) (h : Half) : State :=
  let f := s.takeFree
  f.2.countRetry h (Config.freeValue f.1).toNat

/-- A slab failure handled in the operation in flight makes its wave count inexact (R21, Table 7-5); where the array's
columns changed, the manual gives the count no value: a free value (notes/assumptions, row 3). -/
def State.markInexact (s : State) (h : Half) (narrowed : Bool) : State :=
  match s.eng.run with
  | none => s
  | some r =>
    let f := s.takeFree
    let w := (Config.freeValue f.1).toNat
    f.2.setRun (some { r with cur := r.cur.map fun (o : OpFlight) =>
      { o with inexact := true, waves := if narrowed then o.waves.set h w else o.waves } })

/-- A slab of a bound column is declared failed while the operation in flight runs over it (R45, Table 2-8). -/
def State.failSlab (s : State) (h : Half) (column row check : Nat) : State :=
  let before := (s.arr.get h).bound.length
  let s := (s.countFreeRetry h).failColumn h column row check
  s.markInexact h ((s.arr.get h).bound.length != before)

/-- The operation in flight, when tile `k` of it is still to be written and a column of the half carries it. -/
def State.slabBusy (s : State) (h : Half) (column k : Nat) : Option (Run × OpFlight) :=
  match s.eng.run with
  | none => none
  | some r => match r.cur with
    | none => none
    | some o => if k < o.tiles.length ∧ (s.arr.get h).bound.contains column then some (r, o) else none

/-- SLAB_CHECK_FAIL (R42, R43, R45): the first residue or code failure of a slab in 10 s re-executes the tile; the second
declares the slab failed, and the operation continues over the new binding. Either is a slab failure handled, so the
operation's wave count is inexact (R21; DEDUCED, notes/assumptions, row 22), and the waves spent again have no stated number. -/
def execSlabCheckFail (t : Nat) (half : Half) (column row : Nat) (code : Bool) (k : Nat) (s : State) :
    Host.Outcome State Fault Refusal :=
  let s := s.atTime t
  .next (match s.slabBusy half column k with
    | none => s
    | some _ =>
      let a := s.arr.get half
      let again := a.checks.any fun c => c.1 == column && c.2.1 == row && decide (s.now ≤ c.2.2 + 10 ^ 10)
      let s := s.modArr half fun a => { a with
        checks := (a.checks.filter fun c => decide (s.now ≤ c.2.2 + 10 ^ 10)) ++ [(column, row, s.now)] }
      if again then s.failSlab half column row (b2n code)
      else ((s.countFreeRetry half).markInexact half false).report (srcArray half) .corrected 1
        (slabAddr (b2n code) column row))

/-- SLAB_STALL_WATCHDOG (R42, R43, R45): no handshake progress for 2 µs. -/
def execSlabStallWatchdog (t : Nat) (half : Half) (column row k : Nat) (s : State) : Host.Outcome State Fault Refusal :=
  let s := s.atTime t
  .next (match s.slabBusy half column k with
    | none => s
    | some _ => s.failSlab half column row 2)

/-- Twice the median of some values: the middle one twice, or the two middle ones together. -/
def median2 (l : List Nat) : Nat :=
  let o := l.foldl (fun acc v => insertById id v acc) []
  let n := o.length
  if n = 0 then 0 else o.getD ((n - 1) / 2) 0 + o.getD (n / 2) 0

/-- Every column's slowdown, and since when a column has been more than ten points above the median of those in service
(R47, R48). -/
def Arr.sentinels (a : Arr) (slowdowns : List Nat) (now : Nat) : Arr :=
  let cols := (List.range 33).filter fun i => decide (i < slowdowns.length)
  let a := { a with sent := cols.foldl (fun m i => tset 0 m i (min 65535 (slowdowns.getD i 0))) a.sent }
  let m2 := median2 ((a.inState .good).map fun i => tget 0 a.sent i)
  { a with slowSince := cols.foldl (fun m i =>
      if m2 + 2000 < 2 * tget 0 a.sent i then
        (match tget none m i with
         | some _ => m
         | none => tset none m i (some now))
      else tset none m i none) a.slowSince }

/-- SENTINEL_WARN: a sentinel above 8.00 % (R47). -/
def Arr.sentinelWarn (a : Arr) : Bool := (List.range 33).any fun i => decide (800 < tget 0 a.sent i)

/-- PROACTIVE_RESERVE (R48): a column slow for an hour goes into reserve while the spare is in service and unbound; the
binding changes at the next operation boundary, which is now when no operation is in flight. -/
def execProactiveReserve (t : Nat) (half : Half) (column : Nat) (s : State) : Host.Outcome State Fault Refusal :=
  let s := s.atTime t
  let a := s.arr.get half
  let slow : Bool := match tget none a.slowSince column with
    | none => false
    | some x => decide (x + 3600 * 10 ^ 9 ≤ s.now)
  .next (if a.remapEn && slow && a.col column == .good && decide (column < 32) && decide (33 ≤ (a.inState .good).length) &&
      decide (a.half = .inService) then
    let s := s.modArr half fun a =>
      let a := { a with cols := tset .good a.cols column .reserve }
      if s.eng.run.any (·.cur.isSome) then a else a.bind
    (s.oculusUpdate).report (srcArray half) .corrected 5 (column * 2 ^ 8)
  else s)

/-- ARR_RATE_UPDATE (R51). -/
def execArrRateUpdate (t : Nat) (half : Half) (measured : Nat) (s : State) : Host.Outcome State Fault Refusal :=
  .next ((s.atTime t).modArr half fun a => { a with measured := min 4095 measured })

/-! ### HBM (R156-R159) -/

/-- SCRUB_PASS (R156, R157): every word of the half with stored errors is decoded, row tags that do not match are address
errors, and pseudo-channels whose parity errors persist are fenced. `badTags` are pseudo-channel × 2^20 + row. -/
def execScrubPass (t : Nat) (half : Half) (upsets : List Upset) (badTags parity : List Nat) (s : State) :
    Host.Outcome State Fault Refusal :=
  let s := s.atTime t
  let x := s.hbm.get half
  .next (if x.selfRefresh || x.ctrl % 16 == 0 then s
    else
      let s := (s.strike upsets).settle fun w => dpaHalf (8 * w) == half
      let s := badTags.foldl (fun s b =>
        let pc := b / 2 ^ 20
        let row := b % 2 ^ 20
        let s := s.modHbm half fun y => { y with addressErrors := y.addressErrors + 1 }
        (s.report (srcStack half (pc / 64)) .contained 3 (eccAddr pc row 0 0x7F)).retireDue (s.mem.upset.length + 1)
          [(half, pc, row, rowFrames row)]) s
      parity.foldl (fun s pc => s.fencePc half pc) s)

/-- RETIRE_PENDING_RESOLVE (R158): the copies that waited are made as soon as a frame of the half is free. -/
def execRetirePendingResolve (t : Nat) (half : Half) (s : State) : Host.Outcome State Fault Refusal :=
  let s := s.atTime t
  .next ((s.hbm.get half).retirePending.foldl (fun s e =>
    if (s.hbm.get half).freeSpare.isSome || (s.hbm.get half).freeFrame.isSome then
      (s.settle fun w => w / 2 ^ 18 == dpaFrame half (e % 2 ^ 20)).retireFrame half (e / 2 ^ 20) (e % 2 ^ 20)
    else s) s)

/-- The fences that wait are begun again, where a slot or frames are now free (R159). -/
def State.retryFences (s : State) (h : Half) : State := (s.hbm.get h).fencePending.foldl (fun s pc => s.fencePc h pc) s

/-- PC_RELOCATION_DONE (R159): the oldest copy is made, every word having been read on the way; from now on its lines are
served from the new place, and the fence is a contained fault, after the Oculus table shows it. -/
def execPcRelocationDone (t : Nat) (half : Half) (s : State) : Host.Outcome State Fault Refusal :=
  let s := s.atTime t
  .next (match (s.hbm.get half).relocating with
    | [] => s
    | f :: rest =>
      let s := s.settle fun w => dpaHalf (8 * w) == half && s.pcOf w == f.1
      let s := (s.modHbm half fun y => { y with relocating := rest, fencedPcs := y.fencedPcs ++ [f] }).oculusUpdate
      (s.report (srcStack half (f.1 / 64)) .contained 6 ((f.1 % 64) <<< 34)).retryFences half)

/-- FENCE_PENDING_RESOLVE (R159): the fence completes when frames are freed. -/
def execFencePendingResolve (t : Nat) (half : Half) (s : State) : Host.Outcome State Fault Refusal :=
  .next ((s.atTime t).retryFences half)

end Sys2Proof.Machine
end

