-- ==== Sys2Proof/Machine/Engine.lean ====
section
/-! DEFINITION. Operations in the arrays: forming runs, resolving, starting, writing and closing operations, VERIFY,
fences, loops and the drafter section (chapters 4, 5 and 7; R389-R406). -/

namespace Sys2Proof.Machine

/-! ### Address resolve -/

/-- A run's refusal in its drafter section: it ends the drafter work only, and the slots hold no drafts (R98). -/
def State.refuseDraft (s : State) (r : Run) (l : OpList) (d : Desc) (dr : DraftSt) : State :=
  let (s, r) := s.trace r l (r.pc - l.targetLen) d.kind d.mark 3 dr.iter 0 0 d.tag
  let s := r.members.foldl (fun s m => if m.cancelled then s else s.modSlot m.slot fun x => { x with
    drafts := [], report := x.report.map fun (p : Report) => if m.committed then { p with refused := true } else p }) s
  s.finishRun { r with cur := none, draft := some { dr with refused := true } } (if r.degraded = 0 then stOK else stDegraded)

/-- An operation is stopped with a status: in the target section the run ends (R108, R154), in the drafter section the
drafter work does. -/
def State.stopOp (s : State) (r : Run) (l : OpList) (d : Desc) (status : Nat) : State :=
  match r.draft with
  | some dr => s.refuseDraft r l d dr
  | none => s.refuseOp r l d status

/-- The group that an operation names, from the run's snapshot; refused when the snapshot broke R401 or the operation's
first message has no route (R392). -/
def State.opGroup (s : State) (r : Run) (d : Desc) : Except Nat (Option GroupSnap) :=
  if d.group = 0 then .ok none
  else match r.groups.find? (·.group == d.group) with
    | none => .error stBadParam
    | some g =>
      if d.kind = kXsend ∨ d.kind = kXrecv then
        match g.members[d.par 0]? with
        | none => .error stBadParam
        | some m => if d.kind = kXsend ∧ !s.routable m.1 then .error stBadParam else .ok (some g)
      else if s.firstRoutable g d then .ok (some g) else .error stBadParam

/-- Whether a range lies within a union of ranges. -/
def covered : Nat → List (Nat × Nat) → Nat → Nat → Bool
  | 0, _, _, n => n == 0
  | fuel + 1, rs, a, n =>
    n == 0 || (match rs.find? fun x => decide (x.1 ≤ a) && decide (a < x.1 + x.2) with
      | none => false
      | some x => covered fuel rs (a + min n (x.1 + x.2 - a)) (n - min n (x.1 + x.2 - a)))

/-- A drafter descriptor writes outside the drafter scratch of the slots in the pass (R98). -/
def State.outsideScratch (s : State) (r : Run) (d : Desc) : Bool :=
  match r.draft with
  | none => false
  | some dr =>
    let rs := dr.pass.map fun i => ((s.slot i).scratch, (s.slot i).scratchLen)
    !(d.writes (d.rowsOf r.rows)).all fun w => covered (rs.length + 1) rs w.1 w.2

/-- Cancelled slots of a run. -/
def Run.dead (r : Run) : List Nat := (r.members.filter (·.cancelled)).map (·.slot)

/-- The words that an operation reads, decoded (R153): of a GATHER table only the rows named, of a SCATTER MODE 1 table the
rows it adds to, of a slot's pages the positions attended. -/
def State.fetch (s : State) (r : Run) (d : Desc) : State :=
  if s.mem.upset = [] then s
  else
    let p := r.part
    let m := d.rowsOf r.rows
    let indices (s : State) : List Nat := ((List.range m).map fun i => ofLe (s.partRead p (d.b + 4 * i) 4)).filter (· < d.par 0)
    if d.kind = kGather then
      let s := s.settlePart p d.b (4 * m)
      (indices s).foldl (fun s i =>
        (s.settlePart p (d.a + i * rowBytes d.fmtA d.n) (rowBytes d.fmtA d.n)).settlePart p
          (d.as + i * scaleBytes d.fmtA d.n) (scaleBytes d.fmtA d.n)) s
    else
      let s := s.settleReads p d m
      if d.kind = kScatter ∧ d.mode = 1 then
        (indices s).foldl (fun s i => s.settlePart p (d.d + i * rowBytes d.fmtD d.n) (rowBytes d.fmtD d.n)) s
      else if d.kind = kAttend then
        (r.rows.take m).foldl (fun s x =>
          let sl := s.slot x.slot
          if r.dead.contains x.slot then s
          else match sl.groupOf (d.par 3) with
            | none => s
            | some (g, _, _) => (List.range (x.pos + 1)).foldl (fun s t => (List.range g.nkvh).foldl (fun s k =>
                (sl.kvParts g (d.par 3) k t).foldl (fun s q => s.settleKv x.slot q.1 q.2.1 q.2.2) s) s) s) s
      else s

/-- The first word of a half's copy of a list, in its firmware area (R29, R145). -/
def listCopy (h : Half) (key : Nat) : Nat :=
  (halfNo h * halfBytes + firmwareBase * 2 ^ 21) / 8 + 16 * (Config.listPlace (1024 * halfNo h + key)).toNat

/-- The copies of a list of `n` descriptors written: whole words, so that none is lost (R29, R155). -/
def State.freshCopies (s : State) (key n : Nat) : State :=
  s.runHalves.foldl (fun s h =>
    let lo := listCopy h key
    { s with mem := { s.mem with
      poison := tclear s.mem.poison lo (lo + 16 * n), upset := tclear s.mem.upset lo (lo + 16 * n),
      badLoc := tclear s.mem.badLoc lo (lo + 16 * n) } }) s

/-- Each half fetches the descriptor in turn from its own copy (R29). A copy with a lost word is written over from the other
half's, a corrected fault; where no other copy is good the fetch fails (Table 6-6; DESIGN CHOICE, notes/assumptions, row 84). -/
def State.fetchDesc (s : State) (r : Run) : State × Bool :=
  if s.mem.upset.isEmpty && s.mem.poison.isEmpty && s.mem.fpoison.isEmpty && s.mem.badLoc.isEmpty then (s, true)
  else
    let first (h : Half) : Nat := listCopy h (listKey r.part r.list) + 16 * r.pc
    let s := s.settle fun w => s.runHalves.any fun h => decide (first h ≤ w) && decide (w < first h + 16)
    let bad (h : Half) : Bool := (List.range 16).any fun i => s.lostWord (first h + i)
    match s.runHalves.filter bad with
    | [] => (s, true)
    | h :: _ =>
      if !(s.runHalves.contains (other h)) || bad (other h) then (s, false)
      else
        let m := (List.range 16).foldl (fun m i => writeInWord m (first h + i) 0 (List.replicate 8 0)) s.mem
        (({ s with mem := m } : State).report 0x003 .corrected 1 (r.part.val * 2 ^ 32 + r.list), true)

/-- The operation in turn resolved: its run, list, descriptor and group, or the state that resolve leaves when it stops it.
An operand is read as memory holds it at this moment, also where a host has written it without the FENCE of R36 and the front
pipeline might still hold the older value (DESIGN CHOICE, notes/assumptions, row 79). After a droop no operation
starts (R420). A GATHER and an XSEND meet poison by rules of their own. -/
def State.enter (s : State) (kind : Nat) (us : List Upset) : Except State (State × Run × OpList × Desc × Option GroupSnap) :=
  match s.turn kind with
  | none => .error s
  | some (r, l, d) =>
    let fetched := (s.strike us).fetchDesc r
    let s := fetched.1
    if s.eng.hold then .error s
    else if !fetched.2 then .error (s.stopOp r l d stFaulted)
    else match s.opGroup r d with
      | .error st => .error (s.stopOp r l d st)
      | .ok g => match s.rangeRefusal r.part d (d.rowsOf r.rows) with
        | some st => .error (s.stopOp r l d st)
        | none =>
          if s.outsideScratch r d then .error (s.stopOp r l d stBadParam)
          else
            let s := s.fetch r d
            if kind != kGather && kind != kXsend && s.readsPoison r.part d (d.rowsOf r.rows)
            then .error (s.stopOp r l d stFaulted)
            else .ok (s.farOp r d, r, l, d, g)

/-- An operation begins in the arrays; a half whose epilogue met an anchor mismatch issues its message (R73). -/
def State.startOp (s : State) (r : Run) (d : Desc) (tiles : List Tile) (waves : Both Nat) (bad : List Half) : State :=
  let s := bad.foldl (fun s h => s.report (srcArray h) .contained 6 (r.part.val * 2 ^ 32 + r.number)) s
  s.setRun (some { s.runAhead r d with
    cur := some { desc := d, tiles := tiles, digest := 0, waves := waves, inexact := false, retried := [], slots := [],
                  poison := [], faulted := !bad.isEmpty, pausedFor := none, order := [] } })

/-- What an operation comes to, carried out. -/
def State.perform (s : State) (r : Run) (l : OpList) (d : Desc) (x : OpRes) : State :=
  match x with
  | .wait => s
  | .refuse st => s.stopOp r l d st
  | .fault => s.stopOp r l d stFaulted
  | .ok tiles waves bad => s.startOp r d tiles waves bad

/-- An operation of a kind that exchanges nothing. -/
def State.runOp (s : State) (t kind : Nat) (us : List Upset) (f : State → Run → Desc → OpRes) :
    Host.Outcome State Fault Refusal :=
  .next (match (s.atTime t).enter kind us with
    | .error s => s
    | .ok (s, r, l, d, _) => s.perform r l d (f s r d))

/-! ### Collectives (R403-R406) -/

/-- The other ranks of a group. -/
def GroupSnap.others (g : GroupSnap) : List Nat := (List.range g.members.length).filter (· ≠ g.rank)

/-- The contributions at hand: those given, and those claimed from the holding pool; none when a message is of another
type or length (R404). -/
def State.collect (s : State) (p : Fin 4) (g : GroupSnap) (type len : Nat) (given : List Contribution) :
    Option (List Contribution) :=
  let seq := (s.group p.val g.group).wide
  g.others.foldl (fun acc k => match acc with
    | none => none
    | some l => match given.find? (·.rank == k) with
      | some c => some (l ++ [c])
      | none => match s.claim p g k type 0 seq len with
        | .wait => some l
        | .bad => none
        | .got b _ => some (l ++ [⟨k, b⟩])) (some [])

/-- A group-wide operation is done: its messages leave the pool and the group counts it (R403). -/
def State.endWide (s : State) (p : Fin 4) (g : GroupSnap) : State :=
  let key := 256 * p.val + g.group
  let seq := (s.group p.val g.group).wide
  let s := g.others.foldl (fun s k => s.unmatch p g k false 0 seq) s
  { s with fab := { s.fab with groups := tmod GroupSt.init s.fab.groups key fun x => { x with wide := x.wide + 1 } } }

/-- This member's share of a group-wide operation goes to every other member once (R405). -/
def State.sendWide (s : State) (r : Run) (g : GroupSnap) (type tag : Nat) (bytes : List Byte) : State × Run :=
  if r.sentTo.contains (r.index, g.group) then (s, r)
  else (s.sendAll r.part g type tag (s.group r.part.val g.group).wide bytes, { r with sentTo := [(r.index, g.group)] })

/-- A group-wide operation: it sends, waits for every member, and then is computed from all contributions. -/
def State.groupOp (s : State) (r : Run) (l : OpList) (d : Desc) (g : Option GroupSnap) (type len : Nat) (own : List Byte)
    (given : List Contribution) (f : List Contribution → OpRes) : State :=
  match g with
  | none => s.perform r l d (f [])
  | some sn =>
    let (s, r) := s.sendWide r sn type 0 own
    match s.collect r.part sn type len given with
    | none => (s.endWide r.part sn).stopOp r l d stBadParam
    | some cs => match f cs with
      | .wait => (s.setRun (some r)).retryPool
      | .ok tiles waves bad => (s.endWide r.part sn).startOp r d tiles waves bad
      | x => s.perform r l d x

/-! ### The kinds -/

/-- MATMUL (R23, R63-R74, R87-R93). -/
def execMatmul (t : Nat) (peers : List Contribution) (upsets : List Upset) (s : State) : Host.Outcome State Fault Refusal :=
  .next (match (s.atTime t).enter kMatmul upsets with
    | .error s => s
    | .ok (s, r, l, d, g) =>
      let m := d.rowsOf r.rows
      s.groupOp r l d g 2 (2 * (m + d.n)) (if g.isSome then maximaBytes (s.ownMaxima r.part d m) else []) peers
        (s.matmulRes r.part d r.rows g))

/-- The tentative entries an ATTEND writes move its slots' tentative pointers (R113). -/
def State.noteTent (s : State) (r : Run) (d : Desc) : State :=
  (r.rows.take (d.rowsOf r.rows)).foldl (fun s x =>
    if r.dead.contains x.slot then s
    else s.modSlot x.slot fun sl => { sl with
      tent := max sl.tent (x.pos + 1) }) s

/-- ATTEND (R94, R95, R115, R529). -/
def execAttend (t : Nat) (upsets : List Upset) (s : State) : Host.Outcome State Fault Refusal :=
  .next (match (s.atTime t).enter kAttend upsets with
    | .error s => s
    | .ok (s, r, l, d, _) => match s.attendRes r.part d r.rows r.dead with
      | .ok tiles waves bad => (s.noteTent r d).startOp r d tiles waves bad
      | x => s.perform r l d x)

/-- NORM (R96). -/
def execNorm (t : Nat) (upsets : List Upset) (s : State) : Host.Outcome State Fault Refusal :=
  s.runOp t kNorm upsets fun s r d => s.normRes r.part d r.rows

/-- ACT (R89). -/
def execAct (t : Nat) (upsets : List Upset) (s : State) : Host.Outcome State Fault Refusal :=
  s.runOp t kAct upsets fun s r d => s.actRes r.part d r.rows

/-- ROPE (R97). -/
def execRope (t : Nat) (upsets : List Upset) (s : State) : Host.Outcome State Fault Refusal :=
  s.runOp t kRope upsets fun s r d => s.ropeRes r.part d r.rows

/-- SAMPLE (R126, R127). -/
def execSample (t : Nat) (upsets : List Upset) (s : State) : Host.Outcome State Fault Refusal :=
  s.runOp t kSample upsets fun s r d => (s.tokenRes r.part d r.rows).1

/-- DRAFT (R127): its tokens are those of the iteration when it is the last DRAFT of the section (R98). -/
def execDraft (t : Nat) (upsets : List Upset) (s : State) : Host.Outcome State Fault Refusal :=
  .next (match (s.atTime t).enter kDraft upsets with
    | .error s => s
    | .ok (s, r, l, d, _) =>
      let x := s.tokenRes r.part d r.rows
      let toks := (List.zip (List.range x.2.length) x.2).foldl (fun m y => tset 0 m y.1 (y.2 + 1)) []
      s.perform { r with samples := toks } l d x.1)

/-- GATHER (R99). -/
def execGather (t : Nat) (upsets : List Upset) (s : State) : Host.Outcome State Fault Refusal :=
  s.runOp t kGather upsets fun s r d => s.gatherRes r.part d r.rows

/-- SCATTER (R99); `order` is the order in which rows arrive, which MODE 1 follows. -/
def execScatter (t : Nat) (order : List Nat) (upsets : List Upset) (s : State) : Host.Outcome State Fault Refusal :=
  .next (match (s.atTime t).enter kScatter upsets with
    | .error s => s
    | .ok (s, r, l, d, _) =>
      let s := s.perform r l d (s.scatterRes r.part d r.rows order r.dead)
      match s.eng.run with
      | none => s
      | some r => s.setRun (some { r with cur := r.cur.map fun (o : OpFlight) => { o with order := order } }))

/-- COPY (R76, R77). -/
def execCopy (t : Nat) (upsets : List Upset) (s : State) : Host.Outcome State Fault Refusal :=
  s.runOp t kCopy upsets fun s r d => s.copyRes r.part d r.rows

/-- XSEND (R100, R405): DATA messages to one rank, poisoned words sent poisoned and counted (R154). -/
def execXsend (t : Nat) (upsets : List Upset) (s : State) : Host.Outcome State Fault Refusal :=
  .next (match (s.atTime t).enter kXsend upsets with
    | .error s => s
    | .ok (s, r, l, d, none) => s.stopOp r l d stBadParam
    | .ok (s, r, _, d, some g) =>
      let bytes := s.partRead r.part d.a d.n
      let bad := s.partPoison r.part d.a d.n
      let key := d.par 0 * 2 ^ 32 + d.par 1
      let st := s.group r.part.val g.group
      let s := s.sendTo r.part g (d.par 0) 1 (d.par 1) (tget 0 st.sent key) bytes bad
      let s := { s with fab := { s.fab with
        groups := tmod GroupSt.init s.fab.groups (256 * r.part.val + g.group) fun x =>
          { x with sent := tmod 0 x.sent key (· + 1) } } }
      s.startOp { r with degraded := r.degraded + bad.length } d (rowTiles 3 0 none (fun _ => .send) bytes) noWaves [])

/-- XRECV (R100, R403, R404): it waits until every byte from the rank with the tag is held. -/
def execXrecv (t : Nat) (s : State) : Host.Outcome State Fault Refusal :=
  .next (match (s.atTime t).enter kXrecv [] with
    | .error s => s
    | .ok (s, r, l, d, none) => s.stopOp r l d stBadParam
    | .ok (s, r, l, d, some g) =>
      let key := d.par 0 * 2 ^ 32 + d.par 1
      let seq := tget 0 (s.group r.part.val g.group).got key
      let take (s : State) : State :=
        let s := s.unmatch r.part g (d.par 0) true (d.par 1) seq
        { s with fab := { s.fab with
          groups := tmod GroupSt.init s.fab.groups (256 * r.part.val + g.group) fun x =>
            { x with got := tmod 0 x.got key (· + 1) } } }
      match s.claim r.part g (d.par 0) 1 (d.par 1) seq d.n with
      | .wait => (s.setRun (some { r with sentTo := [(r.index, g.group)] })).retryPool
      | .bad => (take s).stopOp r l d stBadParam
      | .got b bad =>
        let s := (take s).startOp r d (rowTiles 0 0 none (fun o => .part (d.d + o)) b) noWaves []
        match s.eng.run with
        | none => s
        | some r => s.setRun (some { r with cur := r.cur.map fun (o : OpFlight) => { o with poison := bad.map (· + d.d) } }))

/-- XREDUCE (R101). -/
def execXreduce (t : Nat) (peers : List Contribution) (order : List Nat) (upsets : List Upset) (s : State) :
    Host.Outcome State Fault Refusal :=
  .next (match (s.atTime t).enter kXreduce upsets with
    | .error s => s
    | .ok (s, r, l, d, none) => s.stopOp r l d stBadParam
    | .ok (s, r, l, d, some g) =>
      let len := d.rowsOf r.rows * rowBytes d.fmtA d.n
      s.groupOp r l d (some g) 3 len (s.partRead r.part d.a len) peers
        fun cs => s.xreduceRes r.part d r.rows g cs order)

/-- EXACT_REDUCE (R73, R92). -/
def execExactReduce (t : Nat) (peers : List Contribution) (upsets : List Upset) (s : State) :
    Host.Outcome State Fault Refusal :=
  .next (match (s.atTime t).enter kExactReduce upsets with
    | .error s => s
    | .ok (s, r, l, d, g) =>
      let len := d.rowsOf r.rows * d.n * 32
      s.groupOp r l d g 4 len (if g.isSome then s.partRead r.part d.a len else []) peers
        (s.exactReduceRes r.part d r.rows g))

/-- DIGEST_MARK's record (R102). Bytes 4-7 of a mark with no operation before it are 0xFFFFFFFF (DESIGN CHOICE,
notes/assumptions, row 100). -/
def Run.markRecord (r : Run) (d : Desc) : List Byte :=
  leBytes 4 (d.par 0) ++ leBytes 4 (if r.index = 0 then 0xFFFFFFFF else r.index - 1) ++ leBytes 8 r.markDigest.toNat ++
    leBytes 8 r.markWaves ++ leBytes 4 d.tag ++ [0, 0, 0, 0]

/-- DIGEST_MARK (R102): the record is no digest tile. -/
def execDigestMark (t : Nat) (s : State) : Host.Outcome State Fault Refusal :=
  .next (match (s.atTime t).enter kMark [] with
    | .error s => s
    | .ok (s, r, _, d, _) => (s.partWrite r.part d.d (r.markRecord d)).startOp r d [] noWaves [])

/-- LOOP (R104): its body is entered with iteration 0; the LOOP itself is no operation of the run. -/
def execLoop (t : Nat) (s : State) : Host.Outcome State Fault Refusal :=
  let s := s.atTime t
  .next (match s.turn kLoop with
    | none => s
    | some (r, l, d) =>
      let f := s.fetchDesc r
      if f.2 then f.1.setRun (some (r.enterLoop d)) else f.1.stopOp r l d stFaulted)

/-! ### FENCE (R103) -/

/-- The BARRIER of every other member is held. -/
def State.barrier (s : State) (p : Fin 4) (g : GroupSnap) (tag : Nat) : Claim :=
  let seq := (s.group p.val g.group).wide
  g.others.foldl (fun acc k => match acc with
    | .got _ _ => s.claim p g k 5 tag seq 0
    | x => x) (.got [] [])

/-- A waiting FENCE's condition. -/
def State.fenceMet (s : State) (r : Run) (f : FenceWait) : Claim :=
  if f.mode = 1 then
    if f.value ≤ ofLe (s.partRead r.part f.addr 4) then .got [] [] else .wait
  else match r.groups.find? (·.group == f.group) with
    | none => .bad
    | some g => s.barrier r.part g f.value

/-- What a FENCE comes to: it completes, is refused (R404), or waits on. -/
def State.tryFence (s : State) (r : Run) (l : OpList) (d : Desc) (f : FenceWait) : State :=
  let done (s : State) : State :=
    if f.mode = 2 then match r.groups.find? (·.group == f.group) with
      | some g => s.endWide r.part g
      | none => s
    else s
  match s.fenceMet r f with
  | .wait => s.setRun (some { r with fence := some f })
  | .bad => (done s).stopOp { r with fence := none } l d stBadParam
  | .got _ _ => (done s).startOp { r with fence := none } d [] noWaves []

/-- FENCE (R103). -/
def execFence (t : Nat) (s : State) : Host.Outcome State Fault Refusal :=
  .next (match (s.atTime t).enter kFence [] with
    | .error s => s
    | .ok (s, r, l, d, g) =>
      let f : FenceWait := ⟨d.mode, d.x, d.par 0, d.group, s.now, d.par 1⟩
      if d.mode = 0 then s.startOp r d [] noWaves []
      else match g with
        | none => s.tryFence r l d f
        | some sn =>
          let (s, r) := s.sendWide r sn 5 (d.par 0) []
          s.tryFence r l d f)

/-- The run that waits at a FENCE, its list and the FENCE's descriptor. -/
def State.atFence (s : State) : Option (Run × OpList × Desc × FenceWait) :=
  match s.eng.run with
  | none => none
  | some r => match r.fence, s.list r.part r.list with
    | some f, some l => (r.desc l).map fun d => (r, l, d, f)
    | _, _ => none

/-- FENCE_SATISFIED (R103): the condition holds, and resolve goes on. -/
def execFenceSatisfied (t : Nat) (s : State) : Host.Outcome State Fault Refusal :=
  let s := s.atTime t
  .next (if !s.canRun then s
    else match s.atFence with
      | none => s
      | some (r, l, d, f) =>
        let s := if f.mode = 1 then s.settlePart r.part f.addr 4 else s
        if f.mode = 1 ∧ !(s.partPoison r.part f.addr 4).isEmpty then s.stopOp { r with fence := none } l d stFaulted
        else s.tryFence r l d f)

/-- FENCE_TIMEOUT (R103, R406): a wait past P1 µs is refused with BUSY, and a mode-2 FENCE spends its group's epoch. -/
def execFenceTimeout (t : Nat) (s : State) : Host.Outcome State Fault Refusal :=
  let s := s.atTime t
  .next (match s.atFence with
    | none => s
    | some (r, l, d, f) =>
      if f.limit ≠ 0 ∧ f.since + 1000 * f.limit < s.now ∧ s.fenceMet r f = .wait
      then (s.spend r).stopOp { r with fence := none } l d stBusy
      else s)

/-! ### VERIFY (R128-R133) -/

/-- Drafter work begun before VERIFY is thrown away: the waves it took, whose number the manual does not give, stay in
ARR_WAVES_TOTAL (R21, R37; a free value, notes/assumptions, row 3). -/
def State.dropEarly (s : State) : State :=
  allHalves.foldl (fun s h =>
    let f := s.takeFree
    if s.halfUp h then f.2.modArr h fun a => { a with wavesTotal := a.wavesTotal + (Config.freeValue f.1).toNat } else s) s

/-- What VERIFY makes of one slot's step: the new COMMIT, the generated tokens, drafts accepted, KV_LEN, why it stopped. -/
structure Verdict where
  commit : Nat
  toks : List Nat
  accepted : Nat
  kvLen : Nat
  stopped : Bool
  limit : Bool
  invalid : Bool
deriving DecidableEq, Repr

/-- Candidates committed in order from position `n`, at most `g`, until one of the stops of R128. -/
def commitLoop (stop maxPos : Nat) : List Nat → Nat → Nat → Verdict → Verdict
  | [], _, n, v => { v with commit := n, limit := n == maxPos }
  | c :: r, g, n, v =>
    if n = maxPos then { v with commit := n, limit := true }
    else if g = 0 then { v with commit := n }
    else if c = noToken then { v with commit := n, invalid := true }
    else
      let v := { v with toks := v.toks ++ [c] }
      if c = stop then { v with commit := n + 1, stopped := true, limit := n + 1 == maxPos }
      else commitLoop stop maxPos r (g - 1) (n + 1) v

/-- The largest k with the first k drafts equal to the samples. -/
def acceptLen : List Nat → List Nat → Nat
  | d :: ds, x :: xs => if d = x then 1 + acceptLen ds xs else 0
  | _, _ => 0

/-- What a step commits when `a` of its drafts are taken as accepted (R128): `samples` are the tokens of the slot's rows in
order. -/
def verdictAt (sl : Slot) (q : StepReq) (a : Nat) (samples : List Nat) : Verdict :=
  let f := q.feed.length
  let n := sl.commit + f
  if q.genMax = 0 then ⟨n, [], 0, n, false, false, false⟩
  else
    let cand := if f = 0 then samples.take (a + 1) else samples.drop (samples.length - 1)
    let v := commitLoop sl.stop sl.maxPos cand q.genMax n ⟨n, [], a, 0, false, false, false⟩
    { v with kvLen := v.commit - 1 }

/-- VERIFY for one slot (R128): the drafts accepted are the longest prefix that equals the samples. -/
def verdict (sl : Slot) (q : StepReq) (drafts samples : List Nat) : Verdict :=
  verdictAt sl q (if q.feed.length = 0 then acceptLen drafts samples else 0) samples

/-- The drafter length after a step that used `d` drafts and accepted `a` (R133). -/
def adaptLen (len max_ d a : Nat) : Nat :=
  if d = 0 then len
  else if a = d then min (len + 1) max_
  else if 2 * a < d then max (len - 1) 1 else len

/-- A slot moved to its new pointers (R128, R131): fed and generated tokens kept, tentative entries and drafts dropped,
DKV over entries that rest on accepted drafts; those stand above COMMIT, so nothing moves it while iteration 1 has left
entries below COMMIT unwritten. -/
def Slot.commitStep (sl : Slot) (q : StepReq) (drafts : List Nat) (v : Verdict) : Slot :=
  let n0 := sl.commit
  let put (m : Tbl Nat) (p : Nat) (l : List Nat) : Tbl Nat :=
    (List.zip (List.range l.length) l).foldl (fun m x => tset 0 m (p + x.1) x.2) m
  let dkv := if q.feed.isEmpty && sl.dkv == n0 then max n0 (min (min (n0 + v.accepted) sl.dkvWritten) v.commit) else sl.dkv
  { sl with
    commit := v.commit, kvLen := v.kvLen, tent := v.commit, drafts := [],
    tokens := put (put sl.tokens n0 q.feed) (n0 + q.feed.length) v.toks, dkv := dkv, dkvWritten := dkv,
    draftLen := adaptLen sl.draftLen sl.draftMax drafts.length v.accepted }

/-- A slot's rows of a drafter iteration. -/
def drafterRows (i iter : Nat) (sl : Slot) : List RowEnt :=
  let n := sl.commit
  if iter ≤ 1 then
    let lo := max (min sl.dkv (n - 1)) (n - 4096)
    (List.range (n - lo)).map fun j => ⟨i, lo + j, tget 0 sl.tokens (lo + j)⟩
  else [⟨i, n + iter - 2, sl.drafts.getD (iter - 2) 0⟩]

/-- VERIFY's commit point of one slot, passed once in a step also where a LOOP repeats VERIFY: pointers, token record, its digest tile, report and reply (R124, R128, R129). -/
def State.commitMember (s : State) (r : Run) (toks : Nat → Nat) (m : Member) : State × Run :=
  if m.cancelled || m.committed then (s, r)
  else
    let sl := s.slot m.slot
    let rows := (List.range r.rows.length).filter fun i => ((r.rows[i]?).map (·.slot)) == some m.slot
    let first := ((rows.head?).bind fun i => (r.rows[i]?).map (·.pos)).getD 0
    let v := verdict sl m.req m.drafts (rows.map toks)
    let new := sl.commitStep m.req m.drafts v
    let flags := recordFlags v.stopped v.limit v.invalid false
    let rec_ := tokenRecord v.commit (sl.commit + m.req.feed.length) v.toks.length flags m.drafts.length v.accepted
      new.draftLen v.toks
    let crc := crc64 (tileIndex 2 first 0) rec_
    let r : Run := { r with
      early := if tget [] r.early m.slot = drafterRows m.slot 1 new then r.early else tset [] r.early m.slot [],
      slotDigest := tmod 0 r.slotDigest m.slot (· + crc),
      cur := r.cur.map fun (o : OpFlight) => { o with digest := o.digest + crc },
      members := r.members.map fun (x : Member) => if x.slot = m.slot then
        { x with committed := true, stopped := v.stopped || v.limit || v.invalid } else x }
    let s := s.modSlot m.slot fun _ => new
    let s := s.hostWrite m.req.acc.part m.req.out rec_
    let s := s.keepReport { r with ops := r.ops + 1 } m.slot stOK
    let s := s.reply m.req.acc (if r.degraded = 0 then stOK else stDegraded) v.commit
      (v.toks.length + v.accepted * 2 ^ 8 + m.drafts.length * 2 ^ 16 + flags * 2 ^ 24)
      (if r.degraded = 0 then 0xFFFFFFFF else r.degraded)
    let s := (s.modSlot m.slot fun x => { x with
      steps := x.steps.filter fun q => q.acc.id ≠ m.req.acc.id, fedNow := 0, commits := x.commits + 1 }.settleState)
    (s, r)

/-- VERIFY (R128, R135): every slot of the run that is not cancelled passes its commit point, once. The steps' reports show
TRACE_TRUNCATED when VERIFY's own entry finds no room (R183). An explicit M that is not the row map's length is refused (DESIGN
CHOICE, notes/assumptions, row 100). -/
def execVerify (t : Nat) (upsets : List Upset) (s : State) : Host.Outcome State Fault Refusal :=
  .next (match (s.atTime t).enter kVerify upsets with
    | .error s => s
    | .ok (s, r, l, d, _) =>
      if d.rowsOf r.rows ≠ r.rows.length then s.stopOp r l d stBadParam
      else
        let toks (i : Nat) : Nat := ofLe (s.partRead r.part (d.a + 4 * i) 4)
        let r : Run := { s.runAhead r d with
          truncated := r.truncated || (l.traceAddr != 0 && decide (l.traceLen < r.traceAt + 32)),
          cur := some { desc := d, tiles := [], digest := 0, waves := noWaves, inexact := false, retried := [], slots := [],
                        poison := [], faulted := false, pausedFor := none, order := [] } }
        let x := r.members.foldl (fun x m => x.1.commitMember x.2 toks m) (s, r)
        let lost := r.members.any fun m => tget [] r.early m.slot != [] && tget [] x.2.early m.slot == []
        ((if lost then x.1.dropEarly else x.1).setRun (some x.2)).settleFrees)

/-! ### The drafter section (R131, R132) -/

/-- Slots of a run that take part in a drafter iteration. -/
def State.drafting (s : State) (r : Run) (iter : Nat) : List Nat :=
  (r.members.filter fun m => m.committed && !m.stopped && !m.cancelled &&
    (let sl := s.slot m.slot
     decide (0 < sl.draftMax) && decide (iter ≤ sl.draftLen) && sl.drafts.length + 1 == iter)).map (·.slot)

/-- Whole slots taken into one pass, up to 65,536 rows. -/
def State.passOf (s : State) (iter : Nat) : List Nat → List Nat → List RowEnt → List Nat × List RowEnt × List Nat
  | [], got, rows => (got, rows, [])
  | i :: rest, got, rows =>
    let new := drafterRows i iter (s.slot i)
    if rows.length + new.length ≤ 65536 then s.passOf iter rest (got ++ [i]) (rows ++ new) else (got, rows, i :: rest)

/-- DRAFTER_ITERATION (R131): Gallery forms the next pass of the drafter section and writes its row map. -/
def execDrafterIteration (t : Nat) (s : State) : Host.Outcome State Fault Refusal :=
  let s := s.atTime t
  .next (if !s.canRun then s
    else match s.eng.run with
      | none => s
      | some r => match r.draft, s.list r.part r.list with
        | some dr, some l =>
          if dr.inPass || r.cur.isSome || dr.left.isEmpty then s
          else
            let (got, rows, left) := s.passOf dr.iter dr.left [] []
            let s := s.writeRowMap r.part (r.members.map (·.rowmap)) rows 0x100000 0x140000
            s.setRun (some { r with
              rows := rows, pc := l.targetLen, samples := [], loop := none, early := [],
              draft := some { dr with inPass := true, pass := got, left := left } })
        | _, _ => s)

/-- The slot as VERIFY would leave it if every draft were accepted (R132): the count that the samples allow, the drafts
themselves as the tokens before the last one. -/
def Slot.assumed (sl : Slot) (q : StepReq) (drafts samples : List Nat) : Slot × Verdict :=
  let v := verdictAt sl q (if q.feed.isEmpty then drafts.length else 0) samples
  let toks := if q.feed.isEmpty then (drafts ++ v.toks.drop drafts.length).take v.toks.length else v.toks
  (sl.commitStep q drafts { v with toks := toks }, v)

/-- The drafter rows of iteration 1 that start early (R37, R132): for each slot what its step will commit if every draft is
accepted, when that ends neither the sequence nor its tokens. -/
def State.earlyRows (s : State) (r : Run) (d : Desc) : Tbl (List RowEnt) :=
  r.members.foldl (fun m x =>
    let sl := s.slot x.slot
    let rows := (List.range r.rows.length).filter fun i => ((r.rows[i]?).map (·.slot)) == some x.slot
    let y := sl.assumed x.req x.drafts (rows.map fun i => ofLe (s.partRead r.part (d.a + 4 * i) 4))
    if x.cancelled || x.committed || sl.draftMax == 0 || y.2.stopped || y.2.limit || y.2.invalid then m
    else tset [] m x.slot (drafterRows x.slot 1 y.1)) []

/-- DRAFT_EARLY_START (R37, R132): drafter work begins on the assumption that every draft is accepted. Its rows are formed;
what it writes is tentative entries and tile-store slots. VERIFY keeps a slot's work when the actual commit gives the same
rows, and discards it otherwise (Table 2-5); kept or run again, iteration 1 has the same bits, so the model computes it once,
after VERIFY. -/
def execDraftEarlyStart (t : Nat) (s : State) : Host.Outcome State Fault Refusal :=
  let s := s.atTime t
  .next (match s.turn kVerify with
    | none => s
    | some (r, l, d) =>
      if l.targetLen < l.descs.length then s.setRun (some { r with early := s.earlyRows r d }) else s)

/-! ### Closing an operation (R31, R44, R180-R183) -/

/-- How a run whose target section is done ends. -/
def Run.endStatus (r : Run) : Nat := if r.degraded = 0 then stOK else stDegraded

/-- The next drafter iteration is due, or the run's work is done. -/
def State.nextIteration (s : State) (r : Run) (dr : DraftSt) : State :=
  match s.drafting r dr.iter with
  | [] => s.finishRun { r with draft := some { dr with inPass := false } } r.endStatus
  | l => s.setRun (some { r with draft := some { dr with inPass := false, pass := [], left := l } })

/-- The end of a pass of the drafter section: each slot's highest row gives a draft, unless it is invalid; the drafter
entries below that row and its own are all written (R131). -/
def State.endPass (s : State) (r : Run) (dr : DraftSt) : State :=
  let s := dr.pass.foldl (fun s i =>
    if r.dead.contains i then s
    else
      let rows := (List.range r.rows.length).filter fun k => ((r.rows[k]?).map (·.slot)) == some i
      let raw := tget 0 r.samples (rows.getLastD 0)
      let tok := if raw = 0 then noToken else raw - 1
      s.modSlot i fun x => { x with
        drafts := if tok = noToken then x.drafts else x.drafts ++ [tok],
        dkv := if dr.iter ≤ 1 then x.commit else x.dkv,
        dkvWritten := max x.dkvWritten (x.commit + dr.iter - 1) }) s
  if dr.left.isEmpty then s.nextIteration r { dr with iter := dr.iter + 1 }
  else s.setRun (some { r with draft := some { dr with inPass := false, pass := [] } })

/-- The target section is done: the drafter section follows for the slots it serves, else the run ends. -/
def State.endTarget (s : State) (r : Run) (l : OpList) : State :=
  if l.targetLen < l.descs.length then s.nextIteration r ⟨1, false, [], [], 0, false⟩
  else s.finishRun r r.endStatus

/-- A run goes on to its next descriptor, or its section ends. -/
def State.advance (s : State) (r : Run) (l : OpList) : State :=
  match r.desc l with
  | some _ => s.setRun (some r)
  | none => match r.draft with
    | some dr => s.endPass r dr
    | none => s.endTarget r l

/-- An operation with every tile written closes: waves, digests, trace, column bindings; then the next descriptor.
ARR_WAVES_LAST_OP is that of the last operation that takes waves, an operation without any leaves it (DESIGN CHOICE,
notes/assumptions, row 80). -/
def State.closeOp (s : State) (r : Run) (l : OpList) (o : OpFlight) : State :=
  let d := o.desc
  let w := max o.waves.west o.waves.east
  let takes := d.kind == kMatmul || d.kind == kAttend
  let s := if takes then allHalves.foldl (fun s h => s.modArr h fun a => { a with
      wavesTotal := a.wavesTotal + o.waves.get h, wavesLast := o.waves.get h }) s else s
  let s := o.poison.foldl (fun s a => match s.dpaOf r.part a with
    | some x => { s with mem := poisonWord s.mem (x / 8) }
    | none => s) s
  let (index, iter) : Nat × Nat := match r.draft with
    | some dr => (r.pc - l.targetLen, dr.iter)
    | none => (r.index, 0)
  let (s, r) := s.trace r l index d.kind d.mark (b2n r.draft.isSome + 4 * b2n o.inexact) iter o.digest w d.tag
  let v := r.vPresent || d.mark == 3
  let s := allHalves.foldl (fun s h => if s.halfUp h then s.modArr h Arr.bind else s) s
  match r.draft with
  | some dr =>
    let s := o.slots.foldl (fun s e => s.bankSlot o e.1) s
    s.advance { r with
      cur := none, pc := r.pc + 1, vPresent := v, inexact := r.inexact || o.inexact,
      draft := some { dr with digest := dr.digest + o.digest } } l
  | none =>
    let mark := d.kind == kMark
    let r : Run := { r with
      cur := none, index := r.index + 1, ops := r.ops + 1, waves := r.waves + w, digest := r.digest + o.digest,
      markDigest := if mark then 0 else r.markDigest + o.digest, markWaves := if mark then 0 else r.markWaves + w,
      vPresent := v, inexact := r.inexact || o.inexact, sentTo := [],
      slotDigest := o.slots.foldl (fun m e => tmod 0 m e.1 (· + e.2)) r.slotDigest }
    if o.faulted then s.endRun r stFaulted else s.advance r.step l

/-- OPERATION_BOUNDARY (R31): both halves' operation-complete tokens are exchanged. When the run is over, its groups' share of
the message pool is free for what waits at the ports (R100). -/
def execOperationBoundary (t : Nat) (s : State) : Host.Outcome State Fault Refusal :=
  let s := s.atTime t
  .next (if !s.runHalves.all s.halfUp then s
    else match s.eng.run with
      | none => s
      | some r => match r.cur, s.list r.part r.list with
        | some o, some l => if o.tiles.isEmpty then (s.closeOp r l o).retryPool else s
        | _, _ => s)

/-- The row of the row map that a tile of a row-map kind with an explicit M holds (Table 7-2): its row number. -/
def Tile.mapRow (t : Tile) (d : Desc) (rows : List RowEnt) : Option RowEnt :=
  if d.kind = kRope ∨ d.kind = kAttend ∨ d.kind = kSample ∨ d.kind = kDraft then rows[t.index.toNat / 2 ^ 32 % 2 ^ 30]? else none

/-- A tile as the write stage finds it: a SCATTER's tile without the rows of slots cancelled meanwhile (R134); `none` when
nothing of it is left. -/
def State.liveTile (s : State) (r : Run) (o : OpFlight) (tile : Tile) : Option Tile :=
  match tile.slot with
  | some i => if r.dead.contains i then none else some tile
  | none =>
    if (tile.mapRow o.desc r.rows).any fun x => r.dead.contains x.slot then none
    else if o.desc.kind = kScatter ∧ o.desc.m = 0 ∧ r.dead ≠ [] then
      match s.scatterRes r.part o.desc r.rows o.order r.dead with
      | .ok tiles _ _ => tiles.find? fun x => x.index == tile.index
      | _ => some tile
    else some tile

/-- TILE_WRITE (R30, R161, R177-R180): tile `k` of those still to be written is written and digested, unless its slot is
cancelled; a double error of the tile-store code re-reads it, re-executes it, or at the second refuses the operation. -/
def execTileWrite (t k : Nat) (tst : TstEvent) (s : State) : Host.Outcome State Fault Refusal :=
  let s := s.atTime t
  .next (if !s.runHalves.all s.halfUp then s
    else match s.eng.run with
      | none => s
      | some r => match r.cur, s.list r.part r.list with
        | some o, some l => match o.tiles[k]? with
          | none => s
          | some tile0 =>
            let gone : OpFlight := { o with tiles := o.tiles.eraseIdx k }
            match s.liveTile r o tile0 with
            | none => s.setRun (some { r with cur := some gone })
            | some tile =>
              let rest (s : State) : State := (s.writeTile r.part tile).setRun (some { r with
                cur := some { gone with
                  digest := o.digest + tile.crc,
                  slots := match tile.slot with
                    | some i => tmod 0 o.slots i (· + tile.crc)
                    | none => o.slots } })
              match tst with
              | .clean => rest s
              | .single h => (rest s).modArr h fun a => { a with tstCorrected := a.tstCorrected + 1 }
              | .reread h off => rest (s.report (0x044 + halfNo h) .corrected 1 off)
              | .lost h off =>
                if o.retried.contains (tile.index, tile.slot) then
                  (s.report (0x044 + halfNo h) .contained 3 off).stopOp { r with cur := none } l o.desc stFaulted
                else
                  let s := (s.report (0x044 + halfNo h) .corrected 2 off).countFreeRetry h
                  s.setRun (some { r with cur := some { o with retried := o.retried ++ [(tile.index, tile.slot)] } })
        | _, _ => s)

/-! ### Forming runs (R81, R122) -/

/-- A waiting OPLIST_RUN enters the arrays. -/
def State.startList (s : State) (q : RunReq) : State :=
  match s.list q.acc.part q.list with
  | none => s
  | some l =>
    let s := s.settleGroups q.acc.part l
    let gs := s.snapshots q.acc.part l
    let s := gs.foldl (fun s g => s.bindGroup q.acc.part g) s
    let s := s.modEng fun e => { e with waiting := e.waiting.filter fun x => x.acc.id ≠ q.acc.id }
    let r := newRun q.acc.part q.list q.number (some q.acc) [] [] gs
    if (tooLong l gs).isSome then s.begin r l else s.wake.advance r l

/-- A MEM_FREE of a partition, accepted before a run, has not acted yet: the run is to find its range unmapped (R265). -/
def State.freeComing (s : State) (p : Fin 4) (id : Nat) : Bool :=
  s.gal.accepted.any fun a => decide (a.id < id) && !a.dead && a.part == p && a.opcode == 0x0202

/-- A run accepted before a command is still on its way to its slot or to the queue of runs. -/
def State.runComing (s : State) (id : Nat) : Bool :=
  s.gal.accepted.any fun a => decide (a.id < id) && !a.dead && (a.opcode == 0x0310 || a.opcode == 0x0402)

/-- RUN_FORM (R81, R122): the arrays are free, and the oldest accepted run enters them. -/
def execRunForm (t : Nat) (s : State) : Host.Outcome State Fault Refusal :=
  let s := s.atTime t
  .next (if !s.canRun || s.eng.run.isSome || s.pwr.goal.any (fun g => decide (2 ≤ g)) then s
    else
      let list (q : RunReq) : State := if s.runComing q.acc.id || s.freeComing q.acc.part q.acc.id then s else s.startList q
      let steps (i : Nat) (r : StepReq) : State :=
        if s.runComing r.acc.id || s.freeComing r.acc.part r.acc.id then s else s.formSteps r.acc.part (s.slot i).list
      match s.eng.waiting, s.waitingSteps with
      | [], [] => s
      | q :: _, [] => list q
      | [], (i, r) :: _ => steps i r
      | q :: _, (i, r) :: _ => if q.acc.id < r.acc.id then list q else steps i r)

end Sys2Proof.Machine
end

