-- ==== Sys2Proof/Machine/Ledger.lean ====
section
/-! DEFINITION. The records of the margin ledger and what the manager reads from them (R434, R435). -/

namespace Sys2Proof.Machine

/-- An hour in ns. -/
def hourNs : Nat := 3600 * 10 ^ 9
/-- A day in ns. -/
def dayNs : Nat := 24 * hourNs

/-- 50 degrees, to which the ledger refers heater codes (R434), in 1/16 degrees. -/
def ledgerTemp : Int := 800

/-- A ring's heater code at another temperature: the ring moves 10 GHz towards the red for each degree (R350), and the whole range
of codes is 4.0 THz (R349; DEDUCED, notes/assumptions, row 91). -/
def ringAdjust (code : Nat) (was now : Int) : Nat :=
  (max 0 (min 65535 ((code : Int) - (now - was) * 655350 / 64000))).toNat

/-- The value of rank `k` in a table of counts by value. -/
def rankOf : Tbl Nat → Nat → Nat
  | [], _ => 0
  | (v, n) :: r, k => if k < n then v else rankOf r (k - n)

/-- The median of a table of counts by value, the lower of two middle ones; none of an empty one. -/
def medianOf (m : Tbl Nat) : Option Nat :=
  let n := (m.map (·.2)).foldl (· + ·) 0
  if n = 0 then none else some (rankOf m ((n - 1) / 2))

/-- The time of operation by which records are stamped: it goes on over power-offs, whose length nothing tells (DESIGN CHOICE,
notes/assumptions, row 99). -/
def State.ledgerTime (s : State) : Nat := s.led.before + s.now

/-- A Lantern's ring codes referred to 50 degrees, as far as its temperature is known. -/
def State.ringCodes (s : State) (l : Nat) : Tbl Nat :=
  ((s.lan l).rings.filter fun e => decide (e.1 < 512)).foldl (fun m e => tset 0 m e.1 (match (s.die (3 + l)).hottest with
    | some v => ringAdjust e.2 v ledgerTemp
    | none => e.2)) []

/-- What a record of the margin ledger carries now (R434, R361). -/
def State.ledgerNow (s : State) (powers : List LanePower) : LedgerRecord :=
  let sentinels := allHalves.flatMap fun h => (s.arr.get h).sent.map fun e => (33 * halfNo h + e.1, e.2)
  let lanes := (List.range 16).flatMap fun b => (s.bundle b).foms.map fun e => (128 * b + e.1, medianOf e.2)
  let lasers := allLans.flatMap fun l => (s.lan l).lasers.map fun e => (18 * l + e.1, (e.2.bias, e.2.delta, e.2.freq))
  let errors := allLans.flatMap fun l => (s.lan l).ports.flatMap fun e =>
    e.2.corrected.map fun f => (256 * l + 16 * e.1 + f.1, f.2)
  { stamp := s.ledgerTime,
    sentinels := sentinels.foldl (fun m e => tset 0 m e.1 e.2) [],
    lasers := lasers.foldl (fun m e => tset (0, 0, 0) m e.1 e.2) [],
    rings := allLans.foldl (fun m l => tset [] m l (s.ringCodes l)) [],
    lanes := lanes.foldl (fun m e => tset none m e.1 e.2) [],
    errors := errors.foldl (fun m e => tset 0 m e.1 e.2) [],
    powers := powers.foldl (fun m p => tset none m (256 * p.lantern.val + 16 * p.port.val + p.wave.val) (some p.power)) [] }

/-- Of the records older than 30 days the first of each day (R434); `day` is the day kept last. -/
def thinned (now : Nat) : Option Nat → List LedgerRecord → List LedgerRecord
  | _, [] => []
  | day, r :: l =>
    if now ≤ r.stamp + 30 * dayNs then r :: thinned now day l
    else if day = some (r.stamp / dayNs) then thinned now day l
    else r :: thinned now (some (r.stamp / dayNs)) l

/-- A record appended to the ledger, the commissioning record standing (R434). -/
def Ledger.append (x : Ledger) (r : LedgerRecord) : Ledger :=
  { x with log := match x.log with
    | [] => [r]
    | c :: l => c :: (thinned r.stamp none l ++ [r]) }

/-- A record appended to the margin ledger (R434); the lanes' measurements begin a new hour. -/
def State.appendRecord (s : State) (powers : List LanePower) : State :=
  let s := { s with led := s.led.append (s.ledgerNow powers) }
  (List.range 16).foldl (fun s b => s.modBundle b fun x => { x with foms := [] }) s

/-- The records that Keep's verification leaves (R434). -/
def Ledger.keep (x : Ledger) (bad : List Nat) : Ledger :=
  { x with log := ((List.zip (List.range x.log.length) x.log).filter fun e => !bad.contains e.1).map (·.2) }

/-- Twice the daily median biases of a laser over the last 30 days (R435), by day; a laser that was off has none. -/
def dailyBias (log : List LedgerRecord) (now key : Nat) : List (Nat × Nat) :=
  let seen := (log.filter fun r => decide (now ≤ r.stamp + 30 * dayNs)).filterMap fun r =>
    let b := (tget (0, 0, 0) r.lasers key).1
    if b = 0 then none else some (r.stamp / dayNs, b)
  (seen.map (·.1)).eraseDups.map fun d => (d, median2 ((seen.filter fun e => e.1 == d).map (·.2)))

/-- The days until the least-squares line through some points reaches a level, 0 when it has reached it; none when it does not
(R435). -/
def daysTo (pts : List (Nat × Nat)) (today level : Nat) : Option Nat :=
  let sum (f : Nat × Nat → Int) : Int := (pts.map f).foldl (· + ·) 0
  let n : Int := pts.length
  let sx := sum fun p => p.1
  let sy := sum fun p => p.2
  let d := n * sum (fun p => p.1 * p.1) - sx * sx
  let slope := n * sum (fun p => p.1 * p.2) - sx * sy
  let gap := level * n * d - sy * d - slope * (n * today - sx)
  if d ≤ 0 then none else if gap ≤ 0 then some 0 else if slope ≤ 0 then none else some (-(-gap / (slope * n))).toNat

/-- The days until a laser's line reaches its ceiling (R435). -/
def State.laserDays (s : State) (l i : Nat) : Option Nat :=
  daysTo (dailyBias s.led.log s.ledgerTime (18 * l + i)) (s.ledgerTime / dayNs) (2 * s.ceiling l i)

/-- Whether a lane's hourly median figure of merit has stayed below 56 for 24 h (R435): every record back to one that ended the
first of those hours says so. -/
def Ledger.laneLow (x : Ledger) (now key : Nat) : Bool :=
  match (x.log.reverse.takeWhile fun r => match tget none r.lanes key with
    | some v => decide (v < 56)
    | none => false).getLast? with
  | none => false
  | some r => decide (r.stamp + 23 * hourNs ≤ now)

/-- The hourly median figure of merit that the ledger carries last of a lane. -/
def Ledger.laneMedian (x : Ledger) (key : Nat) : Option Nat := x.log.reverse.findSome? fun r => tget none r.lanes key

/-- The rings of a Lantern whose code at 50 degrees leaves less than a tenth of the range (R435). -/
def State.ringsAtRisk (s : State) (l : Nat) : Nat := ((s.ringCodes l).filter fun e => decide (60000 < e.2)).length

end Sys2Proof.Machine
end

