-- ==== Sys2Proof/Machine/Power.lean ====
section
/-! DEFINITION. Power states, the cap, voltages, rails, heat and the margin ledger (chapter 17). -/

namespace Sys2Proof.Machine

/-! ### Power states (R141, R413-R415) -/

/-- The power manager changed. -/
def State.modPwr (s : State) (f : Power → Power) : State := { s with pwr := f s.pwr }

/-- The thermal manager changed. -/
def State.modThm (s : State) (f : Thermal → Thermal) : State := { s with thm := f s.thm }

/-- The arrays are quiescent: no run in them and none waiting (R414). -/
def State.quiet (s : State) : Bool := s.eng.run.isNone && s.eng.waiting.isEmpty && s.waitingSteps.isEmpty

/-- Every OPEN and STEPPING slot suspended in place (R141): the slots, and the steps replied to with CANCELLED, those accepted
that have not reached their slot among them (R263). -/
def State.suspendSlots (s : State) : State × Nat × Nat :=
  allSlots.foldl (fun (x : State × Nat × Nat) i =>
    let sl := x.1.slot i
    if sl.st = .opened ∨ sl.st = .stepping then
      let coming := x.1.stepsComing i
      let s : State := { x.1 with gal := { x.1.gal with
        accepted := x.1.gal.accepted.filter fun b => !coming.any fun c => c.id == b.id } }
      let s := coming.foldl (fun s b => s.dropStep i (b.step sl) stCancelled 8) (s.endSteps i stCancelled 8)
      (s.modSlot i fun y => { y with
        st := .suspended, steps := [], tent := y.commit, drafts := [], dkvWritten := min y.dkvWritten y.commit, fedNow := 0 },
       x.2.1 + 1, x.2.2 + sl.steps.length + coming.length)
    else x) (s, 0, 0)

/-- The arrays do not run: their targets read 0 (Table 2-11, R51). -/
def State.noTargets (s : State) : State := allHalves.foldl (fun s h => s.modArr h fun a => { a with target := 0 }) s

/-- P2 (Table 17-3): slots suspended, HBM in self-refresh, ports at KEEP_ALIVE with links down and holding, bundles
asleep, half-to-half deep and hub-to-half light (R308, R379); one with traffic left goes to sleep once it is done (R307). -/
def State.enterP2 (s : State) : State × Nat × Nat :=
  let (s, n, c) := s.clearFar.noTargets.suspendSlots
  let s := allHalves.foldl (fun s h => s.modHbm h fun x => { x with selfRefresh := true }) s
  let s := allLans.foldl (fun s l => allPorts.foldl (fun s p =>
    if ((s.lan l).port p).light = lightDark then s else s.dropPort l p lightKeep false) s) s
  let s := (List.range 16).foldl (fun s b =>
    if (s.link b).st = 1 ∧ s.bundleQuiet b then s.modBundle b fun x => { x with txAsleep := true, rxAsleep := decide (b < 8) } else s) s
  ((s.modPwr fun x => { x with st := 2, quiesced := none }).oculusUpdate, n, c)

/-- P2 → P3: the Lanterns dark and unpowered, their register domains open (R219). -/
def State.enterP3 (s : State) : State :=
  (allLans.foldl (fun s l => (s.dropAll l lightDark false).openDomain (4 + l)) s).modPwr fun x => { x with st := 3 }

/-- P3 → P2: the Lanterns powered, their ports at KEEP_ALIVE. -/
def State.leaveP3 (s : State) : State :=
  allLans.foldl (fun s l => (if (s.lan l).held then s else s.restoreDomain (4 + l)).relight l)
    (s.modPwr fun x => { x with st := 2 })

/-- P2 → P0: HBM out of self-refresh, every SUSPENDED slot OPEN with its pointers unchanged (R141). -/
def State.resume (s : State) : State :=
  let s := allHalves.foldl (fun s h => if s.halfUp h then s.modHbm h fun x => { x with selfRefresh := false } else s) s
  let s := allSlots.foldl (fun s i =>
    if (s.slot i).st = .suspended then s.modSlot i fun x => { x with st := .opened } else s) s
  s.modPwr fun x => { x with st := 0, quiesced := some s.now }

/-- P1 (R414): VDD_ARRAY is off; the set points are kept. -/
def State.enterP1 (s : State) : State := s.noTargets.modPwr fun x => { x with st := 1 }

/-- The transition in progress ends: its command is replied to (R263), with the previous state, the slots suspended and
the steps cancelled. -/
def State.replyPower (s : State) (status susp cancelled : Nat) : State :=
  let s := s.modPwr fun x => { x with goal := none }
  s.gal.waiters.foldl (fun s w => match w.kind with
    | .power _ prev _ _ => (s.dropWaiter w.acc.id).reply w.acc status prev susp cancelled
    | _ => s) s

/-- What a request for a power state comes to at once: a status with the slots suspended and steps cancelled, or a wait. -/
inductive PowerRes where
  | done (status susp cancelled : Nat)
  | waits
deriving DecidableEq, Repr

/-- The device leads down to P2, and on to P3 when that is the target. -/
def State.descend (s : State) (target : Nat) : State × Nat × Nat :=
  let (s, n, c) := if s.pwr.st ≤ 1 then s.enterP2 else (s, 0, 0)
  (if target = 3 ∧ s.pwr.st = 2 then s.enterP3 else if target = 2 ∧ s.pwr.st = 3 then s.leaveP3 else s, n, c)

/-- Every die has been below its warn threshold, and every stack 5 degrees below its limit, for 1 s (R429). -/
def State.cooled (s : State) : Bool := match s.pwr.coolSince with
  | none => false
  | some c => decide (c + 10 ^ 9 ≤ s.now)

/-- The transition to a power state (R263, R414, R415, R429): it completes at once, is refused, or waits for the run in the
arrays or, for P1, for quiescence. -/
def State.requestPower (s : State) (target : Nat) : State × PowerRes :=
  let st := s.pwr.st
  let up (s : State) : State := (if s.pwr.st = 3 then s.leaveP3 else s).resume
  if s.pwr.goal.isSome || s.start.safe then (s, .done stBusy 0 0)
  else if s.pwr.stop && decide (target ≤ 1) && !s.cooled then (s, .done stBusy 0 0)
  else if s.pwr.stop && decide (target = 0) then
    ((up s).modPwr fun x => { x with stop := false, sticky := false }, .done stOK 0 0)
  else
    let s := if target ≤ 1 then s.modPwr fun x => { x with sticky := decide (target = 1) } else s
    if target = st then (s, .done stOK 0 0)
    else if target = 0 then (if st = 1 then s.wake else up s, .done stOK 0 0)
    else if target = 1 then
      let s := if 2 ≤ st then up s else s
      if s.quiet then (s.enterP1, .done stOK 0 0) else (s.modPwr fun x => { x with goal := some 1 }, .waits)
    else if s.eng.run.isSome then (s.modPwr fun x => { x with goal := some target }, .waits)
    else
      let (s, n, c) := s.descend target
      (s, .done stOK n c)

/-- IDLE_ENTRY (R414, R415): quiescent for IDLE_ENTRY, or at once while idle is sticky, the device enters P1. -/
def execIdleEntry (t : Nat) (s : State) : Host.Outcome State Fault Refusal :=
  let s := s.atTime t
  let span : Option Nat := match bitsOf s.pwr.ctrl 7 4 with
    | 1 => some (10 ^ 5)
    | 2 => some (10 ^ 6)
    | 3 => some (10 ^ 7)
    | 4 => some (10 ^ 8)
    | _ => none
  let due : Bool := s.pwr.sticky || (match span, s.pwr.quiesced with
    | some d, some q => decide (q + d ≤ s.now)
    | _, _ => false)
  .next (if decide (s.start.phase = .running) && !s.start.safe && decide (s.pwr.st = 0) && s.quiet && due &&
      !s.pwr.goal.any (fun g => decide (2 ≤ g)) then
    let s := s.enterP1
    if s.pwr.goal = some 1 then s.replyPower stOK 0 0 else s
  else s)

/-- P2_SUSPEND (R141): the run in the arrays has finished, and the transition completes. -/
def execP2Suspend (t : Nat) (s : State) : Host.Outcome State Fault Refusal :=
  let s := s.atTime t
  .next (match s.pwr.goal with
    | none => s
    | some g =>
      if 2 ≤ g ∧ s.eng.run.isNone ∧ s.start.safe = false then
        let (s, n, c) := s.descend g
        s.replyPower stOK n c
      else s)

/-! ### The cap (R416, R417) -/

/-- An operation is in the arrays, so that they are not quiescent (R418). -/
def State.busy (s : State) : Bool := match s.eng.run with
  | none => false
  | some r => r.cur.isSome

/-- Lever 1 is at its limit: every half that runs has its array at the floor, or, its rate at nothing and no operation in the
arrays, its voltage held (R417, R418). -/
def State.leverDone (s : State) : Bool :=
  decide (s.pwr.st ≠ 0) || allHalves.all fun h =>
    !s.halfUp h || decide (s.pwr.volts.get h ≤ 550) || (decide (s.pwr.capRate = 0) && !s.busy)

/-- The commands that set the cap are replied to once it is enforced (R284). -/
def State.replyCap (s : State) : State :=
  s.gal.waiters.foldl (fun s w => match w.kind with
    | .cap prev => (s.dropWaiter w.acc.id).reply w.acc stOK prev s.pwr.measured 0
    | _ => s) s

/-- Over the cap, the next lever of R417 that is not at its limit is used: the arrays' rates, by a free value (row 3), until
both are at the floor or, in P1, off; then the HBM's streaming, then the duty cycle. The manual gives levers 2 and 3 no step:
each reaches its limit in one sample (DESIGN CHOICE, notes/assumptions, row 86). -/
def State.tighten (s : State) : State :=
  let x := s.pwr
  if !s.leverDone then
    if x.capRate = 0 then s
    else
      let f := s.takeFree
      f.2.modPwr fun x => { x with capRate := (Config.freeValue f.1).toNat % x.capRate }
  else if !x.hbmCapped then s.modPwr fun x => { x with hbmCapped := true }
  else if !x.duty then s.modPwr fun x => { x with duty := true }
  else if x.capLimited then s
  else (s.modPwr fun x => { x with capLimited := true, capLimitedAt := s.now }).report 0x004 .corrected 2 x.cap

/-- Within the cap, levers are released, the last one first; by how much the rates rise is a free value (row 3). -/
def State.loosen (s : State) : State :=
  let s := s.modPwr fun x => if x.capLimited then { x with
    capLimited := false, capLimitedTime := x.capLimitedTime + (s.now - x.capLimitedAt) / 1000 } else x
  let x := s.pwr
  if x.duty then s.modPwr fun x => { x with duty := false }
  else if x.hbmCapped then s.modPwr fun x => { x with hbmCapped := false }
  else if x.capRate < 1900 then
    let f := s.takeFree
    f.2.modPwr fun x => { x with capRate := x.capRate + (Config.freeValue f.1).toNat % (1901 - x.capRate) }
  else s

/-- The warning level of a rail in mV (Table 17-4); the HBM rails' nominal is their specification's. -/
def railWarn (r : Nat) : Nat :=
  if r < 2 then 520
  else if r < 4 then 710
  else if r < 8 then ceilDiv (Config.hbmRailNominal r * 96) 100
  else if r < 11 then 710
  else if r < 13 then 2350 else 1710

/-- The reset level of a rail in mV (Table 17-4). -/
def railReset (r : Nat) : Nat :=
  if r < 2 then 450
  else if r < 4 then 670
  else if r < 8 then ceilDiv (Config.hbmRailNominal r * 93) 100
  else if r < 11 then 670
  else if r < 13 then 2200 else 1620

/-- A rail has risen to its warning level (R420). -/
def Rail.risen (x : Rail) (at_ : Nat) : Rail := if x.below then { x with below := false, aboveSince := some at_ } else x

/-- The rails sampled: what each shows; one that has risen to its warning level since the last sample did so when its comparator
tells, or, where it tells nothing, now. -/
def State.sampleRails (s : State) (voltages currents : List Nat) (risen : List (Fin 14 × Nat)) : State :=
  let s := risen.foldl (fun s e => s.modRail e.1.val fun x => x.risen (min s.now e.2)) s
  (List.range (min 14 voltages.length)).foldl (fun s r => s.modRail r fun x =>
    let x := { x with mv := min 4095 (voltages.getD r 0), deciAmps := min 65535 (currents.getD r 0) }
    if railWarn r ≤ voltages.getD r 0 then x.risen s.now else x) s

/-- The package power in mW of a sample (R416): every rail's voltage times current, with the conversion losses. -/
def packagePower (losses : Nat) (voltages currents : List Nat) : Nat :=
  ((List.zipWith (· * ·) voltages currents).foldl (· + ·) 0) / 10 + losses

/-- The average in mW over the last 1 ms. -/
def Power.average (x : Power) : Nat := ((x.samples.map (·.2)).foldl (· + ·) 0) / x.samples.length

/-- POWER_SAMPLE (R412, R416, R417): rails and package power measured, and the cap controller acts in P0 and P1. A PWR_CAP_SET
in progress is replied to with OK once the cap is met, or once CAP_LIMITED says that every lever is held at its limit (R284;
DESIGN CHOICE, notes/assumptions, row 86). -/
def execPowerSample (t losses : Nat) (voltages currents : List Nat) (risen : List (Fin 14 × Nat)) (s : State) :
    Host.Outcome State Fault Refusal :=
  let s := (s.atTime t).sampleRails voltages currents risen
  let mw := packagePower losses voltages currents
  let s := s.modPwr fun x => { x with
    samples := (s.now, mw) :: x.samples.filter fun e => decide (s.now < e.1 + 10 ^ 6),
    energy := x.energy + mw * 10000, lastSample := s.now }
  let s := s.modPwr fun x => { x with measured := min 4095 (x.average / 1000) }
  let past := decide (s.pwr.cap * 1000 < s.pwr.average)
  let s := if s.pwr.cap * 1100 < mw ∧ s.pwr.st = 0 then s.modPwr fun x => { x with
      volts := ⟨max 550 (x.volts.west - 40), max 550 (x.volts.east - 40)⟩ } else s
  let s := if past then (if s.pwr.st ≤ 1 then s.tighten else s) else s.loosen
  .next (if !past || s.pwr.capLimited then s.replyCap else s)

/-- The time with CAP_LIMITED set in µs, an episode that still runs included (Table 17-17). -/
def State.capTime (s : State) : Nat :=
  s.pwr.capLimitedTime + if s.pwr.capLimited then (s.now - s.pwr.capLimitedAt) / 1000 else 0

/-- The time under a thermal or rate-of-rise throttle in µs, an episode that still runs included (Table 17-17). -/
def State.throttleTime (s : State) : Nat := s.thm.throttledTime + match s.thm.throttledSince with
  | some b => (s.now - b) / 1000
  | none => 0

/-- The cap recorded (R14, R284, R433): enforced at once where the package is within it, or where neither arrays nor HBM run. -/
def State.setCap (s : State) (watts : Nat) : State × Bool :=
  let s := s.modPwr fun x => { x with cap := watts }
  (s, decide (s.pwr.measured ≤ watts) || decide (2 ≤ s.pwr.st) || s.start.safe)

/-! ### Voltage (R418, R426) -/

/-- RATE_TARGET in M waves/s. -/
def Power.rateTarget (x : Power) : Nat := 10 * bitsOf x.ctrl 15 8

/-- Slowdowns of an array's bound columns. -/
def Arr.boundSlow (a : Arr) : List Nat := a.bound.map (tget 0 a.sent)

/-- The largest slowdown of an array's bound columns (R435). -/
def Arr.worst (a : Arr) : Nat := a.boundSlow.foldl max 0

/-- The nominal 75 degrees (R435), in 1/16 degrees. -/
def nominalTemp : Int := 1200

/-- The rate of an array at a voltage and temperature: its fused baseline divided by 1 + s (R435). -/
def Arr.rateAt (a : Arr) (h : Half) (mv : Nat) (temp : Int) : Nat :=
  Config.baselineRate (halfNo h) mv temp * 10000 / (10000 + a.worst)

/-- An array's rate target (R418); `predicted` is the ledger's rate at 0.80 V. -/
def State.targetOf (s : State) (h : Half) (predicted : Nat) : Nat :=
  let d := s.die (halfNo h)
  let l := min (min s.pwr.rateTarget predicted) s.pwr.capRate
  let l := match d.limit with
    | some x => min l x
    | none => l
  if d.conservative then min l 1300 else l

/-- Whether a die of the half sends no telemetry (R412). -/
def State.silent (s : State) (h : Half) : Bool :=
  (halfNo h :: (lansOf h).map (· + 3)).any fun d => (s.die d).lost

/-- A half's next set point (R418): towards the pace by a step of at most 10 mV, within the range and a rise's cap; below the floor
that holds without a cap or a throttle it rises towards it by the same step. -/
def State.nextVolts (s : State) (half : Half) (measured pace step : Nat) : Nat :=
  let d := s.die (halfNo half)
  let floor := if s.pwr.capRate < s.pwr.rateTarget ∨ d.limit.isSome ∨ d.rise then 550 else 620
  let v := s.pwr.volts.get half
  let v := if measured < pace then min 800 (v + step) else if v < floor then min floor (v + step)
    else if pace < measured ∨ pace = 0 then max floor (v - step) else v
  min 800 (max 550 (match s.pwr.riseCap.get half with
    | some c => min v c
    | none => v))

/-- VOLTAGE_ADJUST (R418): at most 10 mV toward the target; how much is a free value (row 3). The floor is 0.62 V unless
the cap or a throttle holds the target; a quiescent array's voltage is held. ARR_RATE's TARGET shows the target while the
array runs; its MEASURED is ARR_RATE_UPDATE's (R51). The ledger's prediction is for the array's present temperature. -/
def execVoltageAdjust (t : Nat) (half : Half) (measured : Nat) (temp : Int) (s : State) : Host.Outcome State Fault Refusal :=
  let s := s.atTime t
  let target := if s.pwr.st = 0 ∧ s.halfUp half then s.targetOf half ((s.arr.get half).rateAt half 800 temp) else 0
  let s := s.modArr half fun a => { a with target := target }
  let far := (s.arr.get (other half)).target
  let pace := if s.start.singleHalf ∨ far = 0 then target else min target far
  .next (if s.start.safe then s
    else if s.silent half then s.modPwr fun x => { x with volts := x.volts.set half 550 }
    else if !s.busy || decide (s.pwr.st ≠ 0) then s
    else
      let f := s.takeFree
      let v := f.2.nextVolts half measured pace ((Config.freeValue f.1).toNat % 11)
      f.2.modPwr fun x => { x with volts := x.volts.set half v })

/-- The source ID of a die's own unit: the half, the Drum or the Lantern. -/
def srcDieUnit (die : Nat) : Nat := if die < 2 then 0x040 + die else if die = 2 then 0x001 else srcLantern (die - 3)

/-- The half that a die belongs to. -/
def halfOfDie (die : Nat) : Option Half :=
  if die < 2 then some (halfOf die) else if die = 2 then none else some (halfOf ((die - 3) / 4))

/-- Whether a die should report telemetry (R412): the device runs, the die is neither off nor in reset, its half not lost. -/
def State.reports (s : State) (d : Nat) : Bool :=
  decide (s.start.phase = .running) && !s.start.safe && !s.dieOff d && !(decide (3 ≤ d) && (s.lan (d - 3)).held) &&
    match halfOfDie d with
    | some h => decide ((s.arr.get h).half = .inService) || (s.arr.get h).preparing
    | none => true

/-- TELEMETRY_TIMEOUT (R412): a silent die that should report is treated as at its throttle level and its half's voltage goes to
its floor, until telemetry returns. -/
def execTelemetryTimeout (t : Nat) (die : Fin 11) (back : Bool) (s : State) : Host.Outcome State Fault Refusal :=
  let s := s.atTime t
  let d := s.die die.val
  .next (if back then s.modDie die.val fun x => { x with lost := false }
    else if d.lost || !s.reports die.val then s
    else
      let s := s.modDie die.val fun x => { x with lost := true }
      let s := match halfOfDie die.val with
        | some h => s.modPwr fun x => { x with volts := x.volts.set h 550 }
        | none => s
      s.report 0x004 .contained 1 (srcDieUnit die.val))

/-! ### Droops (R419, R420, R422) -/

/-- A rail is watched in the present power state (R419). -/
def State.watched (s : State) (r : Nat) : Bool :=
  if r < 2 then decide (s.pwr.st = 0) else if 9 ≤ r ∧ r < 13 then decide (s.pwr.st ≤ 2) else true

/-- RAIL_BELOW_WARNING (R420, R422): a droop event of a rail that does not reach its reset level, and for the rails 0-7 the issue
of new operations is held. A level that the rail does not fall below is none. -/
def execRailBelowWarning (t : Nat) (rail : Fin 14) (millivolts : Nat) (s : State) : Host.Outcome State Fault Refusal :=
  let s := s.atTime t
  let w := s.now / 10 ^ 9
  .next (if !s.watched rail.val || decide (railWarn rail.val ≤ millivolts) then s
    else
      let s := s.modRail rail.val fun x => { x with
        mv := min 4095 millivolts, below := true, aboveSince := none, droops := x.droops + 1, window := w,
        inWindow := if x.window = w then x.inWindow + 1 else 1 }
      if rail.val < 8 then s.modEng fun e => { e with hold := true } else s)

/-- Whether every watched rail of 0-7 is at its warning level, and has been for 50 µs since it last was not (R420). -/
def State.railsClear (s : State) : Bool :=
  (List.range 8).all fun r => !s.watched r || (!(s.rail r).below && match (s.rail r).aboveSince with
    | none => true
    | some a => decide (a + 50000 ≤ s.now))

/-- DROOP_HOLD_RELEASE (R420): every rail of 0-7 has stayed above its warning level for 50 µs. -/
def execDroopHoldRelease (t : Nat) (s : State) : Host.Outcome State Fault Refusal :=
  let s := s.atTime t
  .next (if s.eng.hold && s.railsClear then
    ((List.range 8).foldl (fun s r => s.modRail r fun x => { x with aboveSince := none }) s).modEng fun e =>
      { e with hold := false }
  else s)

/-- DROOP_RATE (R422): more than 16 droops of a rail in one second, logged at most once a minute. -/
def execDroopRate (t : Nat) (rail : Fin 14) (s : State) : Host.Outcome State Fault Refusal :=
  let s := s.atTime t
  let x := s.rail rail.val
  let due : Bool := match x.lastLogged with
    | none => true
    | some l => decide (l + 60 * 10 ^ 9 ≤ s.now)
  .next (if 16 < x.inWindow ∧ x.window = s.now / 10 ^ 9 ∧ due = true then
    (s.modRail rail.val fun x => { x with lastLogged := some s.now }).report (0x0C0 + rail.val) .corrected 1
      (min 65535 x.inWindow)
  else s)

/-! ### Heat (R423-R433) -/

/-- Columns of a die's sensor grid. -/
def gridCols (die : Nat) : Nat := if die < 2 then 8 else 4
/-- The warn threshold of a die in 1/16 degrees (Table 17-5). -/
def warnAt (die : Nat) : Int := if die < 2 then 1440 else if die = 2 then 1520 else 1280
/-- The stop threshold of a die. -/
def stopAt (die : Nat) : Int := if die < 2 then 1760 else if die = 2 then 1680 else 1440
/-- The throttle threshold of a Spire. -/
def throttleAt : Int := 1600
/-- The hard-trip threshold of a Spire or the Drum. -/
def tripAt (die : Nat) : Int := if die < 2 then 1920 else 1840
/-- The source ID of a die's thermal messages. -/
def srcThermal (die : Nat) : Nat := 0x0B0 + die

/-- The neighbours of a sensor: next in its row, its column and its diagonals. -/
def neighbours (die i : Nat) : List Nat :=
  let c := gridCols die
  (List.range (sensorsOf die)).filter fun j => j != i && decide (i / c ≤ j / c + 1) && decide (j / c ≤ i / c + 1) &&
    decide (i % c ≤ j % c + 1) && decide (j % c ≤ i % c + 1)

/-- Twice the median of temperatures. -/
def median2Int (l : List Int) : Int :=
  let o := l.foldl (fun acc v => insertInt v acc) []
  let n := o.length
  if n = 0 then 0 else o.getD ((n - 1) / 2) 0 + o.getD (n / 2) 0
where
  /-- Insertion in ascending order. -/
  insertInt (v : Int) : List Int → List Int
    | [] => [v]
    | x :: r => if x ≤ v then x :: insertInt v r else v :: x :: r

/-- Whether a sensor differs from the median of its valid neighbours by more than 10 degrees (R423). -/
def DieTh.deviates (d : DieTh) (die i : Nat) : Bool :=
  let valid (j : Nat) : Bool := !d.broken.contains j
  let near := (neighbours die i).filter valid
  let ref := if near.length < 3 then (List.range (sensorsOf die)).filter valid else near
  let m2 := median2Int (ref.map fun j => d.temps.getD j 0)
  let x := 2 * d.temps.getD i 0 - m2
  decide (320 < x) || decide (x < -320)

/-- A sensor has risen more than 25 degrees within the last 1 ms (R427). -/
def DieTh.fast (d : DieTh) (now i : Nat) : Bool :=
  d.history.any fun e => decide (now ≤ e.1 + 1000000) && decide (400 < d.temps.getD i 0 - e.2.getD i (d.temps.getD i 0))

/-- The temperature compared with the absolute thresholds (R424, R425). -/
def DieTh.judged (d : DieTh) : Option Int := d.hottest.map fun v => if d.conservative then v + 160 else v

/-- A level that is entered at its threshold and left 3 degrees below it. -/
def level (was : Bool) (thr v : Int) : Bool := decide (thr ≤ v) || (was && decide (thr - 48 ≤ v))

/-- The time that all dies and stacks have been cool is followed (R429). -/
def State.noteCool (s : State) : State :=
  let ok := (List.range 11).all (fun d => match (s.die d).judged with
    | none => true
    | some v => decide (v < warnAt d)) && s.hbm.west.warm.isEmpty && s.hbm.east.warm.isEmpty
  s.modPwr fun x => { x with coolSince := if ok then (match x.coolSince with
    | some c => some c
    | none => some s.now) else none }

/-- The time under a thermal or rate-of-rise throttle is followed (Table 17-17). -/
def State.noteThrottle (s : State) : State :=
  let on := (List.range 11).any fun d => (s.die d).throttle || (s.die d).rise
  s.modThm fun x => match x.throttledSince, on with
    | none, true => { x with throttledSince := some s.now }
    | some b, false => { x with throttledSince := none, throttledTime := x.throttledTime + (s.now - b) / 1000 }
    | _, _ => x

/-- The operation in flight completes: its tiles written, the operation closed. -/
def State.completeOp (s : State) : State :=
  match s.eng.run with
  | none => s
  | some r => match r.cur, s.list r.part r.list with
    | some o, some l =>
      let live := o.tiles.filter fun t => match t.slot with
        | some i => !r.dead.contains i
        | none => true
      let s := live.foldl (fun s t => s.writeTile r.part t) s
      s.closeOp r l { o with
        tiles := [], digest := live.foldl (fun a t => a + t.crc) o.digest,
        slots := live.foldl (fun m t => match t.slot with
          | some i => tmod 0 m i (· + t.crc)
          | none => m) o.slots }
    | _, _ => s

/-- An orderly stop (R428, Table 17-6): P2 with STOP set. Whether the operation in flight still completes within its 2 ms is
a free choice (row 3). A SET_POWER_STATE in progress replies now (R433); a ledger in use takes its record (R434). -/
def State.orderlyStop (s : State) (src : Nat) : State :=
  if s.pwr.stop || s.start.safe || decide (s.start.phase ≠ .running) then s
  else
    let s := (s.modPwr fun x => { x with stop := true }).modThm fun x => { x with stops := x.stops + 1 }
    let s := s.report 0x004 .contained 3 src
    let f := s.takeFree
    let s := if Config.freeBool f.1 then f.2.completeOp else f.2
    let s := match s.eng.run with
      | some r => s.abandonRun r stCancelled
      | none => s
    let goal := s.pwr.goal
    let (s, n, c) := s.descend (if s.pwr.st = 3 ∨ goal = some 3 then 3 else 2)
    let s := match goal with
      | some g => s.replyPower (if 2 ≤ g then stOK else stBusy) n c
      | none => s
    (if s.led.st = 1 then s.appendRecord [] else s).oculusUpdate

/-- What a die's trip comparator does (R430): the array and laser rails are removed, and the device enters the safe state. -/
def State.tripOff (s : State) (die : Nat) : State :=
  let s := s.modDie die fun d => { d with trip := true }
  let s := allLans.foldl (fun s l => s.modLan l fun x => { x with
    lasers := (List.range 18).foldl (fun t i => tmod Laser.init t i fun y =>
      if y.st = 4 then y else { y with st := 0, warn := false }) x.lasers }) s
  s.safeState false

/-- A hard trip (R430), with its fatal fault. -/
def State.hardTrip (s : State) (die : Nat) (temp : Int) : State :=
  if (s.die die).trip then s else (s.report (srcThermal die) .fatal 5 (temp16 temp)).tripOff die

/-- HARD_TRIP (R424, R425, R430): a Spire's or the Drum's trip comparator, at its threshold; a Lantern has none. -/
def execHardTrip (t : Nat) (die : Fin 11) (temp : Int) (s : State) : Host.Outcome State Fault Refusal :=
  let s := s.atTime t
  let v := if (s.die die.val).conservative then temp + 160 else temp
  .next (if die.val < 3 ∧ tripAt die.val ≤ v then s.hardTrip die.val temp else s)

/-- Broken sensors found by a sample, and the conservative cap (R423, R424). -/
def State.checkSensors (s : State) (die : Nat) : State :=
  let d := s.die die
  let s := s.modDie die fun d => { d with
    deviating := (d.valid die).foldl (fun m i => tset 0 m i (if d.deviates die i then tget 0 m i + 1 else 0)) d.deviating }
  let new := (d.valid die).filter fun i => decide (4 ≤ tget 0 (s.die die).deviating i)
  if new.isEmpty then s
  else
    let s := s.modDie die fun d => { d with broken := d.broken ++ new }
    let n := (s.die die).broken.length
    let cons := decide (sensorsOf die / 4 < n) && !d.conservative
    let s := (if cons then s.modDie die fun d => { d with conservative := true } else s).oculusUpdate
    let s := new.foldl (fun s i => s.report (srcThermal die) .corrected 1 i) s
    if cons then s.report (srcThermal die) .contained 2 n else s

/-- The rate-of-rise throttle of a Spire (R426). -/
def State.checkRise (s : State) (die : Nat) : State :=
  let h := halfOf die
  let d := s.die die
  let r := d.maxRise2 die s.now
  if !d.rise then
    if 256 < r then
      let cap := max 550 (s.pwr.volts.get h - 80)
      let s := s.modDie die fun d => { d with rise := true, riseClear := none }
      let s := s.modPwr fun x => { x with riseCap := x.riseCap.set h (some cap), volts := x.volts.set h (min cap (x.volts.get h)) }
      (s.modThm fun x => { x with episodes := x.episodes + 1 }).report (srcThermal die) .corrected 4 (temp16 (r / 2))
    else s
  else if r < 128 then
    match d.riseClear with
    | none => s.modDie die fun d => { d with riseClear := some s.now }
    | some c =>
      if c + 10 ^ 7 ≤ s.now then
        (s.modDie die fun d => { d with rise := false, riseClear := none }).modPwr fun x => { x with riseCap := x.riseCap.set h none }
      else s
  else s.modDie die fun d => { d with riseClear := none }

/-- The levels of Table 17-5 for a Spire or the Drum, and the stop on two adjacent fast sensors (R427). -/
def State.checkCore (s : State) (die : Nat) : State :=
  let d := s.die die
  match d.judged with
  | none => s
  | some v =>
    let thr := decide (die < 2) && level d.throttle throttleAt v
    let s := s.modDie die fun d => { d with warn := level d.warn (warnAt die) v, throttle := thr, stop := level d.stop (stopAt die) v }
    let s := if thr && !d.throttle then s.report (srcThermal die) .corrected 3 (temp16 v) else s
    let s := if die < 2 then s.checkRise die else s
    let pair := decide (die < 2) && (d.valid die).any fun i => d.fast s.now i &&
      (neighbours die i).any fun j => !d.broken.contains j && d.fast s.now j
    if tripAt die ≤ v then s.hardTrip die v
    else if decide (stopAt die ≤ v) || pair then s.orderlyStop (srcThermal die) else s

/-- The levels of Table 17-5 for a Lantern (R431). -/
def State.checkLantern (s : State) (l : Nat) : State :=
  let d := s.die (3 + l)
  match d.judged with
  | none => s
  | some v =>
    let cool : Option Nat := if v < 1280 then (match d.coolSince with
      | some c => some c
      | none => some s.now) else none
    let s := s.modDie (3 + l) fun d => { d with warn := level d.warn 1280 v, coolSince := cool, stop := d.stop || decide (1440 ≤ v) }
    let s := if 1440 ≤ v ∧ !(s.lan l).stop then
        (((s.modLan l fun x => { x with stop := true }).dropAll l lightDark true).oculusUpdate).report (srcLantern l) .contained 0x0B (temp16 v)
      else s
    let lit := allPorts.filter fun p => ((s.lan l).port p).light != lightDark && ((s.lan l).port p).light != lightKeep
    if v < 320 ∧ lit ≠ [] then (lit.foldl (fun s p => s.dropPort l p lightKeep false) s).oculusUpdate else s

/-- THERMAL_SAMPLE (R423-R428, R431); the shutters of a Lantern whose fibres are dark are tested (R378). -/
def execThermalSample (t : Nat) (die : Fin 11) (read : ThermalRead) (s : State) : Host.Outcome State Fault Refusal :=
  let s := s.atTime t
  let n := die.val
  let temps := read.temps.take (sensorsOf n)
  let s := s.modDie n fun d => { d with
    temps := temps, history := ((s.now, temps) :: d.history).take 128 }
  let s := s.checkSensors n
  let s := if n < 3 then s.checkCore n else s.checkLantern (n - 3)
  let s := if 3 ≤ n ∧ (s.lan (n - 3)).dark then s.testShutters (n - 3) read.shutters else s
  .next s.noteCool.noteThrottle

/-- THROTTLE_ADJUST (R425): 2 % down each 1 ms while the level holds, 1 % up each 10 ms after, until it no longer limits. -/
def execThrottleAdjust (t : Nat) (half : Half) (s : State) : Host.Outcome State Fault Refusal :=
  let s := s.atTime t
  let i := halfNo half
  let d := s.die i
  let goal := s.pwr.rateTarget
  .next (if s.atThrottle i then
    if d.lastStep + 10 ^ 6 ≤ s.now then
      let cur := match d.limit with
        | some x => x
        | none => if 0 < (s.arr.get half).target then (s.arr.get half).target else goal
      s.modDie i fun d => { d with limit := some (cur * 98 / 100), lastStep := s.now }
    else s
  else match d.limit with
    | none => s
    | some x =>
      if d.lastStep + 10 ^ 7 ≤ s.now then
        let y := ceilDiv (x * 101) 100
        s.modDie i fun d => { d with limit := if goal ≤ y then none else some y, lastStep := s.now }
      else s)

/-- HBM_TEMP_SAMPLE (R160, R425): refresh rate, streaming limit, stop and trip of a stack, by its own specification's
limits. -/
def execHbmTempSample (t : Nat) (stack : Fin 32) (temp : Int) (limits : StackLimits) (s : State) :
    Host.Outcome State Fault Refusal :=
  let s := s.atTime t
  let h := halfOf (stack.val / 16)
  let k := stack.val % 16
  let x := s.hbm.get h
  let lim := limits.maxTemp - 80
  let was := decide (1360 < x.temp k)
  let at_ := level (x.atLimit.contains k) lim temp
  let put (l : List Nat) (b : Bool) : List Nat := if b then (if l.contains k then l else l ++ [k]) else l.filter (· ≠ k)
  let s := s.modHbm h fun y => { y with
    temps := tset none y.temps k (some temp), atLimit := put y.atLimit at_, warm := put y.warm (decide (lim - 80 ≤ temp)) }
  let s := if was != decide (1360 < temp) then s.oculusUpdate else s
  let s := if at_ && !x.atLimit.contains k then s.report (srcStack h k) .corrected 8 (temp16 temp) else s
  let s := if limits.trip ≤ temp then s.hardTrip (halfNo h) temp
    else if limits.maxTemp ≤ temp then s.orderlyStop (srcStack h k) else s
  .next s.noteCool

/-! ### The margin ledger (R434, R435) -/

/-- A planned lane replacement (R435): a lane in service with a low median gives way to a spare of at least 64. -/
def State.planLane (s : State) (b lane : Nat) : State :=
  let x := s.bundle b
  if (x.lane lane).role = .service ∧ ((x.withRole .spare).any fun i => decide (64 ≤ (x.lane i).fom)) = true then
    (s.modBundle b fun y => { y with planned := some lane }).changeLane b lane
  else s

/-- A laser's ceiling lowered to its present bias divided by 0.9 (R435): it is at warning, and the swap of R368 follows; not
done with no spare free. -/
def State.lowerCeiling (s : State) (l i : Nat) : State :=
  let x := s.lan l
  if (x.freeSpare none).isNone || (x.laser i).st != 1 || (x.laser i).warn then s
  else
    let s := { s with led := { s.led with ceilings := tmod 0 s.led.ceilings l (· + 1) } }
    let s := s.modLan l fun x => x.modLaser i fun y => { y with
      warn := true, lowered := some (min (10 * y.bias / 9) (s.ceiling l i)) }
    (s.report (srcLantern l) .corrected 4 i).warnSwap l (x.waveOf i)

/-- A re-plan of lanes, ceilings and rings from the ledger and the latest readings (R435). -/
def State.replan (s : State) : State :=
  let s := (List.range 16).foldl (fun s b => (List.range (lanesOf b)).foldl (fun s i =>
    if s.led.laneLow s.ledgerTime (128 * b + i) then s.planLane b i else s) s) s
  let s := allLans.foldl (fun s l => (List.range 18).foldl (fun s i => match s.laserDays l i with
    | some d => if d ≤ 60 then s.lowerCeiling l i else s
    | none => s) s) s
  { s with led := { s.led with ringsAtRisk := allLans.foldl (fun m l => tset 0 m l (s.ringsAtRisk l)) [] } }

/-- Column slowdowns entered in the ledger: those that answer to a test (R47, R434). -/
def State.recordSentinels (s : State) (h : Half) (f : Nat → Bool) : State :=
  let a := s.arr.get h
  { s with led := { s.led with sentinels := ((List.range 33).filter fun i => f (tget 0 a.sent i)).foldl (fun m i =>
      tset 0 m (33 * halfNo h + i) (tget 0 a.sent i)) s.led.sentinels } }

/-- A sentinel's slowdown in 0.01 % against its baseline count (R47): as R435 divides a baseline rate by 1 + s, the baseline is
1 + s times the count (DEDUCED, notes/assumptions, row 102). A sentinel that does not oscillate shows the largest one, a faster one
none. -/
def slowdownOf (baseline count : Nat) : Nat := if count = 0 then 65535 else min 65535 ((baseline - count) * 10000 / count)

/-- The slowdowns of an array's columns from what its sentinels count at its present voltage (R47). -/
def State.slowdowns (s : State) (h : Half) (counts : List (Nat × Int)) : List Nat :=
  (List.zip (List.range counts.length) counts).map fun (i, c) =>
    slowdownOf (Config.sentinelBaseline (halfNo h) i (s.pwr.volts.get h) c.2) c.1

/-- SENTINEL_SAMPLE (R47, R48): the slowdowns are reported, those above 8.00 % recorded in the ledger, and the plan is redone
when SENTINEL_WARN sets (R435). -/
def execSentinelSample (t : Nat) (half : Half) (counts : List (Nat × Int)) (s : State) :
    Host.Outcome State Fault Refusal :=
  let s := s.atTime t
  let was := (s.arr.get half).sentinelWarn
  let s := (s.modArr half fun a => a.sentinels (s.slowdowns half counts) s.now).recordSentinels half fun v => decide (800 < v)
  .next (if !was && (s.arr.get half).sentinelWarn && decide (s.start.phase = .running) then s.replan else s)

/-- LEDGER_RECORD (R434, R435): each hour in P0 and P1 a record is appended and the plan redone. -/
def execLedgerRecord (t : Nat) (powers : List LanePower) (s : State) : Host.Outcome State Fault Refusal :=
  let s := s.atTime t
  .next (if decide (s.start.phase = .running) && !s.start.safe && decide (s.pwr.st ≤ 1) && decide (s.led.st = 1) then
    let s := (s.recordSentinels .west fun _ => true).recordSentinels .east fun _ => true
    let s := s.appendRecord powers
    ({ s with led := { s.led with hours := s.led.hours + 1 } } : State).replan
  else s)

end Sys2Proof.Machine
end

