-- ==== Sys2Proof/Machine/Queues.lean ====
section
/-! DEFINITION. The submission queues: doorbells, enabling, Gallery's fetch rotation and the acceptance checks that judge
the packet, the role, the device and the slot (chapter 11). What each entry of the command reference says of its own
parameters is in Accept. -/

namespace Sys2Proof.Machine

/-! ### Doorbells and queue registers (R238, R245, R255, R256) -/

/-- A bit of a domain's status set: BAD_VALUE (R208). -/
def State.badValue (s : State) (d : Nat) : State := s.modDom d fun x => { x with badValue := true }

/-- Whether a partition's queue pages take writes: no reset in progress, the device started, the link in operation (R222,
R255, R491). -/
def State.pagesOpen (s : State) (p : Fin 4) : Bool :=
  !(s.part p).resetting && decide (s.start.phase = .running) && decide ((s.port p).width ≠ 0)

/-- HST_SQ_TAIL written (Table 11-10). -/
def State.writeTail (s : State) (p : Fin 4) (q : Fin 16) (v : Nat) : State :=
  let x := s.qp p q
  let tail := v % 4096
  if !s.pagesOpen p || !x.enable then s
  else if x.size ≤ tail then s.badValue 0
  else s.modQp p q fun y => { y with sqTail := tail }

/-- HST_SQ_TAIL (R238): what the host wrote to its memory before the doorbell, then the doorbell; `bad` are the 64-byte
lines of its memory, by address, whose reads complete with an error or with poisoned data (R241, R266). -/
def execHstSqTail (t : Nat) (port : Fin 4) (qp : Fin 16) (value : Word) (writes : List (Nat × Byte)) (bad : List Nat)
    (s : State) : Host.Outcome State Fault Refusal :=
  let s := s.atTime t
  let s := { s with
    hmem := writes.foldl (fun (m : Tbl Byte) (w : Nat × Byte) => tset 0 m (hostKey port w.1) w.2) s.hmem,
    hbad := bad.foldl (fun (m : Tbl Bool) (a : Nat) => tset false m (hostKey port a / 64) true)
      (tclear s.hbad (hostKey port 0 / 64) (hostKey port (2 ^ 64) / 64)) }
  .next (s.writeTail port qp value.toNat)

/-- HST_CQ_HEAD written (R245, Table 11-11). -/
def State.writeHead (s : State) (p : Fin 4) (q : Fin 16) (v : Nat) : State :=
  let x := s.qp p q
  let head := v % 4096
  if !s.pagesOpen p || !x.active then s
  else if x.size ≤ head ∨ x.unconsumed < (head + x.size - x.cqHead) % x.size then s.badValue 0
  else
    let s := s.modQp p q fun y => { y with cqHead := head, armed := true }
    if (s.qp p q).irqEn && decide (0 < (s.qp p q).unconsumed) then
      (s.modQp p q fun y => { y with armed := false }).msi p q.val
    else s

/-- HST_CQ_HEAD (R245). -/
def execHstCqHead (t : Nat) (port : Fin 4) (qp : Fin 16) (value : Word) (s : State) : Host.Outcome State Fault Refusal :=
  .next ((s.atTime t).writeHead port qp value.toNat)

/-- HST_Q_CTRL written (Table 11-6, R256): each field is judged on its own. -/
def State.writeQCtrl (s : State) (p : Fin 4) (q : Fin 16) (v : Nat) : State :=
  if !s.pagesOpen p then s
  else
    let x := s.qp p q
    let size := bitsOf v 11 8
    let urgent := bitOf v 1
    let active := x.active
    let others := (allQps.filter fun i => decide (i ≠ q) && (s.qp p i).urgent).length
    let sizeBad : Bool := decide (size ≠ x.sizeLog2) && (active || decide (size < 7) || decide (12 < size))
    let urgentBad : Bool := (urgent != x.urgent) && (active || (urgent && decide (2 ≤ others)))
    let s := s.modQp p q fun y => { y with
      sizeLog2 := if sizeBad then y.sizeLog2 else size, urgent := if urgentBad then y.urgent else urgent, irqEn := bitOf v 2 }
    let s := if sizeBad || urgentBad then s.badValue 0 else s
    if !bitOf v 0 then s.modQp p q fun y => { y with enable := false }
    else if x.enable then s
    else if active then s.badValue 0
    else
      let based := x.sqBase != 0 && x.cqBase != 0
      let s := if based then s else s.badValue 0
      s.modQp p q fun y => { y with
      enable := based, sqHead := 0, sqTail := 0, cqTail := 0, cqHead := 0, phase := true, error := false, armed := true }

/-- QUEUE_ENABLE (R256): HST_Q_CTRL written with ENABLE 1. -/
def execQueueEnable (t : Nat) (port : Fin 4) (qp : Fin 16) (value : Word) (s : State) : Host.Outcome State Fault Refusal :=
  .next ((s.atTime t).writeQCtrl port qp (value.toNat ||| 1))

/-- QUEUE_DISABLE (R256): HST_Q_CTRL written with ENABLE 0; what was fetched drains. -/
def execQueueDisable (t : Nat) (port : Fin 4) (qp : Fin 16) (value : Word) (s : State) : Host.Outcome State Fault Refusal :=
  .next ((s.atTime t).writeQCtrl port qp (value.toNat / 2 * 2))

/-! ### The command table (Table 12-1) -/

/-- A row of Table 12-1: whether the steward alone sends it, the security codes and the power states that accept it. -/
structure CmdRow where
  opcode : Nat
  steward : Bool
  security : List Nat
  power : List Nat
deriving DecidableEq, Repr

/-- Table 12-1; security codes as Table 8-4. -/
def cmdRows : List CmdRow :=
  let floc := [0, 1, 2, 3]
  let all := [0, 1, 2, 3, 4]
  [⟨0x0101, false, all, [0, 1, 2, 3]⟩, ⟨0x0110, true, all, [0, 1, 2, 3]⟩, ⟨0x0201, false, floc, [0, 1]⟩,
   ⟨0x0202, false, floc, [0, 1]⟩, ⟨0x0210, false, floc, [0, 1]⟩, ⟨0x0220, false, floc, [0, 1]⟩,
   ⟨0x0301, false, floc, [0, 1]⟩, ⟨0x0302, false, floc, [0, 1, 2]⟩, ⟨0x0310, false, floc, [0, 1]⟩,
   ⟨0x0311, false, floc, [0, 1]⟩, ⟨0x0320, false, floc, [0, 1]⟩, ⟨0x0321, false, floc, [0, 1]⟩] ++
  [⟨0x0401, false, floc, [0, 1]⟩, ⟨0x0402, false, floc, [0, 1]⟩, ⟨0x0410, false, floc, [0, 1, 2]⟩,
   ⟨0x0501, true, floc, [0, 1]⟩, ⟨0x0510, true, floc, [0, 1]⟩, ⟨0x0601, false, floc, [0, 1, 2]⟩,
   ⟨0x0610, true, floc, [0, 1]⟩, ⟨0x0620, true, floc, [0, 1, 2]⟩, ⟨0x0630, true, floc, [0, 1, 2]⟩,
   ⟨0x0701, true, floc, [0, 1, 2, 3]⟩, ⟨0x0710, false, all, [0, 1, 2, 3]⟩, ⟨0x0720, false, floc, [0, 1, 2, 3]⟩] ++
  [⟨0x0801, false, all, [0, 1, 2, 3]⟩, ⟨0x0802, false, floc, [0, 1, 2, 3]⟩, ⟨0x0803, false, floc, [0, 1, 2, 3]⟩,
   ⟨0x0901, false, [1, 2, 3], [0, 1, 2, 3]⟩, ⟨0x0910, true, [1, 2, 3], [0, 1, 2, 3]⟩,
   ⟨0x0920, true, [0, 1], [0, 1, 2, 3]⟩, ⟨0x0A10, true, floc, [0, 1]⟩, ⟨0x0A20, true, floc, [0, 1, 2]⟩,
   ⟨0x0A30, true, [0], [0, 1]⟩]

/-- The row of an opcode defined in generation 1; the factory class has one (R261). -/
def cmdRow (op : Nat) : Option CmdRow :=
  if 0xF000 ≤ op ∧ op ≤ 0xF0FF then some ⟨op, true, [0], [0, 1]⟩ else cmdRows.find? fun r => r.opcode == op

/-- Whether a command names a slot (R247). -/
def Acc.isSlot (a : Acc) : Bool :=
  a.opcode == 0x0302 || a.opcode == 0x0310 || a.opcode == 0x0311 || a.opcode == 0x0320 ||
    (a.opcode == 0x0410 && a.par 16 1 == 1)

/-- Whether a command opens a slot. -/
def Acc.opens (a : Acc) : Bool := a.opcode == 0x0301 || a.opcode == 0x0321

/-! ### Acceptance, stages 1-9 (R246-R248, R254) -/

/-- A refusal at acceptance: status, stage, offset of the field at fault, DETAIL1. -/
structure Refused where
  status : Nat
  stage : Nat
  off : Nat
  d1 : Nat
deriving DecidableEq, Repr

/-- No single field is at fault. -/
def noField : Nat := 0xFFFF

/-- SELECTED is generation 1 (R190). -/
def State.selected (s : State) (p : Fin 4) : Nat := match (s.part p).offer with
  | none => 0
  | some v => if bitOf v 0 then 1 else 0xFF

/-- Stages 1-5: partition, generation selected, opcode, form, role. -/
def State.gate (s : State) (a : Acc) : Option Refused :=
  let bad := some
  if a.par 8 2 ≠ a.part.val then bad ⟨stNotPermitted, 1, 8, 0⟩
  else if s.selected a.part ≠ 1 ∧ a.opcode ≠ 0x0101 then bad ⟨stNotPermitted, 2, noField, 0⟩
  else match cmdRow a.opcode with
    | none => bad ⟨stBadOpcode, 3, 0, 0⟩
    | some r =>
      let slotOk : Bool := if a.isSlot then decide (a.slotField < 64)
        else if a.opens then decide (a.slotField < 64) || a.slotField == 0xFFFF else a.slotField == 0xFFFF
      if a.par 2 1 ≠ 1 then bad ⟨stBadParam, 4, 2, 0⟩
      else if 2 ≤ a.par 3 1 then bad ⟨stBadParam, 4, 3, 0⟩
      else if !slotOk then bad ⟨stBadParam, 4, 10, 0⟩
      else if r.steward ∧ s.drm.steward ≠ a.part then bad ⟨stNotPermitted, 5, noField, 0⟩
      else none

/-- The power state that stage 7 judges by: the target of a transition in progress (R263). -/
def State.powerSeen (s : State) : Nat := s.pwr.goal.getD s.pwr.st

/-- Stage 9: the states that accept a slot command (Table 5-1); a slot with a step accepted is STEPPING. -/
def State.stateAccepts (s : State) (a : Acc) : Bool :=
  let st := (s.slot a.slotField).st
  if a.opcode = 0x0302 ∨ a.opcode = 0x0410 then true
  else if a.opcode = 0x0320 then decide (st = .opened) && (s.stepsComing a.slotField).isEmpty
  else decide (st = .opened) || decide (st = .stepping)

/-- Stages 6-9: security state, power state, generation, slot state. -/
def State.gate2 (s : State) (a : Acc) : Option Refused :=
  match cmdRow a.opcode with
  | none => none
  | some r =>
    if !r.security.contains s.sec.st.code then some ⟨stDenied, 6, noField, 0⟩
    else if !r.power.contains s.powerSeen ∨ (s.start.safe ∧ a.opcode = 0x0110) then some ⟨stBusy, 7, noField, 0⟩
    else if a.isSlot then
      let sl := s.slot a.slotField
      if sl.owner ≠ some a.part ∨ sl.st = .free then some ⟨stStale, 8, 12, 0⟩
      else if a.genField ≠ sl.gen.toNat then some ⟨stStale, 8, 12, sl.gen.toNat⟩
      else if !s.stateAccepts a then some ⟨stBusy, 9, noField, 0⟩ else none
    else if a.genField ≠ (s.part a.part).gen.toNat then some ⟨stStale, 8, 12, (s.part a.part).gen.toNat + 2 ^ 16⟩
    else if a.opens ∧ a.slotField < 64 ∧ (s.slot a.slotField).owner = some a.part ∧ (s.slot a.slotField).st ≠ .free then
      some ⟨stBusy, 9, noField, 0⟩
    else none

/-- A refusal at acceptance is replied to, with the detail of R254; STALE_ROLE is counted (Table 11-4). -/
def State.refuse (s : State) (a : Acc) (r : Refused) : State :=
  let s := if r.status = stStale then s.modPart a.part fun x => { x with stale := satTo 0xFFFFFFFF (x.stale + 1) } else s
  s.reply a r.status (r.stage + r.off * 2 ^ 16) r.d1 0

end Sys2Proof.Machine
end

