-- ==== Sys2Proof/Machine/Accept.lean ====
section
/-! DEFINITION. What each entry of the command reference asks of a packet's parameters and of the resources it needs
(stages 10 and 11 of Table 11-3, chapter 12), and COMMAND_FETCH, by which Gallery takes the next packet. -/

namespace Sys2Proof.Machine

/-! ### Stage 10 (R257, R258) -/

/-- A field of a packet, or of its extension from offset 64 on: offset, bytes, whether its value is allowed. -/
abbrev Field := Nat × Nat × Bool

/-- A multiple of 64 (R257). -/
def aligned (v : Nat) : Bool := v % 64 == 0

/-- A host address that an entry does not allow to be none. -/
def hostAddr (v : Nat) : Bool := aligned v && v != 0

/-- The offset of the first field or reserved byte that stage 10 refuses: EXT_LEN, a named field, a byte that no field
names, a byte beyond EXT_LEN in the last extension entry (R2, R240, R257). -/
def Acc.badOffset (a : Acc) (extLen : Nat) (fields : List Field) : Option Nat :=
  let covered (i : Nat) : Bool := fields.any fun f => decide (f.1 ≤ i) && decide (i < f.1 + f.2.1)
  let stray (base : Nat) (bs : List Byte) (from_ upTo : Nat) : List Nat :=
    ((List.range bs.length).filter fun i => decide (from_ ≤ i) && bs.getD i 0 != 0 &&
      (decide (upTo ≤ i) || !covered (base + i))).map (base + ·)
  let all := (if a.extLen = extLen then [] else [14]) ++ ((fields.filter fun f => !f.2.2).map (·.1)) ++
    stray 0 a.pkt 16 64 ++ stray 64 a.ext 0 a.extLen
  all.foldl (fun m o => match m with
    | none => some o
    | some x => some (min x o)) none

/-- A frame's bytes. -/
def frameBytes : Nat := 2 ^ 21

/-- A frame range of MEM_ALLOC or MEM_FREE: a non-zero multiple of 2 MiB that ends within the address space. -/
def frameRange (addr len : Nat) : Bool := decide (0 < len) && len % frameBytes == 0 && decide (addr + len ≤ 2 ^ 41)

/-- The half where MEM_ALLOC places frame `i` of its range (Table 6-2); in single-half operation INTERLEAVED places every
frame in the half that is left (R502). -/
def State.homeOf (s : State) (a : Acc) (i : Nat) : Half :=
  let code := a.par 32 1
  if code = 1 then .west
  else if code = 2 then .east
  else if code = 3 then (if bitOf (le a.ext (i / 8) 1) (i % 8) then .east else .west)
  else if s.start.singleHalf then (if s.halfUp .west then .west else .east)
  else halfOf ((a.par 16 8 / frameBytes + i) % 2)

/-- Frames that a MEM_ALLOC places in each half. -/
def State.allocShare (s : State) (a : Acc) : Nat × Nat :=
  let n := a.par 24 8 / frameBytes
  let w := ((List.range n).filter fun i => s.homeOf a i == .west).length
  (w, n - w)

/-- A length of MEM_COPY and MEM_FILL (Table 12-3). -/
def copyLen (n : Nat) : Bool := aligned n && decide (0 < n) && decide (n ≤ 2 ^ 40)

/-- The geometry in a SEQ_OPEN packet (Table 12-4). -/
def Acc.group (a : Acc) (drafter : Bool) : KvGroup :=
  let hd (c : Nat) : Nat := 64 * 2 ^ c
  if drafter then ⟨a.par 20 2, a.par 23 1, hd (a.par 24 1 / 16), a.par 17 1 / 16⟩
  else ⟨a.par 18 2, a.par 22 1, hd (a.par 24 1 % 16), a.par 17 1 % 16⟩

/-- Tokens that a slot will have committed once its earlier steps have run (R530). -/
def State.coming (s : State) (i : Nat) : Nat :=
  let sl := s.slot i
  sl.commit + (sl.steps.map (·.feed.length)).foldl (· + ·) 0 + ((s.stepsComing i).map (·.par 16 4)).foldl (· + ·) 0

/-- Whether a list may serve a slot (R119). -/
def State.listServes (s : State) (p : Fin 4) (l genDefault : Nat) : Bool := match s.list p l with
  | none => false
  | some o => o.has kVerify && (o.has kSample || genDefault == 0)

/-- Whether a source ID is one of Table 18-2. -/
def knownSource (v : Nat) : Bool :=
  [(0x000, 0x009), (0x010, 0x014), (0x020, 0x02C), (0x040, 0x046), (0x060, 0x090), (0x0A0, 0x0A8), (0x0B0, 0x0BB),
   (0x0C0, 0x0CE), (0x100, 0x180)].any fun r => decide (r.1 ≤ v) && decide (v < r.2)

/-- Bytes of a DEBUG_UNLOCK response (R476). -/
def responseBytes : Nat := 245

/-- EXT_LEN and fields of a memory or sequence command. -/
def State.fieldsA (s : State) (a : Acc) : Nat × List Field :=
  let op := a.opcode
  let p := a.par
  let sl := s.slot a.slotField
  if op = 0x0201 ∨ op = 0x0202 then
    let good := frameRange (p 16 8) (p 24 8)
    let n := p 24 8 / frameBytes
    let map := op == 0x0201 && p 32 1 == 3
    let len := if map then ceilDiv n 8 else 0
    let lo := mapKey a.part (p 16 8 / frameBytes)
    let free := (tslice s.mem.fmap lo (lo + n)).isEmpty
    let found : Bool := if !good then true else if op = 0x0201 then free else s.mappedRange a.part (p 16 8) (p 24 8)
    (len, [(16, 8, p 16 8 % frameBytes == 0 && found), (24, 8, good)] ++
      (if op = 0x0201 then [(32, 1, decide (p 32 1 ≤ 3))] else []) ++
      (if map then [(64, len - 1, true), (64 + len - 1, 1, n % 8 == 0 || le a.ext (len - 1) 1 >>> (n % 8) == 0)] else []))
  else if op = 0x0210 then
    let both := p 40 1 == 0 && p 41 1 == 0
    let overlap := both && decide (p 16 8 < p 24 8 + p 32 8) && decide (p 24 8 < p 16 8 + p 32 8)
    (0, [(16, 8, (if p 40 1 = 1 then hostAddr (p 16 8) else aligned (p 16 8)) && !overlap),
         (24, 8, if p 41 1 = 1 then hostAddr (p 24 8) else aligned (p 24 8)), (32, 8, copyLen (p 32 8)),
         (40, 1, decide (p 40 1 ≤ 1) && !(p 40 1 == 1 && p 41 1 == 1)), (41, 1, decide (p 41 1 ≤ 1))])
  else if op = 0x0220 then
    (0, [(24, 8, if p 41 1 = 1 then hostAddr (p 24 8) else aligned (p 24 8)), (32, 8, copyLen (p 32 8)),
         (41, 1, decide (p 41 1 ≤ 1)), (48, 8, true)])
  else if op = 0x0301 then
    let ld := p 20 2
    let dz (v : Nat) (ok : Bool) : Bool := if ld = 0 then v == 0 else ok
    (64, [(16, 1, s.listServes a.part (p 16 1) (p 52 1)),
          (17, 1, fmtIn (p 17 1 % 16) 1 3 && dz (p 17 1 / 16) (fmtIn (p 17 1 / 16) 1 3)),
          (18, 2, decide (1 ≤ p 18 2) && decide (p 18 2 ≤ 1024)), (20, 2, decide (ld ≤ 1024)),
          (22, 1, decide (1 ≤ p 22 1) && decide (p 22 1 ≤ 64)),
          (23, 1, dz (p 23 1) (decide (1 ≤ p 23 1) && decide (p 23 1 ≤ 64))),
          (24, 1, decide (p 24 1 % 16 ≤ 2) && dz (p 24 1 / 16) (decide (p 24 1 / 16 ≤ 2))),
          (25, 1, decide (p 25 1 ≤ min 32 ((p 26 2 - 1) / 2))), (26, 2, decide (8 ≤ p 26 2) && decide (p 26 2 ≤ 256)),
          (28, 4, decide (1 ≤ p 28 4) && decide (p 28 4 ≤ 1048576)), (32, 8, p 32 8 % 4096 == 0),
          (40, 8, aligned (p 40 8) && (p 25 1 != 0 || p 40 8 == 0)),
          (48, 4, aligned (p 48 4) && (p 25 1 != 0 || p 48 4 == 0)), (52, 1, decide (p 52 1 ≤ 33)),
          (64, 8, true), (72, 4, bitOf (le a.ext 24 1) 0 || posFinite (le a.ext 8 4)),
          (76, 4, decide (le a.ext 12 4 ≤ 262144)), (80, 4, decide (1 ≤ le a.ext 16 4) && decide (le a.ext 16 4 ≤ 65536)),
          (84, 4, true), (88, 1, decide (le a.ext 24 1 ≤ 1))])
  else if op = 0x0310 then
    let feed := p 16 4
    let gen := a.genMax sl
    let sample : Bool := match s.list a.part sl.list with
      | none => true
      | some o => o.has kSample
    (4 * feed, [(16, 4, decide (feed ≤ 1024) && (feed != 0 || (gen != 0 && s.coming a.slotField != 0))),
         (20, 1, (decide (p 20 1 ≤ 33) || p 20 1 == 0xFF) && (sample || gen == 0)), (24, 8, hostAddr (p 24 8)),
         (64, 4 * feed, true), (noField, 0, s.listServes a.part sl.list (if sample then 0 else sl.genDefault))])
  else if op = 0x0311 then (0, [(16, 1, decide (p 16 1 ≤ 1))])
  else if op = 0x0320 then (0, [(16, 8, aligned (p 16 8)), (24, 8, true)])
  else
    (0, [(16, 1, s.listServes a.part (p 16 1) (p 52 1)), (32, 8, p 32 8 % 4096 == 0), (40, 8, aligned (p 40 8)),
         (48, 4, aligned (p 48 4)), (52, 1, decide (p 52 1 ≤ 33)), (56, 8, aligned (p 56 8))])

/-- EXT_LEN and fields of a program, fabric, optical, power or thermal command, or of GET_OCULUS or SET_POWER_STATE. -/
def State.fieldsB (s : State) (a : Acc) : Nat × List Field :=
  let op := a.opcode
  let p := a.par
  let lantern : Field := (16, 1, decide (p 16 1 < 8))
  if op = 0x0101 then (0, [(16, 8, hostAddr (p 16 8)), (24, 4, true)])
  else if op = 0x0110 then (0, [(16, 1, decide (p 16 1 ≤ 3))])
  else if op = 0x0401 then
    (0, [(16, 1, true), (17, 1, decide (p 17 1 ≤ 1)), (20, 4, decide (1 ≤ p 20 4) && decide (p 20 4 ≤ 65536)),
         (24, 8, if p 17 1 = 1 then hostAddr (p 24 8) else aligned (p 24 8)), (32, 8, aligned (p 32 8)),
         (40, 4, p 40 4 % 32 == 0 && (p 32 8 != 0 || p 40 4 == 0))])
  else if op = 0x0402 then (0, [(16, 1, (s.list a.part (p 16 1)).isSome)])
  else if op = 0x0410 then
    (0, [(16, 1, decide (p 16 1 ≤ 1)), (17, 1, p 16 1 != 1 || p 17 1 == 0), (24, 8, hostAddr (p 24 8))])
  else if op = 0x0501 then
    let n := p 22 2
    if p 16 1 = 0 then
      (4 * n, [(16, 1, true), (20, 2, decide (p 20 2 + n ≤ 20480)), (22, 2, decide (1 ≤ n) && decide (n ≤ 1024))] ++
        (List.range n).map fun i => (64 + 4 * i, 2, true))
    else (0, [(16, 1, p 16 1 == 1), (18, 2, decide (p 18 2 < 20480))])
  else if op = 0x0510 then (0, [lantern, (17, 1, decide (p 17 1 < 16)), (18, 1, decide (p 18 1 ≤ 2))])
  else if op = 0x0601 then (0, [lantern, (24, 8, aligned (p 24 8))])
  else if op = 0x0610 then
    (0, [lantern, (17, 1, decide (p 17 1 < 16)), (18, 1, decide (p 18 1 ≤ 1)),
         (19, 1, decide (p 19 1 ≤ 1) || p 19 1 == 0xFF), (20, 1, decide (p 20 1 ≤ 1))])
  else if op = 0x0620 then
    (0, [(16, 1, decide (p 16 1 < 8) || p 16 1 == 0xFF), (17, 1, decide (p 17 1 ≤ 2)),
         (20, 4, p 20 4 == 0 || (decide (100 ≤ p 20 4) && decide (p 20 4 ≤ 60000))),
         (24, 4, if p 17 1 = 1 then decide (1 ≤ p 24 4) && decide (p 24 4 ≤ 10000) else p 24 4 == 0)])
  else if op = 0x0630 then (0, [lantern, (17, 1, decide (p 17 1 ≤ 2))])
  else if op = 0x0701 then (0, [(16, 2, decide (600 ≤ p 16 2) && decide (p 16 2 ≤ 2400))])
  else if op = 0x0710 then (0, [(16, 1, decide (p 16 1 ≤ 10)), (24, 8, aligned (p 24 8))])
  else (0, [(16, 8, hostAddr (p 16 8)), (24, 4, true)])

/-- EXT_LEN and fields of a fault, security, diagnostic or factory command. -/
def State.fieldsC (s : State) (a : Acc) : Nat × List Field :=
  let op := a.opcode
  let p := a.par
  let bundle : Field := (16, 1, decide (p 16 1 < 16))
  let lane : Field := (17, 1, decide (p 17 1 < lanesOf (p 16 1)))
  if op = 0x0801 then
    (0, [(16, 4, true), (20, 4, decide (1 ≤ p 20 4) && decide (p 20 4 ≤ 65536)), (24, 8, hostAddr (p 24 8)),
         (32, 1, decide (p 32 1 ≤ 3))])
  else if op = 0x0802 ∨ op = 0x0803 then (0, [(16, 4, true), (24, 8, true)])
  else if op = 0x0901 then
    (0, [(16, 32, true), (48, 4, p 48 4 != 0 && decide (p 48 4 < 512)), (52, 8, hostAddr (p 52 8)), (60, 4, true)])
  else if op = 0x0910 then
    let act := p 16 1
    let scope : Field := (17, 1, decide (p 17 1 ≤ 2) && p 17 1 != 0)
    if act = 1 then (responseBytes, [(16, 1, true), scope, (24, 8, aligned (p 24 8)), (64, 50, true), (116, 193, true)])
    else (0, [(16, 1, decide (act ≤ 2)), scope, (24, 8, if act = 0 then hostAddr (p 24 8) else aligned (p 24 8))])
  else if op = 0x0920 then
    let act := p 16 1
    let size := match s.sec.session with
      | some x => x.len
      | none => 0
    if act = 0 then (0, [(16, 1, true), (20, 4, decide (2 ^ 20 ≤ p 20 4) && decide (p 20 4 ≤ 2 ^ 23))])
    else if act = 1 then
      (0, [(16, 1, true),
           (24, 4, decide (1 ≤ p 24 4) && decide (p 24 4 ≤ 2 ^ 20) &&
             (p 24 4 % 4096 == 0 || p 28 4 + p 24 4 == size) && (size == 0 || decide (p 28 4 + p 24 4 ≤ size))),
           (28, 4, p 28 4 % 4096 == 0), (32, 8, hostAddr (p 32 8))])
    else (0, [(16, 1, decide (act ≤ 3))])
  else if op = 0x0A10 then
    (0, [bundle, lane, (18, 1, decide (p 18 1 ≤ 1)),
         (19, 1, if p 18 1 = 1 then decide (1 ≤ p 19 1) && decide (p 19 1 ≤ 65) else p 19 1 == 0)])
  else if op = 0x0A20 then (0, [bundle, lane])
  else if op = 0x0A30 then
    (0, [(16, 8, bitsOf (p 16 8) 51 50 != 0 && bitsOf (p 16 8) 49 48 == 0 && knownSource (bitsOf (p 16 8) 63 52)),
         (40, 1, decide (p 40 1 ≤ 1))])
  else (0, [])

/-- EXT_LEN and fields of any command; the factory class has none that this manual gives (R261). -/
def State.fields (s : State) (a : Acc) : Nat × List Field :=
  let op := a.opcode
  if op = 0x0302 then (0, [])
  else if 0x0200 ≤ op ∧ op < 0x0400 then s.fieldsA a
  else if op < 0x0800 then s.fieldsB a
  else s.fieldsC a

/-! ### Stage 11 -/

/-- The half that alone takes new KV pages, in single-half operation (R502). -/
def State.onlyHalf (s : State) : Option Half := if s.start.singleHalf then allHalves.find? s.halfUp else none

/-- Frames of KV pages, in each half, of a geometry (R118). -/
def State.kvNeed (s : State) (t d : KvGroup) (maxPos tentPos : Nat) : Nat × Nat :=
  let f (h : Half) : Nat := ceilDiv (kvBytes t d maxPos tentPos s.onlyHalf h) frameBytes
  (f .west, f .east)

/-- Slots that a partition holds. -/
def State.slotsOf (s : State) (p : Fin 4) : Nat :=
  (allSlots.filter fun i => decide ((s.slot i).owner = some p) && decide ((s.slot i).st ≠ .free)).length

/-- The slot that SEQ_OPEN or SEQ_RESTORE opens: the one named, when it is FREE, or the lowest FREE one (R268). -/
def State.freeSlot (s : State) (want : Nat) : Option Nat :=
  allSlots.find? fun i => decide ((s.slot i).st = .free) && (want == 0xFFFF || want == i)

/-- Whether a list number is used by a run or a step (R80). -/
def State.listBusy (s : State) (p : Fin 4) (l : Nat) : Bool :=
  (match s.eng.run with
   | none => false
   | some r => r.part == p && r.list == l) ||
  s.eng.waiting.any (fun q => q.acc.part == p && q.list == l) ||
  s.gal.accepted.any (fun a => a.opcode == 0x0402 && a.part == p && a.par 16 1 == l) ||
  allSlots.any fun i =>
    let sl := s.slot i
    decide (sl.owner = some p) && decide (sl.st ≠ .free) && sl.list == l &&
      (!sl.steps.isEmpty || !(s.stepsComing i).isEmpty)

/-- A Lantern that is free for a swap: shell closed, no drain, no other swap (R281). -/
def State.swapStatus (s : State) (a : Acc) : Nat :=
  let x := s.lan (a.par 16 1)
  let k := a.par 17 1
  let same : Bool := (match x.swap with
    | some w => w.wave == k
    | none => false) || x.swapQ.any (fun e => e.1 == k)
  let want : Option Nat := if a.par 19 1 = 0xFF then none else some (a.par 19 1)
  if x.fenced then stNoResource
  else if x.shell ≠ 0 ∨ x.drain.isSome then stBusy
  else if same then stOK
  else if x.swap.isSome then stBusy
  else if a.par 20 1 = 0 ∧ (x.freeSpare want).isNone then stNoResource
  else stOK

/-- What stage 11 finds: the status it refuses with, OK when the resources exist. -/
def State.resources (s : State) (a : Acc) : Nat :=
  let op := a.opcode
  let p := a.par
  if op = 0x0110 then (if s.pwr.goal.isSome then stBusy else stOK)
  else if op = 0x0201 then
    let n := s.allocShare a
    let lost (h : Half) : Bool := s.start.singleHalf && !s.halfUp h
    if lost .west && decide (0 < n.1) || lost .east && decide (0 < n.2) then stNoResource
    else if s.mayTake a.part n.1 n.2 then stOK else stNoResource
  else if op = 0x0301 ∨ op = 0x0321 then
    if (s.part a.part).slotQuota ≤ s.slotsOf a.part ∨ (s.freeSlot a.slotField).isNone then stNoResource
    else if op = 0x0301 then
      let n := s.kvNeed (a.group false) (a.group true) (p 28 4) (p 26 2)
      if s.mayTake a.part n.1 n.2 then stOK else stNoResource
    else stOK
  else if op = 0x0310 then
    (if 16 ≤ (s.slot a.slotField).steps.length + (s.stepsComing a.slotField).length then stBusy else stOK)
  else if op = 0x0401 then
    let old := match s.list a.part (p 16 1) with
      | none => 0
      | some l => l.descs.length
    let descs := s.loadedDescs a.part - old + p 20 4
    if s.listBusy a.part (p 16 1) then stBusy
    else if (s.part a.part).limit < s.mappedFrames a.part + s.kvFrames a.part + listFrames descs then stNoResource
    else stOK
  else if op = 0x0501 then
    (if p 16 1 = 1 ∧ (allLans.any fun l => !(s.upPorts l).isEmpty) then stBusy else stOK)
  else if op = 0x0510 then
    (if p 18 1 = 1 ∧ ((s.lan (p 16 1)).fenced ∨ (s.lan (p 16 1)).shell = 1) then stBusy else stOK)
  else if op = 0x0610 then s.swapStatus a
  else if op = 0x0630 then
    let x := s.lan (p 16 1)
    (if p 17 1 = 1 ∧ (x.shell = 1 ∨ !x.present ∨ !x.drainDone) then stBusy else stOK)
  else if op = 0x0920 then match s.sec.session with
    | none => if p 16 1 = 0 then stOK else stBusy
    | some x => if p 16 1 = 0 ∨ x.pldm = true then stBusy else stOK
  else if op = 0x0A10 then
    (let r := ((s.bundle (p 16 1)).lane (p 17 1)).role
     if r = .spare ∨ r = .failed then stOK else stBusy)
  else stOK

/-- Stages 10 and 11. -/
def State.gate3 (s : State) (a : Acc) : Option Refused :=
  let f := s.fields a
  match a.badOffset f.1 f.2 with
  | some o => some ⟨stBadParam, 10, o, 0⟩
  | none =>
    let r := s.resources a
    if r = stOK then none else some ⟨r, 11, noField, 0⟩

/-! ### COMMAND_FETCH (R240, R241, R246, R249-R251, R253) -/

/-- Host memory lines of a range that a read finds in error or poisoned. -/
def State.hostBad (s : State) (p : Fin 4) (a n : Nat) : Bool :=
  (List.range (ceilDiv (a % 64 + n) 64)).any fun i => tget false s.hbad (hostKey p a / 64 + i)

/-- The address of an SQ entry, counted from the head. -/
def QPair.entryAt (q : QPair) (i : Nat) : Nat := q.sqBase + 64 * ((q.sqHead + i) % q.size)

/-- A submission queue has an entry that Gallery can fetch now. -/
def State.fetchable (s : State) (p : Fin 4) (i : Fin 16) : Bool :=
  let q := s.qp p i
  let waiting := (q.sqTail + q.size - q.sqHead) % q.size
  let pkt := s.hostRead p (q.entryAt 0) 64
  let ext := le pkt 14 2
  let bad := s.hostBad p (q.entryAt 0) 64
  q.enable && !q.error && decide (0 < waiting) && decide (q.outstanding + q.unconsumed < q.size - 1) &&
    (bad || decide (4096 < ext) ||
      (decide (1 + ceilDiv ext 64 ≤ waiting) && !(bitOf (le pkt 3 1) 0 && decide (0 < q.outstanding)) &&
        !(le pkt 1 1 == 0x09 && decide (8 ≤ s.gal.keepQ.length))))

/-- The first fetchable queue pair of a kind at or after a place, in turn. -/
def State.nextQueue (s : State) (p : Fin 4) (urgent : Bool) (from_ : Nat) : Option (Fin 16) :=
  ((List.range 16).map fun i => Fin.ofNat 16 (from_ + i)).find? fun i => ((s.qp p i).urgent == urgent) && s.fetchable p i

/-- The queue pair that a partition's turn serves: urgent and normal ones alternate while both wait, an urgent one first. -/
def State.pickQueue (s : State) (p : Fin 4) : Option (Bool × Fin 16) :=
  let x := s.part p
  match s.nextQueue p true x.ptrUrgent, s.nextQueue p false x.ptrNormal with
  | none, none => none
  | some u, none => some (true, u)
  | none, some n => some (false, n)
  | some u, some n => if x.turnUrgent then some (false, n) else some (true, u)

/-- The partition and queue pair that Gallery serves next (R250). -/
def State.pick (s : State) : Option (Fin 4 × Bool × Fin 16) :=
  ((List.range 4).map fun i => Fin.ofNat 4 (s.gal.turn.val + i)).findSome? fun p =>
    if !s.pagesOpen p || (s.port p).d3 then none else (s.pickQueue p).map fun x => (p, x)

/-- A fetched packet passed or refused: the stages in order, Keep's commands handed on after stage 5; until then it is Gallery that replies (R253, Table 11-2). The slot of an
accepted SEQ_CANCEL with NEW_TURN has its new generation from here on (R248), and an accepted OPLIST_RUN is counted and
numbered (R184). -/
def State.accept (s : State) (a : Acc) : State :=
  match s.gate a with
  | some r => s.refuse { a with keep := false } r
  | none =>
    if a.keep then { s with gal := { s.gal with keepQ := s.gal.keepQ ++ [a] } }
    else match s.gate2 a with
      | some r => s.refuse a r
      | none => match s.gate3 a with
        | some r => s.refuse a r
        | none =>
          let (s, a) : State × Acc := if a.opcode = 0x0402 then
              let n := ((s.part a.part).runs + 1) % 2 ^ 32
              (s.modPart a.part fun x => { x with runs := n }, { a with mark := n })
            else (s, if a.opcode = 0x0A30 then { a with mark := s.now } else a)
          let s := { s with gal := { s.gal with accepted := s.gal.accepted ++ [a] } }
          if a.opcode = 0x0311 ∧ bitOf (a.par 16 1) 0 then s.modSlot a.slotField fun x => { x with gen := nextGen x.gen }
          else s

/-- One entry, with its extension, taken from a queue. A bad EXT_LEN or a read in error stops the queue (R241). -/
def State.fetch1 (s : State) (p : Fin 4) (i : Fin 16) : State :=
  let q := s.qp p i
  let raw := s.hostRead p (q.entryAt 0) 64
  let badPkt := s.hostBad p (q.entryAt 0) 64
  let pkt := if badPkt then List.replicate 64 0 else raw
  let n := if badPkt ∨ 4096 < le pkt 14 2 then 0 else ceilDiv (le pkt 14 2) 64
  let badExt := (List.range n).any fun j => s.hostBad p (q.entryAt (j + 1)) 64
  let stop : Bool := badPkt || badExt || decide (4096 < le pkt 14 2)
  let pkt := if badExt then pkt.take 4 ++ [0, 0, 0, 0] ++ pkt.drop 8 else pkt
  let taken := if stop then 0 else n
  let a : Acc := { id := s.gal.nextId, part := p, qp := i, keep := decide (le pkt 1 1 = 0x09), pkt := pkt,
                   ext := (List.range taken).flatMap fun j => s.hostRead p (q.entryAt (j + 1)) 64,
                   mark := (s.slot (le pkt 10 2)).commits, dead := false }
  let s := { s with gal := { s.gal with nextId := s.gal.nextId + 1 } }
  let s := s.modQp p i fun y => { y with
    sqHead := (y.sqHead + 1 + taken) % y.size, outstanding := y.outstanding + 1, error := stop }
  if stop then s.reply { a with keep := false } stBadParam (10 + 14 * 2 ^ 16) 0 0
  else s.accept a

/-- COMMAND_FETCH (R250): the next fetchable entry, by the rotation. -/
def execCommandFetch (t : Nat) (s : State) : Host.Outcome State Fault Refusal :=
  let s := s.atTime t
  .next (if decide (s.start.phase ≠ .running) || s.start.safeNoFetch then s
    else match s.pick with
      | none => s
      | some (p, urgent, i) =>
        let s := { s with gal := { s.gal with turn := p + 1 } }
        let s := s.modPart p fun x => if urgent then { x with turnUrgent := true, ptrUrgent := (i.val + 1) % 16 }
          else { x with turnUrgent := false, ptrNormal := (i.val + 1) % 16 }
        s.fetch1 p i)

/-! ### Taking an accepted command -/

/-- An accepted command by its number and opcode, taken out of the accepted ones. -/
def State.take (s : State) (id op : Nat) : Option (Acc × State) :=
  match s.gal.accepted.find? fun a => a.id == id && a.opcode == op with
  | none => none
  | some a => some (a, { s with gal := { s.gal with accepted := s.gal.accepted.filter fun b => b.id ≠ id } })

/-- An accepted command acts: when it is not there, nothing happens. What it finds when it acts is judged by the same
conditions as at acceptance, since other commands may have acted in between; a refusal then carries the detail words that its
entry names for every reply (R246, R254, R258). -/
def State.act (s : State) (t id op : Nat) (f : Acc → State → State) : Host.Outcome State Fault Refusal :=
  let s := s.atTime t
  .next (match s.take id op with
    | none => s
    | some (a, s) => match s.gate3 a with
      | some r => s.endCommand a r.status
      | none => f a s)

/-- An accepted command acts without a second look at its parameters. -/
def State.actOn (s : State) (t id op : Nat) (f : Acc → State → State) : Host.Outcome State Fault Refusal :=
  let s := s.atTime t
  .next (match s.take id op with
    | none => s
    | some (a, s) => f a s)

/-- Bytes written to host memory on a command's behalf; DMA stops at a reset of its partition (Table 10-16). -/
def State.dma (s : State) (a : Acc) (addr : Nat) (bs : List Byte) : State :=
  if a.dead then s else s.hostWrite a.part addr bs

end Sys2Proof.Machine
end

