-- ==== Sys2Proof/Machine/Memory.lean ====
section
/-! DEFINITION. The memory commands and the BAR2 aperture's commands (R146, R147, R154, R155, R163-R167, R226, R227, R264-R267,
R497). Waiting for a half or for frames being zeroed is begun here; Sequences takes the waits up again. -/

namespace Sys2Proof.Machine

/-! ### MEM_ALLOC, MEM_FREE -/

/-- MEM_ALLOC's effect (R147, R264): the halves are waited for, then frames being zeroed; all frames are mapped or none. -/
def State.memAlloc (s : State) (a : Acc) : State :=
  let n := s.allocShare a
  let need := (if 0 < n.1 then [Half.west] else []) ++ (if 0 < n.2 then [Half.east] else [])
  match s.halvesMissing need with
  | some true => s.reply a stFaulted 0 0 0
  | some false => s.wait a .memHalf
  | none =>
    if !s.freeNow n.1 n.2 then s.wait a .memHalf
    else
      let homes := (List.range (n.1 + n.2)).map fun i => s.homeOf a i
      (s.mapFrames a.part (a.par 16 8 / frameBytes) homes).reply a stOK n.1 n.2 0

/-- MEM_ALLOC (R264). -/
def execMemAlloc (t id : Nat) (s : State) : Host.Outcome State Fault Refusal := s.act t id 0x0201 fun a s => s.memAlloc a

/-- MEM_FREE (R265): it waits for the partition's runs that were accepted before it. -/
def execMemFree (t id : Nat) (s : State) : Host.Outcome State Fault Refusal :=
  s.act t id 0x0202 fun a s =>
    let runs := (s.activeRuns a.part).filter (· < a.id)
    if runs.isEmpty then s.freeRange a else s.wait a (.memFree runs)

/-! ### MEM_COPY, MEM_FILL -/

/-- Words of a partition range poisoned, given by their byte offsets (R153). -/
def State.poisonAt (s : State) (p : Fin 4) (a : Nat) (offs : List Nat) : State :=
  offs.foldl (fun s o => match s.dpaOf p (a + o) with
    | some d => { s with mem := poisonWord s.mem (d / 8) }
    | none => s) s

/-- Bytes written by a command to a partition or host address. -/
def State.put (s : State) (a : Acc) (space addr : Nat) (bs : List Byte) : State :=
  if space = 1 then s.dma a addr bs else s.partWrite a.part addr bs

/-- Lines of 64 bytes of host memory from an address up to the first whose read completes with an error. -/
def State.goodLines (s : State) (p : Fin 4) (a lines : Nat) : Nat :=
  ((List.range lines).takeWhile fun i => !s.hostBad p (a + 64 * i) 64).length

/-- MEM_COPY's effect (R266): poison is copied with its words; a host read in error stops the copy. -/
def State.memCopy (s : State) (a : Acc) : State :=
  let src := a.par 16 8
  let dst := a.par 24 8
  let n := a.par 32 8
  let from_ := a.par 40 1
  let into := a.par 41 1
  if (from_ = 0 ∧ !s.mappedRange a.part src n) ∨ (into = 0 ∧ !s.mappedRange a.part dst n) then s.reply a stNotPermitted 0 0 0
  else
    let need := (if from_ = 0 then s.homesOf a.part src n else []) ++ (if into = 0 then s.homesOf a.part dst n else [])
    match s.halvesMissing need with
    | some true => s.reply a stFaulted 0 0 0
    | some false => s.wait a .memHalf
    | none =>
      if from_ = 1 then
        let good := s.goodLines a.part src (n / 64)
        let s := s.put a into dst (s.hostRead a.part src (64 * good))
        if good < n / 64 then s.reply a stFaulted 0 good 0 else s.reply a stOK 0 0 0
      else
        let s := s.settlePart a.part src n
        let bad := s.partPoison a.part src n
        let s := s.put a into dst (s.partRead a.part src n)
        let s := if into = 0 then s.poisonAt a.part dst bad else s
        if bad.isEmpty then s.reply a stOK 0 0 0 else s.reply a stDegraded (satTo 0xFFFFFFFF bad.length) 0 0

/-- MEM_COPY (R266). -/
def execMemCopy (t id : Nat) (s : State) : Host.Outcome State Fault Refusal := s.actOn t id 0x0210 fun a s => s.memCopy a

/-- MEM_FILL's effect (R266): whole words, so poison is cleared (R155). -/
def State.memFill (s : State) (a : Acc) : State :=
  let dst := a.par 24 8
  let n := a.par 32 8
  let bytes := (List.replicate (n / 8) (leBytes 8 (a.par 48 8))).flatten
  if a.par 41 1 = 1 then (s.dma a dst bytes).reply a stOK 0 0 0
  else if !s.mappedRange a.part dst n then s.reply a stNotPermitted 0 0 0
  else match s.halvesMissing (s.homesOf a.part dst n) with
    | some true => s.reply a stFaulted 0 0 0
    | some false => s.wait a .memHalf
    | none => (s.partWrite a.part dst bytes).reply a stOK 0 0 0

/-- MEM_FILL (R266). -/
def execMemFill (t id : Nat) (s : State) : Host.Outcome State Fault Refusal := s.actOn t id 0x0220 fun a s => s.memFill a

/-! ### Goard and BAR2 (R226, R227, R232) -/

/-- GOARD_BURST (R232): more than 65,536 events of a kind in the window of one second, once a minute at most. -/
def execGoardBurst (t : Nat) (port : Fin 4) (unmapped : Bool) (s : State) : Host.Outcome State Fault Refusal :=
  let s := s.atTime t
  let x := s.part port
  let n := if x.rateWindow = s.now / 10 ^ 9 then (if unmapped then x.rateUnmapped else x.rateDropped) else 0
  let due : Bool := match x.lastBurst with
    | none => true
    | some l => decide (l + 60 * 10 ^ 9 ≤ s.now)
  .next (if decide (65536 < n) && due then
      (s.modPart port fun x => { x with lastBurst := some s.now }).report (srcPort port) .contained 2 (b2n unmapped)
    else s)

/-- BAR2_READ (R226); `upsets` are bit errors that the words read have picked up. A read behind a held write of the same
endpoint is held with it, unless it is a read of the half that is away (R227, R497). -/
def execBar2Read (t : Nat) (port : Fin 4) (offset len : Nat) (upsets : List Upset) (s : State) :
    Host.Outcome State Fault Refusal :=
  let s := (s.atTime t).strike upsets
  let a := s.barAddr port offset
  .next (if !s.pagesOpen port then s.answerUnsupported
    else if apertureBytes < offset + len then (s.goard port true).answerUnsupported
    else if s.barPending port && !s.barWaits port a len then s.holdBar ⟨port, a, len, none⟩
    else s.barRead port a len)

/-- BAR2_WRITE (R226). -/
def execBar2Write (t : Nat) (port : Fin 4) (offset : Nat) (bytes : List Byte) (s : State) : Host.Outcome State Fault Refusal :=
  let s := s.atTime t
  let a := s.barAddr port offset
  .next (if !s.pagesOpen port then s
    else if apertureBytes < offset + bytes.length then s.goard port true
    else if s.barPending port || s.barWaits port a bytes.length then s.holdBar ⟨port, a, bytes.length, some bytes⟩
    else s.barWrite port a bytes)

end Sys2Proof.Machine
end

