-- ==== Sys2Proof/Machine/Sequences.lean ====
section
/-! DEFINITION. The sequence and program commands, and the commands that wait for memory (R109-R119, R134-R140, R268-R277,
chapter 5). -/

namespace Sys2Proof.Machine

/-! ### Opening (R110, R118, R268) -/

/-- A FREE slot opened: its pages taken and zeroed, its generation the next one, its pointers as given. -/
def State.openSlot (s : State) (a : Acc) (i : Nat) (sl : Slot) : State :=
  let need := s.kvNeed sl.target sl.drafter sl.maxPos sl.tentPos
  let gen := nextGen (s.slot i).gen
  let s := s.modSlot i fun x => { sl with
    owner := some a.part, st := .opened, gen := gen, commits := x.commits, frames := ⟨[], []⟩, steps := [], report := none }
  let s := (s.takeKv i .west need.1).takeKv i .east need.2
  s.reply a stOK (i + gen.toNat * 2 ^ 16) (need.1 + need.2) sl.draftLen

/-- A slot's pages wait for their halves and for frames being zeroed; with them the slot opens. -/
def State.tryOpen (s : State) (a : Acc) (sl : Slot) : State :=
  let need := s.kvNeed sl.target sl.drafter sl.maxPos sl.tentPos
  let halves := (if 0 < need.1 then [Half.west] else []) ++ (if 0 < need.2 then [Half.east] else [])
  match s.freeSlot a.slotField, s.halvesMissing halves with
  | none, _ => s.reply a stNoResource 0 0 0
  | some _, some true => s.reply a stFaulted 0 0 0
  | some _, some false => s.wait a .memHalf
  | some i, none => if s.freeNow need.1 need.2 then s.openSlot a i sl else s.wait a .memHalf

/-- The slot that a SEQ_OPEN asks for (Tables 12-4, 12-5, R143). -/
def Acc.newSlot (a : Acc) : Slot :=
  let e (off n : Nat) : Nat := le a.ext off n
  let d := if a.par 20 2 = 0 then KvGroup.unset else a.group true
  { Slot.init with
    target := a.group false, drafter := d, maxPos := a.par 28 4, tentPos := a.par 26 2, list := a.par 16 1,
    rowmap := a.par 32 8, scratch := a.par 40 8, scratchLen := a.par 48 4, seed := e 0 8, invTemp := e 8 4,
    topK := e 12 4, topP := e 16 4, greedy := bitOf (e 24 1) 0, stop := e 20 4, draftMax := a.par 25 1,
    genDefault := a.par 52 1, draftLen := min 2 (a.par 25 1) }

/-- SEQ_OPEN (R268). -/
def execSeqOpen (t id : Nat) (s : State) : Host.Outcome State Fault Refusal :=
  s.act t id 0x0301 fun a s => s.tryOpen a a.newSlot

/-! ### Images (R137-R140) -/

/-- The parts of a group's KV in the order of an image: layer, head, part, position (R139). -/
def Slot.imageParts (sl : Slot) (g : KvGroup) (base positions : Nat) : List (Half × Nat × Nat) :=
  (List.range g.layers).flatMap fun l => (List.range g.nkvh).flatMap fun k => (List.range 4).flatMap fun j =>
    (List.range positions).map fun p => (sl.kvParts g (base + l) k p).getD j (.west, 0, 0)

/-- Bytes of a group's KV of a number of positions. -/
def KvGroup.imageBytes (g : KvGroup) (positions : Nat) : Nat :=
  g.layers * g.nkvh * 2 * (g.elemBytes + g.scalBytes) * positions

/-- HIST_START (Table 5-12). -/
def histFrom (commit kvLen dkv : Nat) : Nat := min (min kvLen dkv) (commit - 4096)

/-- The header of a slot's image, its last four bytes the CRC of the others. -/
def Slot.imageHeader (sl : Slot) (bodyLen : Nat) (bodyCrc : Dword) : List Byte :=
  let t := sl.target
  let d := sl.drafter
  let h := [1, BitVec.ofNat 8 (t.fmt + 16 * d.fmt)] ++ leBytes 2 t.layers ++ leBytes 2 d.layers ++
    [BitVec.ofNat 8 t.nkvh, BitVec.ofNat 8 d.nkvh] ++ leBytes 2 t.headDim ++ leBytes 2 d.headDim ++ leBytes 4 sl.maxPos ++
    leBytes 4 sl.tentPos ++ leBytes 4 sl.commit ++ leBytes 4 sl.kvLen ++ leBytes 4 sl.dkv ++
    leBytes 4 (histFrom sl.commit sl.kvLen sl.dkv) ++ leBytes 8 sl.seed ++ leBytes 4 sl.commit ++ leBytes 4 sl.invTemp ++
    leBytes 4 sl.topK ++ leBytes 4 sl.topP ++ leBytes 4 sl.stop ++
    [BitVec.ofNat 8 (b2n sl.greedy), BitVec.ofNat 8 sl.draftMax, BitVec.ofNat 8 sl.draftLen, 0] ++ leBytes 8 bodyLen ++
    leBytes 8 bodyCrc.toNat
  let h := slice h 0 252
  h ++ leBytes 4 (crc32c h).toNat

/-- The slot that an image's header describes. The body is laid out from the pointers, so HIST_START as it is read decides
nothing (R139; DEDUCED, notes/assumptions, row 51). -/
def imageSlot (h : List Byte) : Slot :=
  let f (off n : Nat) : Nat := le h off n
  { Slot.init with
    target := ⟨f 2 2, f 6 1, f 8 2, f 1 1 % 16⟩, drafter := ⟨f 4 2, f 7 1, f 10 2, f 1 1 / 16⟩,
    maxPos := f 12 4, tentPos := f 16 4, commit := f 20 4, kvLen := f 24 4, tent := f 20 4, dkv := f 28 4,
    dkvWritten := f 28 4, histStart := histFrom (f 20 4) (f 24 4) (f 28 4), seed := f 36 8, invTemp := f 48 4, topK := f 52 4, topP := f 56 4,
    stop := f 60 4, greedy := bitOf (f 64 1) 0, draftMax := f 65 1, draftLen := f 66 1 }

/-- Bytes of an image's body for a slot's geometry and pointers (R139). -/
def Slot.bodyBytes (sl : Slot) : Nat :=
  4 * (sl.commit - histFrom sl.commit sl.kvLen sl.dkv) + sl.target.imageBytes sl.kvLen + sl.drafter.imageBytes sl.dkv

/-- Whether a header is one that R140 accepts. -/
def headerOk (h : List Byte) : Bool :=
  let x := imageSlot h
  let dims (v : Nat) : Bool := v == 64 || v == 128 || v == 256
  let drafterOk : Bool := if x.drafter.layers = 0 then x.drafter.nkvh == 0 && x.drafter.fmt == 0 && (x.drafter.headDim == 0 || dims x.drafter.headDim)
    else decide (x.drafter.layers ≤ 1024) && fmtIn x.drafter.nkvh 1 64 && fmtIn x.drafter.fmt 1 3 && dims x.drafter.headDim
  le h 0 1 == 1 && le h 252 4 == (crc32c (slice h 0 252)).toNat && le h 44 4 == x.commit &&
    fmtIn x.target.layers 1 1024 && fmtIn x.target.nkvh 1 64 && fmtIn x.target.fmt 1 3 && dims x.target.headDim &&
    drafterOk && fmtIn x.maxPos 1 1048576 && fmtIn x.tentPos 8 256 &&
    decide (x.commit ≤ x.maxPos) && (x.kvLen == x.commit || x.kvLen + 1 == x.commit) && decide (x.dkv ≤ x.commit) &&
    (x.greedy || posFinite x.invTemp) && decide (x.topK ≤ 262144) && fmtIn x.topP 1 65536 && decide (le h 64 1 ≤ 1) &&
    decide (x.draftMax ≤ min 32 ((x.tentPos - 1) / 2)) &&
    allZero (slice h 67 1) && allZero (slice h 84 168) && le h 68 8 == x.bodyBytes

/-- SEQ_SAVE's effect (R137, R154, R274): the slot stays as it is. -/
def State.saveSlot (s : State) (a : Acc) : State :=
    let i := a.slotField
    let sl := s.slot i
    let dest := a.par 16 8
    let n := 256 + sl.bodyBytes
    let parts := sl.imageParts sl.target 0 sl.kvLen ++ sl.imageParts sl.drafter sl.target.layers sl.dkv
    if a.closed = true ∨ sl.owner ≠ some a.part ∨ sl.st ≠ .opened then s.reply a stBusy 0 0 0
    else if a.par 24 8 < n then s.reply a stBadParam (n % 2 ^ 32) (n / 2 ^ 32) 0
    else if !s.mappedRange a.part dest n then s.reply a stNotPermitted 0 0 0
    else match s.halvesMissing ((parts.map (·.1)).eraseDups ++ s.homesOf a.part dest n) with
      | some true => s.reply a stFaulted 0 0 0
      | some false => s.wait a .memHalf
      | none =>
        let s := parts.foldl (fun s x => s.settleKv i x.1 x.2.1 x.2.2) s
        if parts.any fun x => s.kvPoison i x.1 x.2.1 x.2.2 then s.reply a stFaulted 0 0 0
        else
          let from_ := histFrom sl.commit sl.kvLen sl.dkv
          let body := ((List.range (sl.commit - from_)).flatMap fun j => leBytes 4 (tget 0 sl.tokens (from_ + j))) ++
            parts.flatMap fun x => s.kvRead i x.1 x.2.1 x.2.2
          let s := s.partWrite a.part dest (sl.imageHeader body.length (crc64 0 body) ++ body)
          s.reply a stOK (n % 2 ^ 32) (n / 2 ^ 32) 0

/-- SEQ_SAVE (R274). -/
def execSeqSave (t id : Nat) (s : State) : Host.Outcome State Fault Refusal := s.actOn t id 0x0320 fun a s => s.saveSlot a

/-- An image's KV written into an opened slot's pages. -/
def State.loadParts (s : State) (i : Nat) : List (Half × Nat × Nat) → List Byte → State
  | [], _ => s
  | (h, off, n) :: r, bs => (s.kvWrite i h off (bs.take n)).loadParts i r (bs.drop n)

/-- The first poisoned byte offset of a partition range, once its words are decoded. -/
def State.firstPoison (s : State) (p : Fin 4) (a n : Nat) : State × Option Nat :=
  let s := s.settlePart p a n
  (s, (s.partPoison p a n).head?)

/-- SEQ_RESTORE's effect (R140, R154, R269): header, body, then the slot opens as by SEQ_OPEN. -/
def State.restore (s : State) (a : Acc) : State :=
  let src := a.par 56 8
  if !s.mappedRange a.part src 256 then s.reply a stNotPermitted 0 0 0
  else match s.halvesMissing (s.homesOf a.part src 256) with
  | some true => s.reply a stFaulted 0 0 0
  | some false => s.wait a .memHalf
  | none =>
    match s.firstPoison a.part src 256 with
    | (s, some o) => s.reply a stFaulted o 0 0
    | (s, none) =>
      let h := s.partRead a.part src 256
      let n := le h 68 8
      if !headerOk h then s.reply a stBadParam 0 0 0
      else if !s.mappedRange a.part src (256 + n) then s.reply a stNotPermitted 0 0 0
      else match s.halvesMissing (s.homesOf a.part src (256 + n)) with
      | some true => s.reply a stFaulted 0 0 0
      | some false => s.wait a .memHalf
      | none =>
        match s.firstPoison a.part src (256 + n) with
        | (s, some o) => s.reply a stFaulted o 0 0
        | (s, none) =>
          let body := s.partRead a.part (src + 256) n
          let x := imageSlot h
          let noScratch : Bool := x.draftMax != 0 || (a.par 40 8 == 0 && a.par 48 4 == 0)
          let need := s.kvNeed x.target x.drafter x.maxPos x.tentPos
          if le h 76 8 ≠ (crc64 0 body).toNat ∨ !noScratch then s.reply a stBadParam 0 0 0
          else if !s.mayTake a.part need.1 need.2 then s.reply a stNoResource 0 0 0
          else
            let hist := 4 * (x.commit - x.histStart)
            let toks := (List.range (x.commit - x.histStart)).foldl
              (fun m j => tset 0 m (x.histStart + j) (le body (4 * j) 4)) ([] : Tbl Nat)
            let x := { x with
              list := a.par 16 1, rowmap := a.par 32 8, scratch := a.par 40 8, scratchLen := a.par 48 4,
              genDefault := a.par 52 1, tokens := toks }
            match s.freeSlot a.slotField with
            | none => s.reply a stNoResource 0 0 0
            | some i =>
              let s := s.tryOpen a x
              let y := s.slot i
              if y.st = .opened then
                s.loadParts i (y.imageParts y.target 0 y.kvLen ++ y.imageParts y.drafter y.target.layers y.dkv)
                  (body.drop hist)
              else s

/-- SEQ_RESTORE (R269). -/
def execSeqRestore (t id : Nat) (s : State) : Host.Outcome State Fault Refusal := s.act t id 0x0321 fun a s => s.restore a

/-! ### Steps (R112, R271) -/

/-- SEQ_STEP (R271): the step is queued at its place by acceptance (R112); in P1 the device wakes (R260). A step whose slot has been suspended or lost since
is ended as the slot's other steps were (R141, R111). -/
def execSeqStep (t id : Nat) (s : State) : Host.Outcome State Fault Refusal :=
  s.actOn t id 0x0310 fun a s =>
    let i := a.slotField
    let sl := s.slot i
    let q := a.step sl
    if sl.st = .opened ∨ sl.st = .stepping then
      s.wake.modSlot i fun x => { x with st := .stepping, steps := insertById (·.acc.id) q x.steps }
    else if sl.st = .lost then s.dropStep i q stLost 0
    else s.dropStep i q stCancelled 8

/-- What is left of a run once a slot is taken out of it (R39, R134): with every member cancelled the run is abandoned; the
pass in the arrays is, when every slot it serves is cancelled; the drafter section goes on without the slot. -/
def State.shrinkRun (s : State) (r : Run) : State :=
  if r.members.all (·.cancelled) then s.abandonRun r stCancelled
  else match r.draft with
    | none => s
    | some d =>
      if d.inPass then
        if d.pass.all r.dead.contains then
          let x := s.giveUp { r with ahead := ⟨[], []⟩ }
          x.1.endPass x.2 (x.2.draft.getD d)
        else s
      else if d.left.isEmpty then s.nextIteration r { d with iter := d.iter + 1 } else s

/-- A slot taken out of the run in the arrays: its step, when not yet committed, is replied to with a status and record
flags; its drafter work is dropped, but for the tiles already written, which stand in its digest (R134, R135, R180). The count of steps so ended. A step accepted after the command goes on. -/
def State.cancelRunning (s : State) (i : Nat) (before : Nat → Bool) (status flags : Nat) : State × Nat :=
  match s.eng.run with
  | none => (s, 0)
  | some r =>
    match r.members.find? fun m => m.slot == i && !m.cancelled && before m.req.acc.id with
    | none => (s, 0)
    | some m =>
      let s := if tget [] r.early i = [] then s else s.dropEarly
      let s := match r.draft, r.cur with
        | some _, some o => s.bankSlot o i
        | _, _ => s
      let r := { r with
        cur := r.cur.map fun (o : OpFlight) => if r.draft.isSome then { o with slots := tset 0 o.slots i 0 } else o,
        members := r.members.map fun (x : Member) => if x.slot = i then { x with cancelled := true } else x,
        early := tset [] r.early i [],
        draft := r.draft.map fun (d : DraftSt) => { d with left := d.left.filter (· ≠ i) } }
      let s := s.setRun (some r)
      let s := if m.committed then s else s.endStep i m.req status flags m.drafts.length 0xFFFFFFFF
      (s.shrinkRun r, if m.committed then 0 else 1)

/-- Every step of a slot that was accepted before a command ends with CANCELLED, in a LOST slot with LOST (R111); its
tentative entries and drafts are dropped (R134), unless a step accepted later is already running on them. The count of steps
ended. -/
def State.cancelWork (s : State) (i : Nat) (before : Nat → Bool) : State × Nat :=
  let sl := s.slot i
  let status := if sl.st = .lost then stLost else stCancelled
  let flags := if sl.st = .lost then 0 else 8
  let queued := sl.steps.filter fun q => !q.running && before q.acc.id
  let coming := (s.stepsComing i).filter fun b => before b.id
  let s := queued.foldl (fun s q => s.dropStep i q status flags) s
  let s := { s with gal := { s.gal with accepted := s.gal.accepted.filter fun b => !coming.any fun c => c.id == b.id } }
  let s := coming.foldl (fun s b => s.dropStep i (b.step sl) status flags) s
  let (s, n) := s.cancelRunning i before status flags
  (s.modSlot i fun x => if x.steps.any (·.running) then x
     else { x with tent := x.commit, drafts := [], dkvWritten := min x.dkvWritten x.commit, fedNow := 0 },
   queued.length + coming.length + n)

/-- SEQ_CANCEL (R134-R136, R273); NEW_TURN has taken effect at acceptance. A slot that a SEQ_CLOSE accepted earlier has freed
meanwhile, re-opened or not, holds nothing to cancel (R248; DESIGN CHOICE, notes/assumptions, row 81). -/
def execSeqCancel (t id : Nat) (s : State) : Host.Outcome State Fault Refusal :=
  s.actOn t id 0x0311 fun a s =>
    let i := a.slotField
    if a.closed = true ∨ (s.slot i).owner ≠ some a.part ∨ (s.slot i).st = .free then s.reply a stOK 0 0 0
    else
    let (s, n) := s.cancelWork i (fun k => decide (k < a.id))
    let sl := s.slot i
    s.reply a stOK sl.commit (sl.gen.toNat + 2 ^ 16 * b2n (decide (a.mark < sl.commits))) n

/-- A slot made FREE: its pages are to be zeroed, its generation stays (R111, R118); commands on it that have not acted yet are
left with no sequence to act on (R248). -/
def State.freeSlotOf (s : State) (p : Fin 4) (i : Nat) : State :=
  let mark (b : Acc) : Acc :=
    if b.part = p ∧ b.slotField = i ∧ b.isSlot = true then { b with closed := true } else b
  ({ s.releaseKv p i with gal := { s.gal with
    accepted := s.gal.accepted.map mark, waiters := s.gal.waiters.map fun w => { w with acc := mark w.acc } } } : State).modSlot i
    fun x => { Slot.init with gen := x.gen, commits := x.commits }

/-- SEQ_CLOSE (R111, R270): in STEPPING first as a SEQ_CANCEL, then the slot is FREE. A slot that another SEQ_CLOSE has freed
meanwhile stays as it is (R248; DESIGN CHOICE, notes/assumptions, row 81). -/
def execSeqClose (t id : Nat) (s : State) : Host.Outcome State Fault Refusal :=
  s.actOn t id 0x0302 fun a s =>
    let i := a.slotField
    let sl := s.slot i
    if a.closed = true ∨ sl.owner ≠ some a.part ∨ sl.st = .free then s.reply a stOK 0 0 0
    else
      let (s, n) := s.cancelWork i (fun _ => true)
      let commit := (s.slot i).commit
      (s.freeSlotOf a.part i).reply a stOK commit n 0

/-! ### Programs (R80, R107, R275-R277) -/

/-- Bytes that OPLIST_LOAD reads, or the byte offset of the first word or line that is lost (R154). -/
def State.listBytes (s : State) (a : Acc) : State × Except Nat (List Byte) :=
  let n := a.par 20 4 * descBytes
  let src := a.par 24 8
  if a.par 17 1 = 1 then
    let good := s.goodLines a.part src (n / 64)
    (s, if good < n / 64 then .error (64 * good) else .ok (s.hostRead a.part src n))
  else match s.firstPoison a.part src n with
    | (s, some o) => (s, .error o)
    | (s, none) => (s, .ok (s.partRead a.part src n))

/-- OPLIST_LOAD's effect (R275): both halves' copies are made, or nothing is. -/
def State.loadList (s : State) (a : Acc) : State :=
  let n := a.par 20 4
  let own := a.par 17 1 = 0
  let src := a.par 24 8
  let halves := s.runHalves.filter fun h => decide ((s.arr.get h).half ≠ .lost)
  if own ∧ !s.mappedRange a.part src (n * descBytes) then s.reply a stNotPermitted 0 0 0
  else match s.halvesMissing ((if own then s.homesOf a.part src (n * descBytes) else []) ++ halves) with
    | some true => s.reply a stFaulted 0 0 0
    | some false => s.wait a .memHalf
    | none => match s.listBytes a with
      | (s, .error o) => s.reply a stFaulted o 0 0
      | (s, .ok bs) =>
        let raw := chunks descBytes bs.length bs
        match firstBad raw with
        | some k => s.reply a stBadParam 0 0 k
        | none =>
          let l : OpList := ⟨raw.map parseDesc, a.par 32 8, a.par 40 4⟩
          ((s.freshCopies (listKey a.part (a.par 16 1)) n).modEng fun e => { e with
            lists := tset none e.lists (listKey a.part (a.par 16 1)) (some l) }).reply a stOK n 0 0

/-- OPLIST_LOAD (R275). -/
def execOplistLoad (t id : Nat) (s : State) : Host.Outcome State Fault Refusal := s.act t id 0x0401 fun a s => s.loadList a

/-- The report of a run refused before its first operation (R82). -/
def refusedReport (number now : Nat) : Report :=
  { runNumber := number, target := 0, drafter := 0, waves := 0, ops := 0, vPresent := false, inexact := false,
    refused := true, truncated := false, gen := 0, refusedIndex := 0xFFFFFFFF, commit := 0, doneTime := now }

/-- OPLIST_RUN (R276): the run, counted when it was accepted (R184), waits for the arrays, which wake (R260); a list that
needs a row map is refused before its first operation (R82). -/
def execOplistRun (t id : Nat) (s : State) : Host.Outcome State Fault Refusal :=
  s.act t id 0x0402 fun a s =>
    let l := a.par 16 1
    let number := a.mark
    match s.list a.part l with
    | none => s.reply a stBadParam 0 0 0
    | some o =>
      if o.descs.any (·.needsRows) then
        ((s.modEng fun e => { e with
          reports := tset none e.reports (listKey a.part l) (some (refusedReport number s.now)) }).reply a stBadParam number 0
            0xFFFFFFFF).settleFrees
      else s.wake.modEng fun e => { e with waiting := insertById (·.acc.id) ⟨a, l, number⟩ e.waiting }

/-- A digest report's bytes (Table 7-6); VALID 0 when there is none. -/
def reportBytes (source ident : Nat) (r : Option Report) : List Byte :=
  match r with
  | none => slice ([1, BitVec.ofNat 8 source] ++ leBytes 2 ident ++ List.replicate 36 0 ++ leBytes 4 0xFFFFFFFF) 0 64
  | some x =>
    slice ([1, BitVec.ofNat 8 source] ++ leBytes 2 ident ++ leBytes 4 x.runNumber ++ leBytes 8 x.target.toNat ++
      leBytes 8 x.drafter.toNat ++ leBytes 8 x.waves ++ leBytes 4 x.ops ++
      [BitVec.ofNat 8 (1 + 2 * b2n x.vPresent + 4 * b2n x.inexact + 8 * b2n x.refused + 16 * b2n x.truncated), 0] ++
      leBytes 2 x.gen ++ leBytes 4 x.refusedIndex ++ leBytes 4 x.commit ++ leBytes 8 x.doneTime) 0 64

/-- DIGEST_READ (R184, R277). -/
def execDigestRead (t id : Nat) (s : State) : Host.Outcome State Fault Refusal :=
  s.actOn t id 0x0410 fun a s =>
    let step := a.par 16 1 = 1
    let r := s.reportRead a
    (s.dma a (a.par 24 8) (reportBytes (a.par 16 1) (if step then a.slotField else a.par 17 1) r)).reply a stOK
      (b2n r.isSome) 0 0

/-! ### Waits for memory (R167, R497) -/

/-- A memory command that waited is taken up again. -/
def State.resumeMem (s : State) (a : Acc) : State :=
  let op := a.opcode
  if op = 0x0202 then s.freeRange a
  else if op = 0x0210 then s.memCopy a
  else if op = 0x0220 then s.memFill a
  else if op = 0x0320 then s.saveSlot a
  else match s.gate3 a with
    | some r => s.reply a r.status 0 0 0
    | none =>
      if op = 0x0201 then s.memAlloc a
      else if op = 0x0301 then s.tryOpen a a.newSlot
      else if op = 0x0321 then s.restore a
      else if op = 0x0401 then s.loadList a else s

/-- No frame is being zeroed; a lost half zeroes nothing. -/
def State.noneZeroing (s : State) : Bool :=
  allHalves.all fun h => decide ((s.hbm.get h).zeroingCount = 0) || decide ((s.arr.get h).half = .lost)

/-- Every command that waits for memory is tried again, in order of acceptance. -/
def State.settleMem (s : State) : State :=
  s.gal.waiters.foldl (fun s w => match w.kind with
    | .memHalf => (s.dropWaiter w.acc.id).resumeMem w.acc
    | _ => s) s

/-- Control scope is entered, its zeroisation complete (R478): the security state changes with one Oculus update, the device
is left in P1 when it was below (R480), and the command is replied to. -/
def State.controlReady (s : State) (a : Acc) (low : Bool) : State :=
  (({ s with
    sec := { s.sec with st := .control },
    pwr := { s.pwr with st := if low then 1 else s.pwr.st } } : State).oculusUpdate).reply a stOK (16 * SecState.control.code) 0 0

/-- FRAME_ZEROING_DONE (R167): released frames are zero and free; it does not happen in a half that is away or in
self-refresh (R270). -/
def execFrameZeroingDone (t : Nat) (half : Half) (s : State) : Host.Outcome State Fault Refusal :=
  let s := s.atTime t
  .next (if !s.halfUp half || (s.hbm.get half).selfRefresh then s
    else
      let s := (s.zeroDone half).settleMem
      if s.noneZeroing then s.gal.waiters.foldl (fun s w => match w.kind with
        | .zeroing low => (s.dropWaiter w.acc.id).controlReady w.acc low
        | _ => s) s
      else s)

end Sys2Proof.Machine
end

