-- ==== Sys2Proof/Machine/Oculus.lean ====
section
/-! DEFINITION. The Oculus table: its header and records as each endpoint sees them (chapter 8), and GET_OCULUS. -/

namespace Sys2Proof.Machine

/-! ### Record states (R195) -/

/-- STATE of a record that belongs to a half: lost 3, resetting 4, else its own. -/
def State.halfRecState (s : State) (h : Half) (own : Nat) : Nat := match (s.arr.get h).half with
  | .lost => 3
  | .orderly => 4
  | .abrupt => 4
  | .inService => own

/-- STATE of a record that either half takes with it: lost first, then resetting. -/
def State.bothRecState (s : State) (own : Nat) : Nat :=
  let w := s.halfRecState .west own
  let e := s.halfRecState .east own
  if w = 3 ∨ e = 3 then 3 else if w = 4 ∨ e = 4 then 4 else own

/-- STATE of an ARRAY record. -/
def State.arrayState (s : State) (h : Half) : Nat :=
  s.halfRecState h (if (s.arr.get h).bound.length < 32 then 1 else 0)

/-- Pseudo-channels fenced in a stack of a half. -/
def Hbm.fencedIn (x : Hbm) (stack : Nat) : List Nat := ((x.fencedPcs.map (·.1)).filter fun c => c / 64 == stack).map (· % 64)

/-- STATE of a STACK record. -/
def State.stackState (s : State) (h : Half) (stack : Nat) : Nat :=
  s.halfRecState h (if ((s.hbm.get h).fencedIn stack).isEmpty then 0 else 1)

/-- STATE of a BUNDLE record. -/
def State.bundleState (s : State) (b : Nat) : Nat :=
  let x := s.bundle b
  let own := if x.st = 2 then 2 else if x.width < lanesBuilt b then 1 else 0
  if b < 8 then s.bothRecState own else s.halfRecState (halfOf ((b - 8) / 4)) own

/-- STATE of a LANTERN record; a Lantern under reset of its own is resetting. -/
def State.lanternState (s : State) (l : Nat) : Nat :=
  let x := s.lan l
  s.halfRecState (halfOf (l / 4)) (if x.fenced then 2 else if x.held then 4 else if x.waves.length < 16 then 1 else 0)

/-- STATE of a THERMAL record. -/
def State.thermalState (s : State) (d : Nat) : Nat :=
  let own := b2n (s.die d).conservative
  match halfOfDie d with
  | none => own
  | some h => s.halfRecState h own

/-- The states of all the records that carry one. -/
def State.recStates (s : State) : List Nat :=
  (allHalves.flatMap fun h => [s.halfRecState h 0, s.arrayState h] ++ (List.range 16).map (s.stackState h)) ++
    (List.range 16).map s.bundleState ++ allLans.map s.lanternState ++ (List.range 11).map s.thermalState

/-- DEGRADED: a record is degraded, fenced or lost (Table 8-4). -/
def State.degraded (s : State) : Bool := s.recStates.any fun n => decide (1 ≤ n) && decide (n ≤ 3)

/-- OCU_DEVICE_STATE (Table 8-4). -/
def State.deviceState (s : State) : Nat :=
  packBits [(11, b2n s.degraded), (10, b2n s.start.singleHalf), (9, b2n (decide (s.arr.east.half = .lost))),
    (8, b2n (decide (s.arr.west.half = .lost))), (4, s.sec.st.code), (0, s.pwr.st)]

/-! ### Bodies (Table 8-7) -/

/-- A record: the 8-byte header of Table 8-5 and a body filled up to its length. -/
def record (type state len inst : Nat) (body : List Byte) : List Byte :=
  leBytes 2 type ++ [1, BitVec.ofNat 8 state] ++ leBytes 2 len ++ leBytes 2 inst ++ slice body 0 (len - 8)

/-- Reserved bytes. -/
def zeros (n : Nat) : List Byte := List.replicate n 0

/-- The ordering code's bytes: "JQ-AX2480-1-" and the suffix (R3, Table 0-1). -/
def orderingCode : List Byte :=
  [0x4A, 0x51, 0x2D, 0x41, 0x58, 0x32, 0x34, 0x38, 0x30, 0x2D, 0x31, 0x2D] ++
    (match Config.shellSuffix with
     | 0 => ([0x4D, 0x41] : List Byte)
     | 1 => [0x4D, 0x46]
     | 2 => [0x45, 0x42])

/-- The IDENTITY record. -/
def State.identityRecord (s : State) : List Byte :=
  record 1 0 48 0 (slice orderingCode 0 16 ++ [1, byteOf Config.shellSuffix.val, (s.dieFuses 2).stepping, 0] ++
    leBytes 8 (s.dieFuses 2).serial.toNat ++ leBytes 4 1600)

/-- Allocatable frames of a half less retired frames and those that left the pool for a fence (R159, R166). -/
def Hbm.allocFrames (x : Hbm) : Nat :=
  poolFrames - (x.use.filter fun e => decide (e.1 < poolFrames) && (match e.2 with
    | .retired => true
    | .fence => true
    | _ => false)).length

/-- A HALF record. -/
def State.halfRecord (s : State) (h : Half) : List Byte :=
  let x := s.hbm.get h
  let live := if (s.arr.get h).half = .lost then 0 else ((List.range 16).filter fun k => decide ((x.fencedIn k).length < 64)).length
  let lans := ((lansOf h).filter fun l => !(s.lan l).fenced).length
  record 2 (s.halfRecState h 0) 24 (halfNo h) ([byteOf live, byteOf lans, 0, 0] ++ leBytes 4 x.allocFrames ++
    leBytes 4 x.retired ++ [byteOf (min 255 x.fencedPcs.length), byteOf x.slotsFree.length])

/-- SPARE_STATE of an array (Table 2-9). -/
def Arr.spareState (a : Arr) : Nat :=
  if a.col 32 = .failed then 2 else if a.bound.contains 32 then 1 else 0

/-- FAILED_MASK and RESERVE_MASK of physical columns 0-31. -/
def Arr.mask (a : Arr) (c : ColState) : Nat := ((a.inState c).filter (· < 32)).foldl (fun m i => m ||| 2 ^ i) 0

/-- An ARRAY record. -/
def State.arrayRecord (s : State) (h : Half) : List Byte :=
  let a := s.arr.get h
  record 3 (s.arrayState h) 24 (halfNo h) ([byteOf a.bound.length, byteOf a.spareState, 0, 0] ++
    leBytes 4 (a.mask .failed) ++ leBytes 4 (a.mask .reserve))

/-- The regions of a tile store in MiB (Table 2-3). -/
def tileRegions : List Nat := [1, 91, 30, 16, 8, 6, 2, 6]

/-- A TILE_STORE record. -/
def State.tileRecord (s : State) (h : Half) : List Byte :=
  record 4 (s.halfRecState h 0) 80 (halfNo h) ([8] ++ zeros 7 ++ (List.range 8).flatMap fun i =>
    [byteOf (i + 1), 0] ++ leBytes 2 (16 * tileRegions.getD i 0) ++ leBytes 4 (Config.tileRegionOffset i).toNat)

/-- A STACK record. -/
def State.stackRecord (s : State) (h : Half) (k : Nat) : List Byte :=
  let x := s.hbm.get h
  let pcs := x.fencedIn k
  record 5 (s.stackState h k) 24 (16 * halfNo h + k) ([byteOf pcs.length, byteOf (b2n (decide (1360 < x.temp k))), 0, 0] ++
    leBytes 8 (pcs.foldl (fun m i => m ||| 2 ^ i) 0))

/-- A BUNDLE record. -/
def State.bundleRecord (s : State) (b : Nat) : List Byte :=
  let x := s.bundle b
  record 6 (s.bundleState b) 16 b ([byteOf (lanesBuilt b), byteOf x.width, byteOf (x.withRole .spare).length,
    byteOf x.speed, byteOf (b2n x.txAsleep + 2 * b2n x.rxAsleep)])

/-- A LANTERN record. -/
def State.lanternRecord (s : State) (l : Nat) : List Byte :=
  record 7 (s.lanternState l) 24 l (s.lanternBody l)

/-- A FABRIC_PORTS record. -/
def State.portsRecord (s : State) (l : Nat) : List Byte :=
  let id := match s.fab.devId with
    | some d => d + 2 ^ 15
    | none => 0
  record 8 (s.halfRecState (halfOf (l / 4)) 0) 80 l (leBytes 2 id ++ zeros 6 ++ allPorts.flatMap fun p => leBytes 4 (s.portEntry l p))

/-- A HOST_PORT record as endpoint `p` sees it. -/
def State.hostPortRecord (s : State) (p q : Fin 4) : List Byte :=
  record 9 0 16 q.val [byteOf (s.port q).width, byteOf (s.port q).rate, byteOf (b2n (decide (p = q)))]

/-- A PARTITION record. -/
def State.partRecord (s : State) (q : Fin 4) : List Byte :=
  let x := s.part q
  record 10 0 24 q.val ([byteOf (b2n (decide (s.drm.steward = q))), byteOf x.slotQuota] ++ leBytes 2 x.gen.toNat ++
    leBytes 4 x.guarantee ++ leBytes 4 x.limit)

/-- A THERMAL record. -/
def State.thermalRecord (s : State) (d : Nat) : List Byte :=
  let x := s.die d
  record 13 (s.thermalState d) 16 d [byteOf (sensorsOf d), byteOf x.broken.length, byteOf (b2n x.conservative)]

/-! ### Blocks and wide values (R193, R225) -/

/-- BLOCK_TYPE of a block (Table 8-7). -/
def blockCode : Block → Nat
  | .drm => 1
  | .arr => 2
  | .tst => 3
  | .hbm => 4
  | .lan => 5
  | .lnk => 6
  | .fab => 7
  | .pwr => 8
  | .thm => 9
  | .flt => 10
  | .sec => 11
  | .ocu => 12
  | .hst => 13
  | .hstQ => 14

/-- Instances of a block in the device register window (chapters 9-21): none of the Oculus table and the queue pages, which
lie outside it. -/
def blockCount : Block → Nat
  | .drm => 1
  | .arr => 2
  | .tst => 2
  | .hbm => 2
  | .lan => 8
  | .lnk => 144
  | .fab => 1
  | .pwr => 1
  | .thm => 1
  | .flt => 1
  | .sec => 1
  | .ocu => 0
  | .hst => 4
  | .hstQ => 0

/-- The blocks in order of BLOCK_TYPE. -/
def allBlocks : List Block := [.drm, .arr, .tst, .hbm, .lan, .lnk, .fab, .pwr, .thm, .flt, .sec, .ocu, .hst, .hstQ]

/-- The blocks of which a window that is not the steward's reaches something (Table 10-4). -/
def reached : Block → Bool
  | .drm => true
  | .arr => true
  | .hbm => true
  | .thm => true
  | .pwr => true
  | .lan => true
  | .fab => true
  | .flt => true
  | _ => false

/-- Whether an endpoint is the steward's. -/
def State.isSteward (s : State) (p : Fin 4) : Bool := decide (s.drm.steward = p)

/-- A BLOCK record. -/
def blockRecord (inst code access binst base size : Nat) : List Byte :=
  record 11 0 24 inst ([byteOf code, byteOf access] ++ leBytes 2 binst ++ leBytes 4 base ++ leBytes 4 size)

/-- The blocks an endpoint reaches: code, access, instance, base, size. Its Oculus table, its own partition block and its queue
pages have the places of Table 10-3. -/
def State.windowBlocks (s : State) (p : Fin 4) : List (Nat × Nat × Nat × Nat × Nat) :=
  [(12, 2, p.val, 0, 0x10000), (13, 2, p.val, 0x10000, 0x10000), (14, 2, p.val, 0x100000, 0xF00000)] ++
    ((allBlocks.filter fun b => s.isSteward p || reached b).flatMap fun b =>
      (List.range (blockCount b)).map fun i =>
        (blockCode b, if s.isSteward p then 2 else 1, i, (Config.blockBase (blockCode b) i).toNat,
          (Config.blockSize (blockCode b)).toNat))

/-- The BLOCK records of an endpoint. -/
def State.blockRecords (s : State) (p : Fin 4) : List (List Byte) :=
  (List.zip (List.range 200) (s.windowBlocks p)).map fun (i, c, acc, inst, base, size) =>
    blockRecord i c acc inst base size

/-- VALUE_IDs of a block instance (Tables 8-8, 13-12, 14-13, 15-22, 16-8, 17-17, 18-10). -/
def wideIds (b : Block) (inst : Nat) : List Nat := match b with
  | .drm => [1]
  | .arr => [1, 2, 3]
  | .hbm => [1, 2, 3, 4, 5, 6]
  | .lan => [1, 2, 3, 4, 5] ++ (List.range 16).map (· + 0x10) ++ (List.range 16).map (· + 0x20)
  | .lnk => (if inst < 16 then [1, 2] else []) ++ (List.range 7).map (· + 3)
  | .fab => (List.range 7).map (· + 1)
  | .pwr => [1] ++ (List.range 14).map (· + 0x10) ++ [0x20]
  | .thm => [1, 2, 3]
  | .flt => (List.range 6).map (· + 1)
  | _ => []

/-- The wide values that an endpoint's table lists: the time base alone for a window that is not the steward's. -/
def State.wides (s : State) (p : Fin 4) : List WideRef :=
  if s.isSteward p then allBlocks.flatMap fun b => (List.range (blockCount b)).flatMap fun i =>
    (wideIds b i).map fun v => ⟨b, i, v⟩
  else [⟨.drm, 0, 1⟩]

/-- The WIDE_VALUE records of an endpoint. -/
def State.wideRecords (s : State) (p : Fin 4) : List (List Byte) :=
  (List.zip (List.range 2048) (s.wides p)).map fun (i, w) =>
    record 12 0 16 i ([byteOf (blockCode w.block), 0] ++ leBytes 2 w.inst ++ leBytes 2 w.id ++
      leBytes 2 (Config.wideSelect (blockCode w.block) w.inst w.id).toNat)

/-! ### The table (R186-R193) -/

/-- The records of an endpoint's table, END last. -/
def State.records (s : State) (p : Fin 4) : List (List Byte) :=
  [s.identityRecord] ++ allHalves.map s.halfRecord ++ allHalves.map s.arrayRecord ++ allHalves.map s.tileRecord ++
    (allHalves.flatMap fun h => (List.range 16).map (s.stackRecord h)) ++ (List.range 16).map s.bundleRecord ++
    allLans.map s.lanternRecord ++ allLans.map s.portsRecord ++ allParts.map (s.hostPortRecord p) ++
    (allParts.filter fun q => s.isSteward p || decide (p = q)).map s.partRecord ++ s.blockRecords p ++ s.wideRecords p ++
    (List.range 11).map s.thermalRecord ++ [record 0xFFFF 0 8 0 []]

/-- The header of Table 8-1. -/
def State.oculusHeader (s : State) (p : Fin 4) (count : Nat) (body : List Byte) : List Byte :=
  leBytes 4 0x4C55434F ++ [1, 0] ++ leBytes 2 64 ++ leBytes 4 (64 + body.length) ++ leBytes 2 count ++ leBytes 2 64 ++
    leBytes 4 s.drm.change ++ leBytes 4 (crc32c body).toNat ++ leBytes 4 (1 + s.selected p * 2 ^ 16) ++
    leBytes 4 ((s.part p).offer.getD 0) ++ leBytes 4 s.deviceState ++ leBytes 4 (p.val + 256 * p.val) ++ zeros 24

/-- An endpoint's Oculus table; until the start has completed only SIGNATURE, HEADER_LEN and CHANGE_COUNT read (R491). -/
def State.oculus (s : State) (p : Fin 4) : List Byte :=
  if s.start.phase = .running then
    let recs := s.records p
    let body := recs.flatten
    s.oculusHeader p recs.length body ++ body
  else leBytes 4 0x4C55434F ++ [0, 0] ++ leBytes 2 64 ++ zeros 8 ++ leBytes 4 1

/-- GET_OCULUS (R199, R262): the whole table is copied when the buffer holds it. -/
def State.getOculus (s : State) (a : Acc) : State :=
  let tab := s.oculus a.part
  if a.par 24 4 < tab.length then s.reply a stBadParam 0 tab.length 0
  else (s.dma a (a.par 16 8) tab).reply a stOK tab.length s.drm.change 0

/-- GET_OCULUS (R262). -/
def execGetOculus (t id : Nat) (s : State) : Host.Outcome State Fault Refusal := s.actOn t id 0x0101 fun a s => s.getOculus a

end Sys2Proof.Machine
end

