-- ==== Sys2Proof/Machine/Faults.lean ====
section
/-! DEFINITION. The Belfry's log as software sees it: messages as bits, attribution, causes that persist, the pins, and
FAULT_READ, FAULT_ACK and FAULT_CLEAR (chapter 18, R287, R288). -/

namespace Sys2Proof.Machine

/-! ### Messages (Tables 18-1 to 18-3) -/

/-- The code of a class (Table 18-1). -/
def FClass.code : FClass → Nat
  | .corrected => 1
  | .contained => 2
  | .fatal => 3

/-- The 64 bits of a message. -/
def Msg.code (m : Msg) : Nat := packBits [(52, m.src), (50, m.cls.code), (40, m.kind), (0, m.addr)]

/-- The message that 64 bits spell; class 0b00 is never issued (R439). -/
def Msg.ofCode (v : Nat) : Option Msg :=
  let m (c : FClass) : Option Msg := some ⟨bitsOf v 63 52, c, bitsOf v 47 40, bitsOf v 39 0⟩
  match bitsOf v 51 50 with
  | 1 => m .corrected
  | 2 => m .contained
  | 3 => m .fatal
  | _ => none

/-- Whether a source is an HBM stack. -/
def isStack (src : Nat) : Bool := decide (0x060 ≤ src) && decide (src < 0x080)
/-- Whether a source is a link: a bundle or a fabric port. -/
def isLink (src : Nat) : Bool := (decide (0x080 ≤ src) && decide (src < 0x090)) || (decide (0x100 ≤ src) && decide (src < 0x180))
/-- Whether a source is a Lantern. -/
def isLantern (src : Nat) : Bool := decide (0x0A0 ≤ src) && decide (src < 0x0A8)

/-- The kinds of a source's group (Table 18-3): kind, codes of the classes in which it is issued, and the ADDRESS bits that its
entry names. A source of no group has none. -/
def kindsOf (src : Nat) : List (Nat × List Nat × Nat) :=
  if src = 0x000 then [(1, [3], 0xFFFF), (2, [2], 0xFFFFFFFF)]
  else if src = 0x001 then [(1, [3], 0xFFFFFFFF)]
  else if src = 0x002 then [(1, [2], 0x3FFFFFFFF), (2, [3], 0xFFF), (3, [1], 0xF0FFF), (4, [2], 0xFFFFFFFF), (5, [2], 1),
    (6, [3], 0xFFFFFFFF)]
  else if src = 0x003 then [(1, [1], 0x3000000FF), (2, [3], 3)]
  else if src = 0x004 then [(1, [2], 0xFFF), (2, [1], 0xFFF), (3, [2], 0xFFF)]
  else if src = 0x005 then [(1, [1], 0xFFF)]
  else if src = 0x006 then [(1, [2], 0xFFFFFFFF)]
  else if src = 0x007 then [(1, [1], 1)]
  else if src = 0x008 then [(1, [2], 0x7FFF)]
  else if 0x010 ≤ src ∧ src < 0x014 then [(1, [2], 0x71F), (2, [2], 1), (3, [2], 0)]
  else if 0x020 ≤ src ∧ src < 0x02C then [(1, [2], 0x3FFFFFF), (2, [2], 0x3FFFFFF), (3, [2, 3], 0xFFFFFFFF)]
  else if src = 0x040 ∨ src = 0x041 then [(1, [3], 0xFFF), (2, [2], 0xFFF), (3, [1], 0xFFF)]
  else if src = 0x042 ∨ src = 0x043 then [(1, [1], 0x33F1F), (2, [1], 0x33F1F), (3, [2], 0x33F1F), (4, [1], 0x33F1F),
    (5, [1], 0x3F00), (6, [2], 0x3FFFFFFFF)]
  else if src = 0x044 ∨ src = 0x045 then [(1, [1], 0xFFFFFFF), (2, [1], 0xFFFFFFF), (3, [2], 0xFFFFFFF)]
  else if isStack src then [(1, [1], 0xFFFFFFFFFF), (2, [2], 0xFFFFFFFFFF), (3, [2], 0xFFFFFFFFFF), (4, [1], 0xFFFFFF),
    (5, [2], 0xFFFFFF), (6, [2], 0xFC00000000), (7, [2], 0xFC00000000), (8, [1], 0xFFFF)]
  else if isLink src then [(1, [1], 0xFFFF), (2, [2], 0x7F), (3, [2], 0x7F), (4, [1], 0x7F), (5, [1], 0xFFFFFFFF), (6, [1], 0xFFF),
    (7, [2], 0xFFF), (8, [2], 0xFFF), (9, [2], 0xF)] ++ (if src < 0x100 then [] else [(0x0A, [2], 0xFFFFFFFF)]) ++
    if 0x100 ≤ src ∧ src % 16 = 0 then [(0x0B, [2], 7)] else []
  else if isLantern src then [(1, [1], 0xF0F), (2, [1], 0x1F0F), (3, [2], 0x1F0F), (4, [1], 0x1F), (5, [1], 0x810F), (6, [2], 0xF),
    (7, [1], 0x100), (8, [2], 0x1F), (9, [2], 0xFF), (0x0A, [2], 0), (0x0B, [2], 0xFFFF)]
  else if 0x0B0 ≤ src ∧ src < 0x0BB then [(1, [1], 0x3F), (2, [2], 0x7F), (3, [1], 0xFFFF), (4, [1], 0xFFFF), (5, [3], 0xFFFF)]
  else if 0x0C0 ≤ src ∧ src < 0x0CE then [(1, [1], 0xFFFF), (2, [2], 0xFFF)]
  else []

/-- Whether a message is one that a unit issues (R439-R441): a kind of its source's group, in its class, no unnamed ADDRESS bit
set. -/
def Msg.issued (m : Msg) : Bool :=
  (kindsOf m.src).any fun k => k.1 == m.kind && k.2.1.contains m.cls.code && (m.addr ||| k.2.2) == k.2.2

/-- The message that a unit sends as 64 bits; none where they spell one that is never issued (R439). -/
def Msg.sent (v : Nat) : Option Msg := if bitsOf v 49 48 = 0 then (Msg.ofCode v).filter Msg.issued else none

/-- A kind exempt from escalation: column X of Table 18-3. -/
def Msg.exempt (m : Msg) : Bool :=
  (isStack m.src && decide (1 ≤ m.kind) && decide (m.kind ≤ 7)) || (isLink m.src && [1, 2, 4, 5, 6].contains m.kind) ||
    (isLantern m.src && decide (1 ≤ m.kind) && decide (m.kind ≤ 3))

/-- The link of a link source. -/
def linkOfSource (src : Nat) : Nat := if src < 0x100 then src - 0x080 else src - 0x100 + 16

/-- Log entries that the Belfry holds (R448). -/
def logSize : Nat := 16384

/-- A contained or fatal class. -/
def FClass.serious : FClass → Bool
  | .corrected => false
  | _ => true

/-- Every entry is an uncleared contained or fatal one (R451). -/
def State.logFull (s : State) : Bool :=
  decide (logSize ≤ s.bel.log.length) && s.bel.log.all fun e => !e.cleared && e.msg.cls.serious

/-- The cause of an entry persists (Table 18-3). -/
def State.persists (s : State) (e : LogEntry) : Bool :=
  let m := e.msg
  let bound : Bool := decide (s.start.startedAt ≤ e.stamp)
  let half (src : Nat) : Hbm := s.hbm.get (halfOf (src % 2))
  match m.src, m.kind with
  | 0x000, 1 => bound
  | 0x000, 2 => s.logFull
  | 0x001, 1 => bound
  | 0x002, 2 => bound
  | 0x002, 6 => bound
  | 0x003, 2 => bound
  | 0x004, 1 => (List.range 11).any fun d => (s.die d).lost && srcDieUnit d == m.addr % 4096
  | 0x004, 2 => s.pwr.capLimited
  | 0x004, 3 => s.pwr.stop
  | 0x005, 1 => match halfOfSource (m.addr % 4096) with
    | some h => (s.arr.get h).unsync
    | none => false
  | 0x040, 1 => bound && !s.start.singleHalf
  | 0x041, 1 => bound && !s.start.singleHalf
  | src, kind =>
    if 0x010 ≤ src ∧ src < 0x014 then kind == 1 && (s.port (Fin.ofNat 4 (src - 0x010))).slow
    else if 0x020 ≤ src ∧ src < 0x02C then
      let d := s.dom (src - 0x020)
      kind == 3 && !(d.armed && d.live == d.ref)
    else if isStack src then
      let x := half ((src - 0x060) / 16)
      if kind = 5 then !x.retirePending.isEmpty
      else if kind = 7 then !x.fencePending.isEmpty
      else kind == 8 && x.atLimit.contains ((src - 0x060) % 16)
    else if isLink src then kind == 7 && (s.link (linkOfSource src)).st == 3
    else if isLantern src then
      let x := s.lan (src - 0x0A0)
      if kind = 3 then
        let y := x.port (bitsOf m.addr 3 0)
        (tget none (if bitOf m.addr 12 then y.txDropped else y.rxDropped) (bitsOf m.addr 11 8)).isSome
      else if kind = 4 then (x.laser (bitsOf m.addr 4 0)).warn
      else if kind = 0x0A then x.shell == 1 && x.drain.isNone
      else kind == 0x0B && x.stop
    else if 0x0B0 ≤ src ∧ src < 0x0BB then
      let d := s.die (src - 0x0B0)
      if kind = 3 then d.throttle else if kind = 4 then d.rise else kind == 5 && bound
    else false

/-! ### Attribution and the pins (R452-R454) -/

/-- Whether an entry is attributed to a partition (R452). -/
def State.attributed (s : State) (p : Fin 4) (m : Msg) : Bool :=
  if 0x010 ≤ m.src ∧ m.src < 0x014 then m.src == 0x010 + p.val
  else if m.src = 0x003 ∧ m.kind = 1 ∨ (m.src = 0x042 ∨ m.src = 0x043) ∧ m.kind = 6 then bitsOf m.addr 33 32 == p.val
  else m.cls.serious || s.isSteward p

/-- Whether a partition reads an entry (R287, R452). -/
def State.sees (s : State) (p : Fin 4) (m : Msg) : Bool := s.isSteward p || s.attributed p m

/-- FAULT_N is low (R454). -/
def State.faultLow (s : State) : Bool :=
  s.logFull || s.start.safe || s.bel.log.any fun e => e.msg.cls.serious && !e.cleared

/-- ALERT_N is low: a contained or fatal entry is not acknowledged (R453). -/
def State.alertLow (s : State) : Bool := s.bel.log.any fun e => e.msg.cls.serious && !e.acked

/-- THERM_N is low (R432): a Spire at throttle or above, a rate-of-rise throttle, a stack at its limit, an orderly stop or a
hard trip. -/
def State.thermLow (s : State) : Bool :=
  ((List.range 2).any fun d => s.atThrottle d || (s.die d).rise) ||
    (allHalves.any fun h => !(s.hbm.get h).atLimit.isEmpty) || s.pwr.stop ||
    (List.range 11).any fun d => (s.die d).trip || (decide (d < 3) && (s.die d).stop)

/-- Whether the package drives its outputs: from the release of the package reset on (R510). Until then FAULT_N, ALERT_N,
THERM_N and SVC_LED are released. -/
def State.drivesOutputs (s : State) : Bool := decide (s.start.phase ≠ .off) && decide (s.start.phase ≠ .held)

/-- FLT_STATUS as a window sees it (Table 18-7, R460). -/
def State.fltStatus (s : State) (p : Fin 4) : Nat :=
  let l := s.bel.log.filter fun e => s.sees p e.msg
  let contained := (l.filter fun e => decide (e.msg.cls = .contained) && !e.cleared).length
  let fatal := (l.filter fun e => decide (e.msg.cls = .fatal) && !e.cleared).length
  packBits [(31, b2n s.start.safe), (30, b2n s.logFull), (29, b2n s.faultLow), (28, b2n s.alertLow),
    (12, satTo 4095 contained), (8, satTo 15 fatal), (0, satTo 255 (l.filter (!·.acked)).length)]

/-- The Belfry's state changed. -/
def State.modBel (s : State) (f : Belfry → Belfry) : State := { s with bel := f s.bel }

/-! ### Reading, acknowledging, clearing (R287, R288, R455) -/

/-- The entry held with an INDEX. -/
def State.entryAt (s : State) (index : Word) : Option LogEntry := s.bel.log.find? fun e => e.index == index

/-- The entry with an INDEX changed. -/
def State.modEntry (s : State) (index : Word) (f : LogEntry → LogEntry) : State :=
  s.modBel fun b => { b with log := b.log.map fun e => if e.index = index then f e else e }

/-- REPEATS as software reads it: bit 31 marks an injected message (R294). -/
def LogEntry.repeatWord (e : LogEntry) : Nat := e.repeats + 2 ^ 31 * b2n e.injected

/-- The 32 bytes of an entry (Table 12-12). -/
def LogEntry.bytes (e : LogEntry) : List Byte :=
  leBytes 8 e.msg.code ++ leBytes 8 e.stamp ++ leBytes 4 e.index.toNat ++ [byteOf (b2n e.acked + 2 * b2n e.cleared)] ++
    zeros 3 ++ leBytes 4 e.repeatWord ++ zeros 4

/-- An index at or after another, modulo 2^32. -/
def indexFrom (first index : Word) : Bool := decide ((index - first).toNat < 2 ^ 31)

/-- Entries examined in order until `count` are taken: what is taken and the index after the last one examined. -/
def takeEntries (take : LogEntry → Bool) : Nat → Word → List LogEntry → List LogEntry × Word
  | _, after, [] => ([], after)
  | 0, after, _ => ([], after)
  | n + 1, _, e :: r =>
    if take e then
      let x := takeEntries take n (e.index + 1) r
      (e :: x.1, x.2)
    else takeEntries take (n + 1) (e.index + 1) r

/-- FAULT_READ's effect (R287); vector 16 may be signalled again (R453). -/
def State.faultRead (s : State) (a : Acc) : State :=
  let first := BitVec.ofNat 32 (a.par 16 4)
  let filter := a.par 32 1
  let wanted (e : LogEntry) : Bool :=
    s.sees a.part e.msg && !(bitOf filter 0 && e.acked) && !(bitOf filter 1 && e.cleared)
  let r := takeEntries wanted (a.par 20 4) first (s.bel.log.filter fun e => indexFrom first e.index)
  let s := s.modPart a.part fun x => { x with faultIrq := true }
  (s.dma a (a.par 24 8) (r.1.flatMap (·.bytes))).reply a stOK r.1.length r.2.toNat 0

/-- FAULT_READ (R287). -/
def execFaultRead (t id : Nat) (s : State) : Host.Outcome State Fault Refusal := s.actOn t id 0x0801 fun a s => s.faultRead a

/-- The entry that FAULT_ACK or FAULT_CLEAR names, or the status it is refused with (R288). -/
def State.namedEntry (s : State) (a : Acc) : Except Nat LogEntry :=
  match s.entryAt (BitVec.ofNat 32 (a.par 16 4)) with
  | none => .error (if s.isSteward a.part then stBadParam else stNotPermitted)
  | some e =>
    if !s.sees a.part e.msg then .error stNotPermitted
    else if e.msg.code ≠ a.par 24 8 then .error stBadParam else .ok e

/-- An entry acknowledged (R455). -/
def State.ackEntry (s : State) (index : Word) : State := s.modEntry index fun e => { e with acked := true }

/-- An entry cleared, which acknowledges it too (R455). -/
def State.clearEntry (s : State) (index : Word) : State := s.modEntry index fun e => { e with acked := true, cleared := true }

/-- FAULT_ACK's effect. -/
def State.faultAck (s : State) (a : Acc) : State := match s.namedEntry a with
  | .error c => s.reply a c 0 0 0
  | .ok e => (s.ackEntry e.index).reply a stOK 0 0 0

/-- FAULT_ACK (R288). -/
def execFaultAck (t id : Nat) (s : State) : Host.Outcome State Fault Refusal := s.actOn t id 0x0802 fun a s => s.faultAck a

/-- FAULT_CLEAR's effect: refused while the cause persists. -/
def State.faultClear (s : State) (a : Acc) : State := match s.namedEntry a with
  | .error c => s.reply a c 0 0 0
  | .ok e => if s.persists e then s.reply a stBusy 0 0 0 else (s.clearEntry e.index).reply a stOK 0 0 0

/-- FAULT_CLEAR (R288). -/
def execFaultClear (t id : Nat) (s : State) : Host.Outcome State Fault Refusal := s.actOn t id 0x0803 fun a s => s.faultClear a

end Sys2Proof.Machine
end

