-- ==== Sys2Proof/Machine/Commands.lean ====
section
/-! DEFINITION. Skenil commands on power, fabric, light, heat and lanes (chapter 12: R263, R278-R286, R292, R293). -/

namespace Sys2Proof.Machine

/-! ### Power (R263, R284) -/

/-- SET_POWER_STATE's effect: the reply holds the state before, the slots suspended and the steps cancelled. -/
def State.setPower (s : State) (a : Acc) : State :=
  let prev := s.pwr.st
  let target := a.par 16 1
  match s.requestPower target with
  | (s, .done status n c) => s.reply a status prev n c
  | (s, .waits) => s.wait a (.power target prev 0 0)

/-- SET_POWER_STATE (R263); a TERMINATED part stays in P3 (R480). -/
def execSetPowerState (t id : Nat) (s : State) : Host.Outcome State Fault Refusal :=
  s.act t id 0x0110 fun a s =>
    if s.sec.st = .terminated then s.reply a (if a.par 16 1 = 3 then stOK else stLocked) s.pwr.st 0 0 else s.setPower a

/-- PWR_CAP_SET (R14, R284): the reply waits until the cap is enforced. -/
def execPwrCapSet (t id : Nat) (s : State) : Host.Outcome State Fault Refusal :=
  s.act t id 0x0701 fun a s =>
    let prev := s.pwr.cap
    let r := s.setCap (a.par 16 2)
    if r.2 then r.1.reply a stOK prev r.1.pwr.measured 0 else r.1.wait a (.cap prev)

/-! ### Fabric (R278, R279) -/

/-- The router's state changed. -/
def State.modFab (s : State) (f : Fabric → Fabric) : State := { s with fab := f s.fab }

/-- FAB_ROUTE_SET's effect (R278, R389). -/
def State.routeSet (s : State) (a : Acc) : State :=
  if a.par 16 1 = 1 then ((s.modFab fun x => { x with devId := some (a.par 18 2) }).oculusUpdate).reply a stOK 0 0 0
  else
    let n := a.par 22 2
    (s.modFab fun x => { x with
      routes := (List.range n).foldl (fun (m : Tbl Nat) i => tset 0 m (a.par 20 2 + i) (le a.ext (4 * i) 2)) x.routes }).reply a
        stOK n 0 0

/-- FAB_ROUTE_SET (R278). -/
def execFabRouteSet (t id : Nat) (s : State) : Host.Outcome State Fault Refusal := s.act t id 0x0501 fun a s => s.routeSet a

/-- A port given a new role (R395): one generation past both ends' highest, what it held discarded, its link to be trained
afresh. -/
def State.portRole (s : State) (l p : Nat) : State :=
  let k := portKey l p
  let x := s.link k
  let n := x.unacked.length + ((x.queue.filter (·.started)).map (·.flits.length)).foldl (· + ·) 0
  let gen := (nextGen (BitVec.ofNat 16 (max x.gen x.farGen))).toNat
  let s := (s.modLPort l p fun y => { y with takenDown := false }).modLink k fun x => { x with
    st := 0, gen := gen, fresh := true, adopted := false, hello := false, width := none, waitWidth := [], rxWidth := none,
    rxWait := [] }
  let s := (s.purge k).1.oculusUpdate
  let s := if 0 < n then s.report (srcLink k) .contained 8 (min n 4095) else s
  if ((s.lan l).port p).light = lightFull then s.modLink k fun x => x.sendHello k else s

/-- A port taken down (R396): its traffic goes back or is discarded, the Oculus table is updated, one contained fault. -/
def State.portDown (s : State) (l p : Nat) : State :=
  let k := portKey l p
  if ((s.lan l).port p).takenDown ∨ (s.link k).st = 4 then s.modLPort l p fun y => { y with takenDown := true }
  else
    let s := s.modLPort l p fun y => { y with takenDown := true }
    let dark : Bool := ((s.lan l).port p).light == lightDark
    let s := if dark then s else s.dropPort l p lightKeep false
    let s := s.modLink k fun x => { x with st := if x.gen = 0 then 0 else 3, hello := false }
    let r := s.purge k
    (r.1.oculusUpdate).report (srcLink k) .contained 0x0A r.2

/-- FAB_PORT_STATE's effect (R279). -/
def State.portState (s : State) (a : Acc) : State :=
  let l := a.par 16 1
  let p := a.par 17 1
  let act := a.par 18 1
  if act = 1 then
    let s := s.portRole l p
    if (s.link (portKey l p)).st = 1 then s.reply a stOK (s.portEntry l p) 0 0 else s.wait a (.portUp l p)
  else
    let s := if act = 2 then s.portDown l p else s
    s.reply a stOK (s.portEntry l p) 0 0

/-- FAB_PORT_STATE (R279). -/
def execFabPortState (t id : Nat) (s : State) : Host.Outcome State Fault Refusal := s.act t id 0x0510 fun a s => s.portState a

/-! ### Optical (R280-R283, R388) -/

/-- A laser's bias, output and frequency offset as the record lists them. -/
def State.laserReadings (s : State) (l i : Nat) : List Byte :=
  let y := (s.lan l).laser i
  [byteOf (s.biasPct l i)] ++ leBytes 2 (codeOf 16 y.delta) ++ leBytes 2 (codeOf 16 y.freq) ++ zeros 2

/-- A port entry of the status record. The weakest wavelength's power is a free value (row 3). -/
def LPort.entry (y : LPort) (free : Nat) : List Byte :=
  let far : List Byte := if y.farSeen then
      leBytes 2 (Config.freeValue free).toNat ++ leBytes 2 (satTo 65535 ((y.corrected.map (·.2)).foldl (· + ·) 0)) ++
        leBytes 2 (match y.farId with
          | some d => d + 2 ^ 15
          | none => 0) ++ [byteOf (16 * y.farLantern + y.farPort), 0]
    else zeros 8
  [byteOf y.light, byteOf (wavesOf y.tx).length] ++ leBytes 2 y.rx ++ far ++ zeros 4

/-- The 432-byte Lantern status record (Table 15-23). -/
def State.lanternStatus (s : State) (l : Nat) : List Byte :=
  let x := s.lan l
  let hold := match x.holdUntil with
    | some u => ceilDiv (u - s.now) (10 ^ 6)
    | none => 0
  [1, byteOf l, byteOf x.shell, byteOf (b2n x.parapet)] ++ leBytes 2 (maskOf (s.upPorts l)) ++ leBytes 2 (maskOf x.waves) ++
    leBytes 2 x.fadeMask ++ [byteOf x.gapMode, byteOf x.turn] ++ leBytes 4 x.gapPeriod ++ leBytes 4 hold ++
    leBytes 2 (temp16? (s.die (3 + l)).hottest) ++ [byteOf x.modules.length] ++ zeros 9 ++
    ((List.range 16).flatMap fun k => [byteOf (x.sourceOf k)] ++ s.laserReadings l (x.laserOf k)) ++
    ((List.range 2).flatMap fun i => [byteOf (x.spareEntry i)] ++ s.laserReadings l (16 + i)) ++
    allPorts.flatMap fun p => (x.port p).entry (s.free + p)

/-- LANTERN_STATUS's effect (R280, R388). -/
def State.lanternRead (s : State) (a : Acc) : State :=
  let l := a.par 16 1
  let w := s.lanternWords l
  let s := if a.par 24 8 = 0 then s else { s.dma a (a.par 24 8) (s.lanternStatus l) with free := s.free + 16 }
  s.reply a stOK w.1 w.2.1 w.2.2

/-- LANTERN_STATUS (R280). -/
def execLanternStatus (t id : Nat) (s : State) : Host.Outcome State Fault Refusal := s.actOn t id 0x0601 fun a s => s.lanternRead a

/-- LASER_SWAP's effect (R281, R371): in the next gap, or by R369's path at once; a swap already under way for the wavelength is waited for; with
no spare free the wavelength is retired. -/
def State.laserSwap (s : State) (a : Acc) : State :=
  let l := a.par 16 1
  let k := a.par 17 1
  let x := s.lan l
  let want : Option Nat := if a.par 19 1 = 0xFF then none else some (a.par 19 1)
  if (match x.swap with
      | some w => w.wave == k
      | none => false) || x.swapQ.any (fun e => e.1 == k) then s.wait a (.swap l k)
  else if x.sourceOf k = 3 then s.reply a stDegraded (0xFF + 256 * k) 0 0
  else match s.beginSwap l k (decide (a.par 18 1 = 1)) false false want with
    | some s => (s.releaseSwap l).wait a (.swap l k)
    | none => (s.retireWave l k).reply a stDegraded (0xFF + 256 * k) 0 0

/-- LASER_SWAP (R281). -/
def execLaserSwap (t id : Nat) (s : State) : Host.Outcome State Fault Refusal := s.act t id 0x0610 fun a s => s.laserSwap a

/-- The gap policy set for one Lantern (R282, R365, R366). -/
def State.gapPolicy (s : State) (l mode period hold : Nat) : State :=
  let s := if period = 0 then s else s.modLan l fun x => { x with gapPeriod := period }
  if mode = 0 then
    let held := decide ((s.lan l).gapMode = 1)
    let s := s.modLan l fun x => { x with gapMode := 0, holdUntil := none }
    if held then s.dueGap l else s
  else if mode = 1 then s.modLan l fun x => { x with gapMode := 1, holdUntil := some (s.now + hold * 10 ^ 6) }
  else if s.gapFree l then (s.startGap l).oculusUpdate
  else s.modLan l fun x => { x with gapAsked := true }

/-- CAL_GAP_POLICY's effect. -/
def State.calGapPolicy (s : State) (a : Acc) : State :=
  let ls := if a.par 16 1 = 0xFF then allLans else [a.par 16 1]
  let before := (s.lan (ls.headD 0)).gapPeriod
  (ls.foldl (fun s l => s.gapPolicy l (a.par 17 1) (a.par 20 4) (a.par 24 4)) s).reply a stOK before 0 0

/-- CAL_GAP_POLICY (R282). -/
def execCalGapPolicy (t id : Nat) (s : State) : Host.Outcome State Fault Refusal := s.act t id 0x0620 fun a s => s.calGapPolicy a

/-- A drain asked for (R381, R283): the one in progress, or a new one; with the shell already open it is complete at once
(R382). -/
def State.askDrain (s : State) (l : Nat) : State :=
  let x := s.lan l
  if x.drain.isSome then s
  else if x.shell = 1 then (s.modLan l fun x => { x with drain := some s.now, drainDone := false, restoring := false }).completeDrain l
  else s.startDrain l

/-- A drain not yet complete abandoned (R382); commands that waited for it end with CANCELLED. -/
def State.abandonDrain (s : State) (l : Nat) : State :=
  let x := s.lan l
  if x.drain.isSome && !x.drainDone then
    let s := ((s.modLan l fun x => { x with shell := 0, drain := none, restoring := false }).relight l).oculusUpdate
    ((s.replyDrain l 0 stCancelled).releaseSwap l).dueGap l
  else s

/-- SERVICE_DRAIN's effect (R283). -/
def State.serviceDrain (s : State) (a : Acc) : State :=
  let l := a.par 16 1
  let act := a.par 17 1
  if act = 0 then
    let s := s.askDrain l
    if (s.lan l).drainDone then s.reply a stOK (s.drainDetail l) 0 0 else s.wait a (.drain l 0)
  else if act = 1 then
    let s := (if (s.lan l).restoring then s else s.startRestore l).wait a (.drain l 1)
    s.settleRestore l
  else
    let s := s.abandonDrain l
    s.reply a stOK (s.drainDetail l) 0 0

/-- SERVICE_DRAIN (R283). -/
def execServiceDrain (t id : Nat) (s : State) : Host.Outcome State Fault Refusal := s.act t id 0x0630 fun a s => s.serviceDrain a

/-! ### Heat and margins (R285, R286, R436, R437) -/

/-- A threshold in force: 10 degrees lower under a conservative cap (R424). -/
def DieTh.inForce (x : DieTh) (v : Int) : Nat := temp16 (if x.conservative then v - 160 else v)

/-- A sensor's reading, none when broken, absent, off or not sampled. -/
def State.sensor (s : State) (d i : Nat) : Option Int :=
  if s.dieOff d || (s.die d).broken.contains i then none else (s.die d).temps[i]?

/-- The 192-byte thermal record (Table 17-9). -/
def State.thermRecord (s : State) (d : Nat) : List Byte :=
  let x := s.die d
  let level := s.dieLevel d
  let stackTemps : List Byte := if d < 2 then (List.range 16).flatMap fun k => leBytes 2 (temp16? (tget none (s.hbm.get (halfOf d)).temps k))
    else (List.range 16).flatMap fun _ => leBytes 2 0x8000
  [1, byteOf d, byteOf (sensorsOf d), byteOf level] ++ leBytes 2 (temp16? (s.dieHottest d)) ++ leBytes 2 (temp16 (s.dieRise d)) ++
    [byteOf x.broken.length, byteOf (b2n x.conservative + 2 * b2n x.rise + 4 * b2n (x.throttle || x.limit.isSome) +
      8 * b2n (level == 4))] ++ leBytes 2 (x.inForce (warnAt d)) ++
    leBytes 2 (if d < 2 then x.inForce throttleAt else 0x8000) ++ leBytes 2 (x.inForce (stopAt d)) ++ zeros 16 ++
    ((List.range 64).flatMap fun i => leBytes 2 (temp16? (s.sensor d i))) ++ stackTemps

/-- THERM_STATUS's effect (R285, R437). -/
def State.thermStatus (s : State) (a : Acc) : State :=
  let d := a.par 16 1
  let w := s.thermWords d
  let s := if a.par 24 8 = 0 then s else s.dma a (a.par 24 8) (s.thermRecord d)
  s.reply a stOK w.1 w.2.1 w.2.2

/-- THERM_STATUS (R285). -/
def execThermStatus (t id : Nat) (s : State) : Host.Outcome State Fault Refusal := s.actOn t id 0x0710 fun a s => s.thermStatus a

/-- The set point for a target: the lowest voltage of the range that meets it, the highest when none does (R435). -/
def Arr.setPoint (a : Arr) (h : Half) (target : Nat) : Nat :=
  (((List.range 251).map (· + 550)).find? fun mv => decide (target ≤ a.rateAt h mv nominalTemp)).getD 800

/-- An array entry of the margin summary. -/
def State.marginArray (s : State) (h : Half) : List Byte :=
  let a := s.arr.get h
  leBytes 2 a.worst ++ leBytes 2 (median2 a.boundSlow / 2) ++ leBytes 2 (a.setPoint h s.pwr.rateTarget) ++
    leBytes 2 (a.rateAt h 800 nominalTemp) ++ [byteOf (a.inState .reserve).length, byteOf (a.inState .failed).length] ++ zeros 6

/-- A Lantern entry of the margin summary: the worst laser's days are those of the line that reaches its ceiling first. -/
def State.marginLantern (s : State) (l : Nat) : List Byte :=
  let x := s.lan l
  let on := (List.range 18).filter fun i => (x.laser i).st == 1
  [byteOf ((on.map (s.biasPct l)).foldl max 0), 0] ++ leBytes 2 (codeOf 16 ((on.map fun i => (x.laser i).delta).foldl min 0)) ++
    leBytes 2 ((on.filterMap (s.laserDays l)).foldl min 0xFFFF) ++ [byteOf ([0, 1].filter fun i => (x.laser (16 + i)).st == 0).length,
      byteOf (16 - x.waves.length)] ++ leBytes 2 (tget 0 s.led.ringsAtRisk l) ++ leBytes 2 (tget 0 s.led.ceilings l) ++ zeros 4

/-- A bundle entry of the margin summary; the lowest hourly median of a bundle of which the ledger has none yet is a free value
(row 3). -/
def State.marginBundle (s : State) (b free : Nat) : List Byte :=
  let x := s.bundle b
  let medians := (x.withRole .service).filterMap fun i => s.led.laneMedian (128 * b + i)
  leBytes 1 (if medians.isEmpty then (Config.freeValue free).toNat else medians.foldl min 255) ++
    [byteOf ((x.withRole .service).filter fun i => decide ((x.lane i).fom < 64)).length, byteOf (x.withRole .spare).length, 0]

/-- The 256-byte margin summary (Table 17-8). -/
def State.marginSummary (s : State) : List Byte :=
  [1, byteOf s.led.st, 0, 0] ++ leBytes 4 s.led.hours ++ leBytes 4 s.led.log.length ++ zeros 20 ++
    allHalves.flatMap s.marginArray ++ allLans.flatMap s.marginLantern ++
    (List.range 16).flatMap fun b => s.marginBundle b (s.free + b)

/-- MARGIN_REPORT's effect (R286). -/
def State.marginReport (s : State) (a : Acc) : State :=
  let worst := max ((s.arr.west.sent.map (·.2)).foldl max 0) ((s.arr.east.sent.map (·.2)).foldl max 0)
  if a.par 24 4 < 256 then s.reply a stBadParam 0 256 0
  else ({ s.dma a (a.par 16 8) s.marginSummary with free := s.free + 16 } : State).reply a stOK 256 worst 0

/-- MARGIN_REPORT (R286). -/
def execMarginReport (t id : Nat) (s : State) : Host.Outcome State Fault Refusal := s.actOn t id 0x0720 fun a s => s.marginReport a

/-! ### Lanes (R292, R293) -/

/-- LANE_BITSLIP (R292, R304): a slip of N bits adds N to the position modulo 64. -/
def execLaneBitslip (t id : Nat) (s : State) : Host.Outcome State Fault Refusal :=
  s.act t id 0x0A10 fun a s =>
    let b := a.par 16 1
    let i := a.par 17 1
    let s := if a.par 18 1 = 1 then s.modBundle b fun x => x.modLane i fun y => { y with slip := (y.slip + a.par 19 1) % 64 } else s
    s.reply a stOK ((s.bundle b).lane i).slip 0 0

/-- LANE_FOM_READ (R293). -/
def execLaneFomRead (t id : Nat) (s : State) : Host.Outcome State Fault Refusal :=
  s.actOn t id 0x0A20 fun a s =>
    let w := s.fomWords (a.par 16 1) (a.par 17 1)
    s.reply a stOK w.1 w.2.1 w.2.2

end Sys2Proof.Machine
end

