-- ==== Sys2Proof/Machine/Partition.lean ====
section
/-! DEFINITION. Partition resets, the steward role, generation offers, and the events of a host port (chapter 10, R190). -/

namespace Sys2Proof.Machine

/-! ### Resetting one partition (R234-R236, R407) -/

/-- Opcodes whose action is on the whole device: a steward's, completed though its partition resets (Table 10-16). -/
def deviceWide (op : Nat) : Bool :=
  [0x0110, 0x0501, 0x0510, 0x0610, 0x0620, 0x0630, 0x0701, 0x0A10, 0x0A20, 0x0A30].contains op

/-- A command of a partition that has reset: it gets no reply and no DMA. -/
def Acc.kill (a : Acc) (p : Fin 4) : Acc := if a.part = p then { a with dead := true } else a

/-- A step of a partition that has reset. -/
def StepReq.kill (q : StepReq) (p : Fin 4) : StepReq := { q with acc := q.acc.kill p }

/-- The run in the arrays, its commands marked. -/
def Run.kill (r : Run) (p : Fin 4) : Run :=
  { r with acc := r.acc.map fun (a : Acc) => a.kill p, members := r.members.map fun (m : Member) => { m with req := m.req.kill p } }

/-- Step 2: what Gallery has accepted and not started is discarded; Keep's commands and device-wide actions go on without a
reply. -/
def State.killCommands (s : State) (p : Fin 4) : State :=
  let s := { s with gal := { s.gal with
    accepted := (s.gal.accepted.filter fun (a : Acc) => decide (a.part ≠ p) || deviceWide a.opcode).map fun (a : Acc) => a.kill p,
    keepQ := s.gal.keepQ.map fun (a : Acc) => a.kill p,
    waiters := (s.gal.waiters.filter fun (w : Waiter) => decide (w.acc.part ≠ p) || w.acc.keep || deviceWide w.acc.opcode).map
      fun (w : Waiter) => { w with acc := w.acc.kill p } } }
  let s := s.modEng fun e => { e with
    waiting := e.waiting.filter fun (q : RunReq) => decide (q.acc.part ≠ p), run := e.run.map fun (r : Run) => r.kill p }
  allSlots.foldl (fun s i => if (s.slot i).owner = some p then
    s.modSlot i fun x => { x with steps := x.steps.map fun (q : StepReq) => q.kill p } else s) s

/-- Step 3: a run of the partition in the arrays is abandoned. -/
def State.killRun (s : State) (p : Fin 4) : State := match s.eng.run with
  | none => s
  | some r => if r.part = p then s.abandonRun r stCancelled else s

/-- The ROLE_NOTICE of an ended generation (Table 16-1, R407). -/
def roleNotice (own dev part gen : Nat) : FMsg :=
  { type := 6, hops := 0, dstDev := dev, srcDev := own, dstPart := 0, srcPart := part, dstGen := 0, srcGen := gen, group := 0,
    epoch := 0, srcRank := 0, tag := 0, seq := 0, offset := 0, payload := [byteOf part, 0] ++ leBytes 2 gen, bad := [] }

/-- The devices named in a partition's group snapshots. -/
def State.partners (s : State) (p : Fin 4) : List Nat :=
  ((s.fab.groups.filter fun e => e.1 / 256 == p.val).flatMap fun e => e.2.members.map (·.1)).eraseDups

/-- The partition's fabric traffic discarded and its partners told of the old generation. -/
def State.killTraffic (s : State) (p : Fin 4) (gen : Nat) : State :=
  let devs := s.partners p
  let gone := (s.fab.pool.filter fun m => m.dstPart == p.val).length
  let s := (s.modFab fun x => { x with
    held := x.held.filter fun m => !(s.fab.devId == some m.srcDev && m.srcPart == p.val),
    pool := x.pool.filter fun m => m.dstPart != p.val,
    groups := tclear x.groups (256 * p.val) (256 * p.val + 256) }).countFab 3 gone
  let s := s.retryPool
  match s.fab.devId with
  | none => s
  | some own => devs.foldl (fun s d => s.route (roleNotice own d p.val gen)) s

/-- Step 5: slots FREE, lists discarded, the frame map emptied and its frames zeroed. -/
def State.freePartition (s : State) (p : Fin 4) : State :=
  let s := allSlots.foldl (fun s i => if (s.slot i).owner = some p then s.freeSlotOf p i else s) s
  let s := s.modEng fun e => { e with
    lists := tclear e.lists (listKey p 0) (listKey p 256), reports := tclear e.reports (listKey p 0) (listKey p 256) }
  s.unmapFrames p 0 (2 ^ 20)

/-- Step 5: the registers of the partition's own that return to their reset values; quotas survive (R236), and so does the
minute that GOARD_BURST waits, which is the host port's (R232). -/
def State.resetPartRegs (s : State) (p : Fin 4) : State :=
  ({ s with qps := tclear s.qps (16 * p.val) (16 * p.val + 16) } : State).modPart p fun x =>
    { Part.init with gen := nextGen x.gen, lastBurst := x.lastBurst, resetting := x.resetting, slotQuota := x.slotQuota, guarantee := x.guarantee, limit := x.limit }

/-- A reset of one partition (Table 10-16), up to step 6. -/
def State.partReset (s : State) (p : Fin 4) : State :=
  if (s.part p).resetting then s
  else
    let gen := (s.part p).gen.toNat
    let s := s.modPart p fun x => { x with resetting := true }
    let s := ((s.killCommands p).killRun p).freePartition p
    let s := { s with barHeld := s.barHeld.filter fun x => x.port ≠ p }
    ((s.killTraffic p gen).resetPartRegs p).oculusUpdate

/-- Step 6: the partition is back in service. -/
def State.partBack (s : State) (p : Fin 4) : State := s.modPart p fun x => { x with resetting := false }

/-- The function's configuration state: MSI-X, power management, data object exchange. -/
def State.resetFunction (s : State) (p : Fin 4) : State :=
  s.modPort p fun x => { Port.init with width := x.width, rate := x.rate, slow := x.slow }

/-- Whether the device runs its partitions: a start has completed (R491). -/
def State.running (s : State) : Bool := decide (s.start.phase = .running)

/-- FUNCTION_LEVEL_RESET (R234): the partition and the function's configuration state; a reset that waits for a link to
retrain stays in progress. -/
def execFunctionLevelReset (t : Nat) (port : Fin 4) (s : State) : Host.Outcome State Fault Refusal :=
  let s := s.atTime t
  let was := (s.part port).resetting
  let s := if s.running then s.partReset port else s
  let s := s.resetFunction port
  .next (if was then s else s.partBack port)

/-- The link of a host port goes down: the reset is in progress until it has retrained. -/
def State.hostLinkDown (s : State) (port : Fin 4) : State :=
  let s := if s.running then s.partReset port else s
  (s.modPort port fun _ => Port.init).oculusUpdate

/-- HOT_RESET or loss of the data link (R234). -/
def execHotReset (t : Nat) (port : Fin 4) (s : State) : Host.Outcome State Fault Refusal :=
  .next ((s.atTime t).hostLinkDown port)

/-- PERST_N_ASSERT (R234, R517). -/
def execPerstNAssert (t : Nat) (port : Fin 4) (s : State) : Host.Outcome State Fault Refusal :=
  .next ((s.atTime t).hostLinkDown port)

/-- HOST_LINK_UP (R222): below x4 or 32 GT/s (rate code 5 of Table 8-7) the port answers configuration requests only. -/
def execHostLinkUp (t : Nat) (port : Fin 4) (width rate : Nat) (s : State) : Host.Outcome State Fault Refusal :=
  let s := (s.atTime t).partBack port
  .next (if 4 ≤ width ∧ 5 ≤ rate then
    (s.modPort port fun x => { x with width := width, rate := rate, slow := false }).oculusUpdate
  else
    ((s.modPort port fun x => { x with width := 0, rate := 0, slow := true }).oculusUpdate).report (srcPort port) .contained 1
      (width % 32 + 2 ^ 8 * (rate % 8)))

/-- D3HOT_ENTRY (R223): queue fetching and interrupts stop. -/
def execD3hotEntry (t : Nat) (port : Fin 4) (s : State) : Host.Outcome State Fault Refusal :=
  .next ((s.atTime t).cfgRequest port fun s => s.modPort port fun x => { x with d3 := true })

/-- D3HOT_EXIT (R223). -/
def execD3hotExit (t : Nat) (port : Fin 4) (s : State) : Host.Outcome State Fault Refusal :=
  .next ((s.atTime t).cfgRequest port fun s => s.modPort port fun x => { x with d3 := false })

/-! ### Who may write (R206, R230) -/

/-- Whether writes of a writer reach the registers at all: a host's only through an endpoint whose BAR0 is open (R222, R235,
R491). -/
def State.writerOpen (s : State) (w : Writer) : Bool := match w with
  | .host p => s.pagesOpen p
  | _ => s.running

/-- Whether a writer may change device-wide state. -/
def State.stewardWriter (s : State) (w : Writer) : Bool := match w with
  | .host p => s.isSteward p
  | _ => true

/-- A write dropped under R206 or R230: counted against the host that made it (R232). -/
def State.dropWrite (s : State) (w : Writer) : State := match w with
  | .host p => s.goard p false
  | _ => s

/-- HST_PART_RESET written (Table 10-13): by the partition itself, the steward or the BMC, with the key. -/
def State.writePartReset (s : State) (w : Writer) (p : Fin 4) (v : Nat) : State :=
  let may : Bool := match w with
    | .host q => decide (q = p) || s.isSteward q
    | .bmc => true
    | _ => false
  if !s.writerOpen w then s
  else if !may then s.dropWrite w
  else if bitsOf v 31 16 ≠ 0x5245 then s.badValue 0
  else if (s.part p).resetting then s
  else (s.partReset p).partBack p

/-- HST_PART_RESET (R234). -/
def execHstPartReset (t : Nat) (w : Writer) (partition : Fin 4) (value : Word) (s : State) : Host.Outcome State Fault Refusal :=
  .next ((s.atTime t).writePartReset w partition value.toNat)

/-- The steward role moved (R229): both partitions' generations rise, one Oculus update. -/
def State.moveSteward (s : State) (q : Fin 4) : State :=
  let old := s.drm.steward
  if old = q then s
  else
    let bump (s : State) (p : Fin 4) : State := s.modPart p fun x => { x with gen := nextGen x.gen }
    (bump (bump { s with drm := { s.drm with steward := q } } old) q).oculusUpdate

/-- DRM_STEWARD written: by the steward or the BMC alone. -/
def State.writeSteward (s : State) (w : Writer) (v : Nat) : State :=
  let may : Bool := match w with
    | .host q => s.isSteward q
    | .bmc => true
    | _ => false
  if !s.writerOpen w then s
  else if !may then s.dropWrite w
  else s.moveSteward (Fin.ofNat 4 v)

/-- DRM_STEWARD (R229). -/
def execDrmSteward (t : Nat) (w : Writer) (value : Word) (s : State) : Host.Outcome State Fault Refusal :=
  .next ((s.atTime t).writeSteward w value.toNat)

/-! ### Generation negotiation (R190) -/

/-- LOCK_VIOLATION set in a domain's status. -/
def State.lockStatus (s : State) (d : Nat) : State := s.modDom d fun x => { x with lockViol := true }

/-- OCU_GEN_OFFER written: the first write locks it; another is a violation against the endpoint's host port. -/
def State.writeOffer (s : State) (p : Fin 4) (v : Nat) : State :=
  if !s.pagesOpen p then s
  else match (s.part p).offer with
    | none => s.modPart p fun x => { x with offer := some (v % 256) }
    | some _ => (s.lockStatus 0).report (srcPort p) .contained 3 0

/-- OCU_GEN_OFFER (R190). -/
def execOcuGenOffer (t : Nat) (port : Fin 4) (value : Word) (s : State) : Host.Outcome State Fault Refusal :=
  .next ((s.atTime t).writeOffer port value.toNat)

end Sys2Proof.Machine
end

