-- ==== Sys2Proof/Machine/Belfry.lean ====
section
/-! DEFINITION. The Belfry at work: its window, escalation, the log's places, notification, the reactions to fatal messages,
the register path, FAULT_INJECT (R444-R451, R453, R455, R459, R294). -/

namespace Sys2Proof.Machine

/-! ### Reactions (R444, Table 18-4) -/

/-- The half that a fatal message of a source takes out. -/
def fatalHalf (src : Nat) : Option Half :=
  if 0x040 ≤ src ∧ src < 0x046 then some (halfOf (src % 2))
  else if isStack src then some (halfOf ((src - 0x060) / 16))
  else if src = 0x022 ∨ src = 0x023 then some (halfOf (src - 0x022))
  else if src = 0x0B0 ∨ src = 0x0B1 then some (halfOf (src - 0x0B0))
  else if 0x0C0 ≤ src ∧ src < 0x0C8 then some (halfOf (src % 2))
  else none

/-- The Lanterns that a fatal message of a source fences. -/
def fatalLans (src : Nat) : List Nat :=
  if isLantern src then [src - 0x0A0]
  else if 0x024 ≤ src ∧ src < 0x02C then [src - 0x024]
  else if 0x0B3 ≤ src ∧ src < 0x0BB then [src - 0x0B3]
  else if 0x0C9 ≤ src ∧ src < 0x0CD then lansOf (halfOf ((src - 0x0C9) % 2))
  else []

/-- A hard trip's message of a Spire (R430). -/
def Msg.isTrip (m : Msg) : Bool := (m.src == 0x0B0 || m.src == 0x0B1) && m.kind == 5

/-- Whether the fence of a bundle would, by R311, take out a half that is the last one. -/
def State.fenceEnds (s : State) (b : Nat) : Bool :=
  (s.bundle b).st != 2 &&
    ((s.cutOff (some b) .west && decide (s.arr.west.half ≠ .lost) && decide (s.arr.east.half = .lost)) ||
      (s.cutOff (some b) .east && decide (s.arr.east.half ≠ .lost) && decide (s.arr.west.half = .lost)))

/-- Whether a fatal message's reaction is, or ends in, the safe state (R294, Table 18-4). -/
def State.endsSafe (s : State) (m : Msg) : Bool :=
  if m.isTrip then true
  else match fatalHalf m.src with
    | some h => decide ((s.arr.get (other h)).half = .lost)
    | none =>
      (decide (0x080 ≤ m.src) && decide (m.src < 0x090) && s.fenceEnds (m.src - 0x080)) ||
      decide (m.src ≤ 8) || m.src == 0x020 || m.src == 0x021 || m.src == 0x0B2 || m.src == 0x0C8 || m.src == 0x0CD

/-- The reaction to a fatal message; a hard trip's is that of R430, an injected one's too (R294). -/
def State.react (s : State) (m : Msg) (safe : Bool) : State :=
  if s.endsSafe m then
    if !safe then s
    else if m.isTrip then s.tripOff (m.src - 0x0B0)
    else if 0x080 ≤ m.src ∧ m.src < 0x090 then s.fenceBundle (m.src - 0x080) (s.bundle (m.src - 0x080)).width
    else s.safeState (m.src == 0x001 || m.src == 0x003)
  else match fatalHalf m.src with
    | some h => s.loseHalf h m.src
    | none =>
      if 0x080 ≤ m.src ∧ m.src < 0x090 then s.fenceBundle (m.src - 0x080) (s.bundle (m.src - 0x080)).width
      else if 0x100 ≤ m.src ∧ m.src < 0x180 then s.portDown ((m.src - 0x100) / 16) (m.src % 16)
      else if 0x010 ≤ m.src ∧ m.src < 0x014 then
        let p : Fin 4 := Fin.ofNat 4 (m.src - 0x010)
        if (s.part p).resetting || !s.running then s else (s.partReset p).partBack p
      else (fatalLans m.src).foldl (fun s l => s.fenceLantern l m.kind) s

/-! ### The log (R445, R446, R451, R453) -/

/-- A message raised by one class. -/
def FClass.raised : FClass → FClass
  | .corrected => .contained
  | _ => .fatal

/-- An unacknowledged entry of the same class and source, of a kind that is not exempt (R445). -/
def State.escalates (s : State) (m : Msg) : Bool :=
  !m.exempt && s.bel.log.any fun e => !e.acked && decide (e.msg.cls = m.cls) && e.msg.src == m.src && !e.msg.exempt

/-- The message as it would be logged. -/
def State.formed (s : State) (m : Msg) : Msg := if s.escalates m then { m with cls := m.cls.raised } else m

/-- The entry that a message only repeats (R446). -/
def State.repeated (s : State) (m : Msg) : Option LogEntry :=
  s.bel.log.find? fun e => decide (e.msg = m) && ((e.acked && !e.cleared) || (!e.acked && decide (e.msg.cls = .fatal)))

/-- The first entry for which a test holds taken out; none when there is none. -/
def dropFirst (f : LogEntry → Bool) : List LogEntry → Option (List LogEntry)
  | [] => none
  | e :: r => if f e then some r else (dropFirst f r).map (e :: ·)

/-- The log with a place for a new entry: the oldest cleared entry's, else the oldest corrected one's (R451). -/
def makeRoom (l : List LogEntry) : Option (List LogEntry) :=
  if l.length < logSize then some l
  else match dropFirst (·.cleared) l with
    | some r => some r
    | none => dropFirst (fun e => decide (e.msg.cls = .corrected)) l

/-- A new entry at the end of a log that has room. -/
def Belfry.append (b : Belfry) (l : List LogEntry) (m : Msg) (stamp : Nat) (injected : Bool) : Belfry :=
  { b with log := l ++ [⟨b.next, m, stamp, false, false, injected, 0⟩], next := b.next + 1 }

/-- Vector 16 of each partition that an entry is attributed to, once until it reads the log (R453). -/
def State.notify (s : State) (m : Msg) : State :=
  allParts.foldl (fun s p => if s.attributed p m && (s.part p).faultIrq
    then (s.modPart p fun x => { x with faultIrq := false }).msi p 16 else s) s

/-- A message raised by escalation is counted (Table 18-10); one that is fatal already is not raised. -/
def State.countRaise (s : State) (m : Msg) : State :=
  if s.escalates m && decide (m.cls ≠ .fatal) then s.modBel fun b => { b with escalated := b.escalated + 1 } else s

/-- A message identical to an entry counted there (R446). -/
def State.repeatEntry (s : State) (e : LogEntry) : State :=
  s.modEntry e.index fun x => { x with repeats := satTo 0x7FFFFFFF (x.repeats + 1) }

/-- LOG_FULL (R451): logged in the place of the oldest uncleared contained entry, formed as any other message (R445, R446), and
its reaction taken. With fatal entries only it is not logged. -/
def State.logFullNow (s : State) (react : Bool) : State :=
  match dropFirst (fun e => decide (e.msg.cls = .contained)) s.bel.log with
  | none => s
  | some l =>
    let base : Msg := ⟨0x000, .contained, 2, s.bel.notLogged % 2 ^ 32⟩
    let full := s.formed base
    let s := match s.repeated full with
      | some e => s.repeatEntry e
      | none => ((s.countRaise base).modBel fun b => b.append l full s.now false).notify full
    if react && decide (full.cls = .fatal) then s.react full true else s

/-- A message placed in the log; with no place it is counted, and LOG_FULL is logged once per episode (R451). -/
def State.putEntry (s : State) (m : Msg) (stamp : Nat) (injected react : Bool) : State :=
  match makeRoom s.bel.log with
  | some l => (s.modBel fun b => { b.append l m stamp injected with fullEpisode := false }).notify m
  | none =>
    let s := s.modBel fun b => { b with notLogged := b.notLogged + 1 }
    if s.bel.fullEpisode then s else (s.modBel fun b => { b with fullEpisode := true }).logFullNow react

/-- A bundle that an injected message has fenced stays so until the next cold start (R459). -/
def State.noteInjected (s was : State) (src : Nat) : State :=
  let b := src - 0x080
  if 0x080 ≤ src ∧ src < 0x090 ∧ (was.bundle b).st ≠ 2 ∧ (s.bundle b).st = 2 then
    s.modBundle b fun x => { x with injected := true }
  else s

/-- A message logged: formed, compared with the log, placed, and its reaction taken. `react` is false when a device reset
supersedes the reactions (R448). -/
def State.logOne (s : State) (h : Held) (react : Bool) : State :=
  let m := s.formed h.msg
  let s := match s.repeated m with
    | some e => s.repeatEntry e
    | none => (s.countRaise h.msg).putEntry m h.stamp h.injected react
  if react && decide (m.cls = .fatal) then
    let t := s.react m h.act
    if h.injected then t.noteInjected s m.src else t
  else s

/-- The messages whose window has closed are logged, in the window's order (R448). -/
def State.logDue (s : State) : State :=
  let due := s.bel.waiting.filter fun h => decide (h.stamp + 50000 ≤ s.now)
  let s := s.modBel fun b => { b with waiting := b.waiting.filter fun h => !decide (h.stamp + 50000 ≤ s.now) }
  due.foldl (fun s h => s.logOne h true) s

/-- BELFRY_LOG (R448): the window of 50 µs closes. -/
def execBelfryLog (t : Nat) (s : State) : Host.Outcome State Fault Refusal := .next (s.atTime t).logDue

/-- The window emptied as a device reset begins: everything is logged, no reaction is taken (R448). -/
def State.flushBelfry (s : State) : State :=
  let due := s.bel.waiting
  due.foldl (fun s h => s.logOne h false) (s.modBel fun b => { b with waiting := [] })

/-- BELFRY_PARITY (R446, R447): logged without escalation and without the window, or counted where it only repeats an entry; the
safe state at once. -/
def State.belfryParity (s : State) (location : Nat) : State :=
  let m : Msg := ⟨0x000, .fatal, 1, location % 2 ^ 16⟩
  let s := match s.repeated m with
    | some e => s.repeatEntry e
    | none => s.putEntry m s.now false false
  s.safeState false

/-- BELFRY_PARITY (R447). -/
def execBelfryParity (t : Nat) (location : BitVec 16) (s : State) : Host.Outcome State Fault Refusal :=
  .next ((s.atTime t).belfryParity location.toNat)

/-- A message of a die arrives with its own stamp: an unsynchronised die's stamp gives way to the arrival's (R450); one more
than 50 µs old is logged at once (R448). -/
def State.arrive (s : State) (m : Msg) (stamp : Nat) : State :=
  let unsync : Bool := match halfOfSource m.src with
    | none => false
    | some h => (s.arr.get h).unsync
  let own := if unsync then some stamp else none
  let stamp := if unsync then s.now else stamp
  let s := s.noteUnsync m.src
  let h : Held := ⟨m, stamp, false, true, own⟩
  if m.src = 0x000 ∧ m.kind = 1 then s.belfryParity m.addr
  else if stamp + 50000 < s.now then s.logOne h true
  else s.modBel fun b => { b with waiting := insertHeld h b.waiting }

/-- BELFRY_MESSAGE_ARRIVAL (R439, R448-R450); bits that spell no message that is ever issued are none. -/
def execBelfryMessageArrival (t : Nat) (msg : BitVec 64) (stamp : Nat) (s : State) : Host.Outcome State Fault Refusal :=
  let s := s.atTime t
  .next (match Msg.sent msg.toNat with
    | none => s
    | some m => s.arrive m stamp)

/-- FAULT_INJECT's effect (R294, R459): the message waits in the window, stamped with the time at which the command was
accepted. -/
def State.inject (s : State) (a : Acc) : State :=
  match Msg.ofCode (a.par 16 8) with
  | none => s.reply a stBadParam (10 + 16 * 2 ^ 16) 0 0
  | some m =>
    (s.modBel fun b => { b with waiting := insertHeld ⟨m, a.mark, true, bitOf (a.par 40 1) 0, none⟩ b.waiting }).reply a stOK 0 0 0

/-- FAULT_INJECT (R294). -/
def execFaultInject (t id : Nat) (s : State) : Host.Outcome State Fault Refusal := s.actOn t id 0x0A30 fun a s => s.inject a

/-! ### The register path (Table 18-9, R455) -/

/-- UNACKED written with 1. -/
def State.regAck (s : State) : State := if (s.entryAt s.bel.sel).isSome then s.ackEntry s.bel.sel else s

/-- UNCLEARED written with 1: nothing while the cause persists. -/
def State.regClear (s : State) : State := match s.entryAt s.bel.sel with
  | none => s
  | some e => if s.persists e then s else s.clearEntry s.bel.sel

/-- A write of FLT_ENTRY by its two W1C bits; another window than the steward's reaches nothing of it (R460). -/
def State.writeFltEntry (s : State) (w : Writer) (v : Nat) : State :=
  if !s.writerOpen w then s
  else if !s.stewardWriter w then s.dropWrite w
  else
    let s := if bitOf v 0 then s.regAck else s
    if bitOf v 1 then s.regClear else s

/-- FLT_ENTRY_ACK (R455). -/
def execFltEntryAck (t : Nat) (w : Writer) (s : State) : Host.Outcome State Fault Refusal :=
  .next ((s.atTime t).writeFltEntry w 1)

/-- FLT_ENTRY_CLEAR (R455). -/
def execFltEntryClear (t : Nat) (w : Writer) (s : State) : Host.Outcome State Fault Refusal :=
  .next ((s.atTime t).writeFltEntry w 2)

end Sys2Proof.Machine
end

