-- ==== Sys2Proof/Machine/Balls.lean ====
section
/-! DEFINITION. The ball grid: what stands at each position, the low-speed signals and the scanned balls (R319, R505-R508,
R521, Tables 21-1 to 21-3, 21-8). -/

namespace Sys2Proof.Machine

/-- A position of the grid: row from the north edge, column from the west edge, both from 1 (R505). -/
abbrev BallPos := Nat × Nat

/-- The class of a signal (Table 21-3). -/
inductive SignalClass where
  | hcsl | c18 | t33 | od | smb | i3c
deriving DecidableEq, Repr

/-- Which way a signal goes. -/
inductive Direction where
  | input | output | both
deriving DecidableEq, Repr

/-- What the package pulls a ball to, if anything (R507). -/
inductive Pull where
  | none | up | down
deriving DecidableEq, Repr

/-- A row of Table 21-2, or a shell line of Table 21-8. -/
structure Signal where
  pos : BallPos
  name : String
  dir : Direction
  cls : SignalClass
  scanned : Bool
  pull : Pull
deriving DecidableEq, Repr

/-- The control, clock, status, management, flash and test signals (Table 21-2). -/
def controlSignals : List Signal :=
  [⟨(84, 60), "REFCLK_100_P", .input, .hcsl, false, .none⟩, ⟨(84, 61), "REFCLK_100_N", .input, .hcsl, false, .none⟩,
    ⟨(84, 63), "TBREF_25", .input, .c18, false, .down⟩, ⟨(84, 65), "PKG_RESET_N", .input, .t33, true, .up⟩,
    ⟨(84, 66), "PWR_GOOD", .input, .t33, true, .down⟩, ⟨(84, 68), "FAULT_N", .output, .od, true, .none⟩,
    ⟨(84, 69), "THERM_N", .output, .od, true, .none⟩, ⟨(84, 70), "ALERT_N", .output, .od, true, .none⟩] ++
  [⟨(85, 60), "SMB_SCL", .input, .smb, true, .none⟩, ⟨(85, 61), "SMB_SDA", .both, .smb, true, .none⟩,
    ⟨(85, 63), "I3C_SCL", .input, .i3c, true, .none⟩, ⟨(85, 64), "I3C_SDA", .both, .i3c, true, .none⟩,
    ⟨(85, 66), "MGMT_ADDR0", .input, .c18, true, .up⟩, ⟨(85, 67), "MGMT_ADDR1", .input, .c18, true, .up⟩,
    ⟨(85, 68), "MGMT_ADDR2", .input, .c18, true, .up⟩] ++
  [⟨(86, 60), "SPI_CLK", .output, .c18, true, .none⟩, ⟨(86, 61), "SPI_CS_N", .output, .c18, true, .up⟩,
    ⟨(86, 63), "SPI_IO0", .both, .c18, true, .up⟩, ⟨(86, 64), "SPI_IO1", .both, .c18, true, .up⟩,
    ⟨(86, 65), "SPI_IO2", .both, .c18, true, .up⟩, ⟨(86, 66), "SPI_IO3", .both, .c18, true, .up⟩,
    ⟨(86, 68), "TCK", .input, .c18, false, .down⟩, ⟨(86, 69), "TMS", .input, .c18, false, .up⟩,
    ⟨(86, 70), "TDI", .input, .c18, false, .up⟩, ⟨(86, 71), "TDO", .output, .c18, false, .none⟩,
    ⟨(86, 72), "TRST_N", .input, .c18, false, .down⟩]

/-- The column of a Lantern's shell lines: the west side's four, then the east side's (R521). -/
def shellColumn (l : Nat) : Nat := if l < 4 then 8 else 127

/-- The three lines of a Lantern's shell (R521, Table 21-8). -/
def shellSignals (l : Nat) : List Signal :=
  let r := 14 + 24 * (l % 4)
  [⟨(r, shellColumn l), "FIBRE_PRESENT_N", .output, .od, true, .none⟩,
    ⟨(r + 1, shellColumn l), "SVC_REQ_N", .input, .t33, true, .up⟩,
    ⟨(r + 2, shellColumn l), "SVC_LED", .output, .od, true, .none⟩]

/-- PERST_N of a host port (R508). -/
def perstSignal (n : Nat) : Signal := ⟨(101, 41 + 14 * n), "PERST_N", .input, .t33, true, .down⟩

/-- Every low-speed signal of the package. -/
def packageSignals : List Signal :=
  controlSignals ++ (List.range 4).map perstSignal ++ (List.range 8).flatMap shellSignals

/-- The cells of the boundary-scan register in order: a ball each, by ascending row and then ascending column (R319, R508). -/
def boundaryCells : List BallPos :=
  ((packageSignals.filter (·.scanned)).map (·.pos)).foldl (fun l b => insertById (fun x => 256 * x.1 + x.2) b l) []

/-- The wires of a host lane. -/
inductive LaneWire where
  | petP | petN | perP | perN
deriving DecidableEq, Repr

/-- The ball of a wire of lane `l` of host port `n` (R508). -/
def laneBall (n l : Nat) : LaneWire → BallPos
  | .petP => (90 + l % 8, 41 + 14 * n + 6 * (l / 8))
  | .petN => (90 + l % 8, 42 + 14 * n + 6 * (l / 8))
  | .perP => (90 + l % 8, 44 + 14 * n + 6 * (l / 8))
  | .perN => (90 + l % 8, 45 + 14 * n + 6 * (l / 8))

/-- What stands at a position of the grid. -/
inductive Ball where
  | outside
  | keepOut
  | vinMain
  | vinAux
  | lane (port lane : Nat) (wire : LaneWire)
  | refClk (port : Nat) (positive : Bool)
  | signal (x : Signal)
  | gnd
deriving DecidableEq, Repr

/-- A position in a shell keep-out, which has no ball (R505). -/
def inKeepOut (r c : Nat) : Bool :=
  (decide (c ≤ 6) || decide (129 ≤ c)) && (List.range 4).any fun k => decide (8 + 24 * k ≤ r) && decide (r ≤ 20 + 24 * k)

/-- The wire of a host lane at a position, if one stands there. -/
def laneAt (r c : Nat) : Option (Nat × Nat × LaneWire) :=
  let d := (c - 41) % 14
  let l := (r - 90) + 8 * (d / 6)
  if r < 90 ∨ 97 < r ∨ c < 41 ∨ 96 < c ∨ 12 ≤ d then none
  else match d % 6 with
    | 0 => some ((c - 41) / 14, l, .petP)
    | 1 => some ((c - 41) / 14, l, .petN)
    | 3 => some ((c - 41) / 14, l, .perP)
    | 4 => some ((c - 41) / 14, l, .perN)
    | _ => none

/-- The reference clock ball of a host port at a position (R508). -/
def refClkAt (r c : Nat) : Option (Nat × Bool) :=
  if r = 99 ∧ 41 ≤ c ∧ c < 97 ∧ (c - 41) % 14 < 2 then some ((c - 41) / 14, decide ((c - 41) % 14 = 0)) else none

/-- The ball at a position (Table 21-1): every one that no table assigns is GND. -/
def ballAt (r c : Nat) : Ball :=
  if r = 0 ∨ 104 < r ∨ c = 0 ∨ 134 < c then .outside
  else if inKeepOut r c then .keepOut
  else if 20 ≤ r ∧ r ≤ 82 ∧ 22 ≤ c ∧ c ≤ 113 then (if (r + c) % 4 = 0 then .vinMain else .gnd)
  else if 103 ≤ r ∧ 60 ≤ c ∧ c ≤ 91 then .vinAux
  else match laneAt r c, refClkAt r c, packageSignals.find? fun x => x.pos == (r, c) with
    | some (n, l, w), _, _ => .lane n l w
    | _, some (n, p), _ => .refClk n p
    | _, _, some x => .signal x
    | _, _, none => .gnd

end Sys2Proof.Machine
end

