-- ==== Sys2Proof/Machine/Images.lean ====
section
/-! DEFINITION. Keep's fuses, the Gallery slots and their images (R463, R465-R469). -/

namespace Sys2Proof.Machine

/-- A SHA-384 digest. -/
def digest (l : List Byte) : List Byte := (List.range 48).map (Config.sha384 l)

/-- A fused key hash (R463). -/
def fusedHash (n : Nat) : List Byte := (List.range 48).map (Config.keyHash n)

/-- The key hashes that have a REVOKED fuse (Table 19-2). -/
def revocable : List Nat := [0, 1, 2, 4, 5]

/-- Whether a key hash's REVOKED fuse is blown. -/
def keyRevoked (n : Nat) : Bool := revocable.contains n && Config.keyRevoked n

/-- Whether a public key is the one of an unrevoked fuse. -/
def keyIs (key : List Byte) (n : Nat) : Bool := !keyRevoked n && digest key == fusedHash n

/-- IDENTITY_SEED as it reads (R463): every fuse of it is blown by a termination (R475). -/
def Security.identitySeed (x : Security) : List Byte :=
  (List.range 48).map fun i => if x.terminated then 0xFF else Config.identitySeed i

/-! ### Gallery slots -/

/-- A byte of the flash; an erased byte reads all ones. -/
def Security.byteAt (x : Security) (a : Nat) : Byte := tget 0xFF x.flash a

/-- Bytes of a Gallery slot. -/
def Security.slotBytes (x : Security) (slot off n : Nat) : List Byte :=
  (List.range n).map fun i => x.byteAt (slot * 2 ^ 23 + off + i)

/-- Whether an update has written in a slot, or a termination has erased it: what an external programmer put there is not a
command's doing. -/
def Security.known (x : Security) (slot : Nat) : Bool := x.touched.contains slot

/-- A slot known to hold no image (R469): nothing in it begins with a header's MAGIC. -/
def Security.empty (x : Security) (slot : Nat) : Bool := x.known slot && x.slotBytes slot 0 4 != [0x47, 0x4C, 0x52, 0x59]

/-- The SVN of a slot's image; a free value where no update wrote it (row 3). -/
def State.slotSvn (s : State) (slot : Nat) : Nat :=
  if s.sec.known slot then le (s.sec.slotBytes slot 8 4) 0 4 % 64 else (Config.freeValue (s.free + slot)).toNat % 64

/-- SVN_COMMIT of a slot's image; a free value where no update wrote it (row 3). -/
def State.svnCommits (s : State) (slot : Nat) : Bool :=
  if s.sec.known slot then bitOf (le (s.sec.slotBytes slot 6 1) 0 1) 0 else Config.freeBool (s.free + slot)

/-! ### Images (R465, R466) -/

/-- A component entry of an image header: offset, length, ID, digest. -/
def component (h : List Byte) (i : Nat) : Nat × Nat × Nat × List Byte :=
  (le h (64 + 64 * i) 4, le h (68 + 64 * i) 4, le h (72 + 64 * i) 1, slice h (80 + 64 * i) 48)

/-- The reserved bytes of the component entries that an image uses are zero. -/
def entriesClear (h : List Byte) : Bool := (List.range (min 8 (le h 24 1))).all fun i => allZero (slice h (73 + 64 * i) 7)

/-- The components of an image. -/
def components (h : List Byte) : List (Nat × Nat × Nat × List Byte) := (List.range (min 8 (le h 24 1))).map (component h)

/-- A header is well formed (Table 19-3) for an image of `len` bytes. -/
def imageForm (h : List Byte) (len : Nat) : Bool :=
  let type := le h 5 1
  let n := le h 24 1
  slice h 0 4 == [0x47, 0x4C, 0x52, 0x59] && le h 4 1 == 1 && decide (type ≤ 1) && decide (le h 6 1 ≤ 1) &&
    allZero (slice h 7 1) && decide (le h 8 4 ≤ 63) && le h 12 4 == len && decide (len ≤ 2 ^ 23) && allZero (slice h 25 39) &&
    allZero (slice h 673 95) && allZero (slice h 864 3232) &&
    (if type = 0 then decide (1 ≤ n) && decide (n ≤ 8) else n == 0 && decide (le h 16 8 ≠ 0)) &&
    entriesClear h && (components h).all fun c => decide (4096 ≤ c.1) && decide (c.1 + c.2.1 ≤ len) && decide (1 ≤ c.2.2.1) &&
      decide (c.2.2.1 ≤ 4)

/-- Whether Keep accepts the image in a slot (R466). -/
def State.imageGood (s : State) (slot len : Nat) : Bool :=
  let h := s.sec.slotBytes slot 0 4096
  let key := slice h 576 97
  let type := le h 5 1
  let serial := le h 16 8
  imageForm h len &&
    (if type = 0 then (List.range 3).any (keyIs key) || (decide (s.sec.st = .factory) && keyIs key 3)
      else keyIs key 6 && decide (s.sec.st = .locked)) &&
    Config.verifies key (slice h 0 768) (slice h 768 96) &&
    decide (s.sec.svnMin ≤ le h 8 4) && (serial == 0 || decide (serial = (s.dieFuses 2).serial.toNat)) &&
    ((components h).all fun c => digest (s.sec.slotBytes slot c.1 c.2.1) == c.2.2.2) &&
    (decide (type = 1) || [1, 2].all fun id => (components h).any fun c => c.2.2.1 == id)

/-- Whether Keep accepts a slot's image for a start (R466, R467): verified like an update where an update wrote it; an operand
where an external programmer did (row 36). -/
def State.startable (s : State) (slot : Nat) (found : Bool) : Bool :=
  if s.sec.known slot then
    le (s.sec.slotBytes slot 5 1) 0 1 == 0 && s.imageGood slot (le (s.sec.slotBytes slot 12 4) 0 4)
  else found

/-- The slot that a start tries first (R467, R468): the marked one, unless its image has been started twice and neither start has
completed. -/
def Security.firstSlot (x : Security) : Nat := if 2 ≤ tget 0 x.starts x.nextSlot then 1 - x.nextSlot else x.nextSlot

/-- A slot's image is started: its cores are released (Table 19-4, step 6) with its code region locked (R462). -/
def Security.release (x : Security) (slot : Nat) : Security :=
  { x with codeLocked := true, starts := tmod 0 x.starts slot (· + 1) }

end Sys2Proof.Machine
end

