-- ==== Sys2Proof/Machine/Starts.lean ====
section
/-! DEFINITION. Device resets, starts, failed starts, power-on and Off (R484-R494, R512-R516). -/

namespace Sys2Proof.Machine

/-! ### Device resets -/

/-- The security state that a part takes at a device reset (Table 19-9). -/
def Security.atReset (x : Security) : SecState :=
  if x.terminated then .terminated else if x.production then .locked else .factory

/-- Keep's state across a device reset: fuses, flash, start counts and marks stay; challenge, session, keys and locks go. -/
def Security.reset (x : Security) : Security :=
  { x with
    st := x.atReset, challenge := none, session := none, keysPresent := false, chainServed := false,
    codeLocked := false, rollback := false, commitPending := false }

/-- A marked termination token takes effect (R475): TERMINATED and the identity seed are blown, the token's slot is erased,
and the other slot is marked. -/
def Security.terminate (x : Security) : Security :=
  if !x.terminatePending then x
  else { x with
    terminated := true, terminatePending := false, nextSlot := 1 - x.nextSlot,
    flash := tclear x.flash (x.nextSlot * 2 ^ 23) (x.nextSlot * 2 ^ 23 + 2 ^ 23), starts := tset 0 x.starts x.nextSlot 0,
    touched := x.nextSlot :: x.touched.filter fun n => n != x.nextSlot }

/-- What is left of a Lantern's own life: lasers that failed or stand in, retired wavelengths, whether its shell is closed
(R348, R374). -/
def Lantern.carried (x : Lantern) : Lantern :=
  { Lantern.init with
    present := x.present, shell := if x.present then 0 else if x.shell = 0 then 0 else 1, source := x.source,
    lasers := (List.range 18).foldl (fun t i =>
      if (x.laser i).st = 4 then tset Laser.init t i { Laser.init with st := 4 } else t) [] }

/-- A bundle's fused lanes. -/
def Bundle.carried (x : Bundle) : Bundle :=
  { Bundle.init with lanes := (x.lanes.filter fun e => e.2.role == .fused).map fun e => (e.1, { Lane.init with role := .fused }) }

/-- Whether the start in progress is a warm one by the start record (Table 20-1). -/
def State.warmDue (s : State) : Bool :=
  decide (s.led.st = 1) && s.start.stored.valid && !(decide (2 ≤ s.start.failedWarm) || s.start.coldRequested ||
    s.start.wasLost || decide (4 ≤ s.start.failedRun))

/-- The start record and settings as the next start will find them (R485, R493): the failed starts before it, whether a
half was lost. A start cut short has left its mark or not, which the manual leaves open (a free value, row 3). -/
def State.startRecord (s : State) (cause : Nat) (phase : Phase) : Start :=
  let st := s.start
  let failed : Bool := if st.phase = .running then false else st.markSet || (!st.safe && Config.freeBool s.free)
  let run := if st.phase = .running then 0 else if failed then min 4 (st.failedRun + 1) else st.failedRun
  let wasWarm := if st.markSet then st.lastWarm else s.warmDue
  let warm := if st.phase = .running then 0
    else if failed then (if wasWarm then min 2 (st.failedWarm + 1) else 0) else st.failedWarm
  { State.reset.start with
    phase := phase, cause := cause, failedRun := run, failedWarm := warm, coldRequested := st.coldRequested,
    wasLost := st.singleHalf || decide (s.arr.west.half = .lost) || decide (s.arr.east.half = .lost), startedAt := s.now,
    lastWarm := st.lastWarm, flashSteward := st.flashSteward, flashSubsystem := st.flashSubsystem,
    stored := if s.sec.terminatePending then Stored.absent else st.stored }

/-- The test access port across a device reset: it is not part of the reset, but DIE_SELECT acts as BYPASS outside its
states (R318, R520). -/
def Jtag.afterReset (x : Jtag) (st : SecState) : Jtag :=
  if x.instr = 0x20 ∧ st ≠ .factory then { x with instr := 0xFF, path := false } else x

/-- Keep's state at a device reset: a start cut short before its command came has released its cores or not, which the manual
leaves open (a free value, row 3). -/
def State.cutShort (s : State) : Security :=
  if s.start.phase = .starting ∧ s.start.safe = false ∧ s.sec.codeLocked = false ∧ Config.freeBool (s.free + 1) = true then
    s.sec.release s.sec.firstSlot
  else s.sec

/-- A device reset (R484, R486, R490): messages still in the Belfry's window are logged; every register returns to its
reset value and a start follows. What is kept: the time base, the Belfry log, the power cap, fuses and flash, the
generations, and what the world outside holds. -/
def State.resetTo (s : State) (cause : Nat) (phase : Phase) : State :=
  let s := s.flushBelfry
  let z := State.reset
  { z with
    pending := s.pending, now := s.now, free := s.free + 2, bus := s.bus, hmem := s.hmem, hbad := s.hbad,
    start := s.startRecord cause phase,
    fuses := s.fuses,
    drm := { z.drm with tbPresent := s.drm.tbPresent, tbLost := s.drm.tbLost, tbSource := s.drm.tbSource },
    bel := { s.bel with waiting := [], sel := 0 },
    parts := allParts.foldl (fun t p => tset Part.init t p.val { Part.init with gen := (s.part p).gen }) [],
    slots := allSlots.foldl (fun t i => tset Slot.init t i { Slot.init with gen := (s.slot i).gen }) [],
    gal := { z.gal with nextId := s.gal.nextId },
    pwr := { z.pwr with cap := s.pwr.cap },
    led := if s.sec.terminatePending then z.led else s.led,
    sec := s.cutShort.terminate.reset,
    mgmt := { z.mgmt with addr := s.mgmt.addr, event := s.mgmt.event },
    bundles := (List.range 16).foldl (fun t b => tset Bundle.init t b (s.bundle b).carried) [],
    lans := allLans.foldl (fun t l => tset Lantern.init t l (s.lan l).carried) [],
    jtag := s.jtag.afterReset s.sec.terminate.atReset }

/-- A device reset of a device that has power (R484); while the package reset is asserted it waits for the release. -/
def State.deviceReset (s : State) (cause : Nat) : State :=
  match s.start.phase with
  | .off => s
  | .held => { s with start := { s.start with cause := cause } }
  | _ => s.resetTo cause .starting

/-! ### The kind of start (R485) -/

/-- The margin ledger has a valid commissioning record; record 0 is that record (R434). -/
def State.ledgerValid (s : State) (r : StartReport) : Bool := decide (s.led.st = 1) && !r.badLedger.contains 0

/-- The kind of the start in progress (Table 20-1). -/
def State.startKind (s : State) (r : StartReport) : StartKind :=
  if !s.ledgerValid r then .commissioning else if s.warmDue then .warm else .cold

/-! ### Keep's steps (R317, R464, R467, R468) -/

/-- The source by which the identity of a die is reported (Table 18-3): its half's, its Lantern's, or the Drum's. -/
def identitySource (d : Nat) : Nat := if d < 2 then srcHalf (halfOf d) else if d = 2 then 0x001 else srcLantern (d - 3)

/-- The hash that a Spire makes of its stacks' own identities: SHA-384 truncated to 64 bits (Table 13-6). -/
def stackHash (ids : List (List Byte)) : Dword := BitVec.ofNat 64 (ofLe ((List.range 8).map (Config.sha384 ids.flatten)))

/-- Those of some dies that R317 refuses: one that cannot be read, whose PKG_SERIAL is not the Drum's, that has a field in
uncorrectable error, or whose stacks are not its own; each by its source. -/
def State.identityFaults (s : State) (r : IdentityRead) (dies : List Nat) : List Nat :=
  let bad (d : Nat) : Bool :=
    (r.unread.map (·.val)).contains d || (r.spoiled.map (·.val)).contains d || (s.dieFuses d).serial != (s.dieFuses 2).serial ||
      (d == 0 && r.westStacks != s.fuses.stackIds.west) || (d == 1 && r.eastStacks != s.fuses.stackIds.east)
  (dies.filter bad).map identitySource

/-- What Keep reports of fuses, ledger and chain before an image is chosen. -/
def State.keepReports (s : State) (r : StartReport) : State :=
  let s := r.fuseCorrected.foldl (fun s x => s.report 0x002 .corrected 3 (x.1.toNat + 2 ^ 16 * x.2.val)) s
  let s := r.badLedger.foldl (fun s n => s.report 0x002 .contained 4 n.toNat) s
  let led := if r.badLedger.contains 0 then State.reset.led else s.led.keep (r.badLedger.map (·.toNat))
  let s := { s with led := led }
  let chain := r.chainOk && !s.sec.terminated
  let s := if r.chainOk || s.sec.terminated then s else s.report 0x002 .contained 4 0xFFFFFFFF
  { s with sec := { s.sec with keysPresent := chain, chainServed := chain } }

/-- The slot that this start runs (R467, R468), with what choosing it reports; none when neither image is acceptable. An
image started twice without completing gives way to the other slot. -/
def State.chooseSlot (s : State) (r : StartReport) : State × Option Nat :=
  let ok (n : Nat) : Bool := s.startable n (if n = 0 then r.imageOk0 else r.imageOk1)
  let marked := s.sec.nextSlot
  let first := s.sec.firstSlot
  let mark (s : State) (n : Nat) (back : Bool) : State := { s with sec := { s.sec with nextSlot := n, rollback := back } }
  if ok first then (mark s first (decide (first ≠ marked)), some first)
  else
    let s := s.report 0x002 .contained 5 first
    if ok (1 - first) then (mark s (1 - first) (decide (1 - first ≠ marked)), some (1 - first))
    else (s.report 0x002 .contained 5 (1 - first), none)

/-- Gallery's cores released into a slot's image, domain 1 committed before (Table 19-4, steps 5 and 6). -/
def State.releaseGallery (s : State) (slot : Nat) : State :=
  ({ s with sec := s.sec.release slot } : State).commitDomain 1

/-- Keep's steps of a start (Table 19-4): at the end domain 1 is committed, the code region is locked and the image counts as
started; none when the start stops in them, in the safe state (R317, R468). -/
def State.keepSteps (s : State) (r : StartReport) : State × Option Nat :=
  if !r.selfTestOk then
    let f := s.takeFree
    (((f.2.report 0x002 .fatal 6 ((Config.freeValue f.1).toNat % 2 ^ 32)).safeState false), none)
  else if !(s.identityFaults r.identity (List.range 11)).isEmpty then
    (((s.identityFaults r.identity (List.range 11)).foldl (fun s x => s.report 0x002 .fatal 2 x) s).safeState false, none)
  else
    let q := (s.keepReports r).chooseSlot r
    match q.2 with
    | none => (q.1.safeState false, none)
    | some n => (q.1.releaseGallery n, some n)

/-! ### Step by step (Table 20-2, Table 20-3) -/

/-- Step 5: every bundle trained cold, or started at its stored speed and selection where that verifies (R303, R306); one that an
injected fault has fenced stays fenced until a cold start (R459). -/
def State.startBundle (s : State) (r : StartReport) (warm : Bool) (b : Nat) : State :=
  let x := r.trained.getD b ⟨[], ⟨[], []⟩⟩
  let kept := tget (0, []) s.start.stored.lanes b
  if warm && s.start.stored.fencedBundles.contains b then
    (s.modBundle b fun x => { x with st := 2, injected := true }).modLink b fun x => { x with st := 4 }
  else if warm then s.warmBundle b (kept.1, freshSlips kept.2) x else s.trainBundle b x.cold

/-- Step 8: HBM is zero; the retirement and fence maps are loaded (R157-R159). -/
def State.startHbm (s : State) (h : Half) : State :=
  let st := s.start.stored
  let fences := if st.valid then st.fencedPcs.get h else []
  let frames := if st.valid then st.retired.get h else []
  s.modHbm h fun x => { x with
    use := (fences.flatMap fun f => match f.2 with
      | .frames l => l
      | .slot _ => []).foldl (fun t i => tset .free t i .fence) (frames.foldl (fun t i => tset .free t i .retired) x.use),
    retired := min 65535 frames.length, fencedPcs := fences }

/-- Step 9: columns by the slab test; a warm start keeps failed and reserve columns and fails what the quick check finds. The
row of a failed slab is not reported to the model: a free value (row 3). -/
def State.startArray (s : State) (h : Half) (warm : Bool) (found : List Nat) : State :=
  let st := s.start.stored
  let cols : Tbl ColState := (st.reserveCols.get h).foldl (fun t i => tset .good t i .reserve)
    ((st.failedCols.get h).foldl (fun t i => tset .good t i .failed) [])
  let s := if warm then s.modArr h fun a => ({ a with cols := cols } : Arr).bind else s
  found.foldl (fun s i =>
    let f := s.takeFree
    f.2.failColumn h i ((Config.freeValue f.1).toNat % 32) 3) s

/-- What the ledger's last record says of a laser; where it says nothing, its fused nominal bias (Table 15-14). -/
def State.laserKept (s : State) (l i : Nat) : Nat × Int × Int :=
  let x := ((s.led.log.getLast?).map fun r => tget (0, 0, 0) r.lasers (18 * l + i)).getD (0, 0, 0)
  if x.1 = 0 then ((tget (0, 0, 0) s.fuses.lasers (18 * l + i)).1, 0, 0) else x

/-- The lasers lit at a start: each wavelength's own source in service (R347, R348), as the ledger knows it. -/
def State.lasersOn (s : State) (l : Nat) : State :=
  (s.lan l).waves.foldl (fun s k =>
    let i := (s.lan l).laserOf k
    let v := s.laserKept l i
    s.modLan l fun x => x.modLaser i fun y => { y with st := 1, target := k, bias := v.1, delta := v.2.1, freq := v.2.2 }) s

/-- A fixed laser that cannot reach its output at its ceiling gives way to a spare at commissioning (R385); with no spare
free its wavelength is retired (R369). -/
def State.replaceLaser (s : State) (l k : Nat) : State :=
  match (s.lan l).freeSpare none with
  | none => s.retireWave l k
  | some i =>
    let s := s.modLan l fun x =>
      let x := x.modLaser k fun y => { y with st := 4 }
      let x := x.modLaser (16 + i) fun y => { y with st := 1, target := k }
      ({ x with source := tset 0 x.source k (1 + i) } : Lantern).count 4 1
    s.report (srcLantern l) .corrected 5 (k + 2 ^ 8 * i + 2 ^ 15)

/-- A Lantern's heater codes after a sweep (R386): of every ring at a cold start; at a warm one, of a ring that did not lock from
its stored code (Table 20-3). -/
def sweptRings (r : StartReport) (l : Nat) (m : Tbl Nat) : Tbl Nat :=
  r.rings.foldl (fun m f => if f.lantern.val = l then tset 0 m (ringKey f.ring) f.code.toNat else m) m

/-- Stored heater codes adjusted to a Lantern's present temperature (R386). -/
def codesAt (m : Tbl Nat) (was : Option Int) (now : Int) : Tbl Nat := match was with
  | none => m
  | some v => m.foldl (fun m e => tset 0 m e.1 (if e.1 < 512 then ringAdjust e.2 v now else Config.laserAdjust e.2 v now)) m

/-- A Lantern's temperature at a start. -/
def lanTemp (r : StartReport) (l : Nat) : Int := r.lanTemps.getD l ledgerTemp

/-- A fixed laser's measured output lies more than 1.0 dB below its fused one (R385). -/
def State.faded (s : State) (f : LaserFound) : Bool :=
  decide (f.output < (tget (0, 0, 0) s.fuses.lasers (18 * f.lantern.val + f.laser.val)).2.2 - 100)

/-- The output that commissioning takes as a laser's baseline (R384, R385): a faded fixed laser's fused one. -/
def State.newBase (s : State) (f : LaserFound) : Int :=
  if decide (f.laser.val < 16) && s.faded f then (tget (0, 0, 0) s.fuses.lasers (18 * f.lantern.val + f.laser.val)).2.2
  else f.output

/-- A fixed laser at commissioning (R385): one that cannot reach +15.0 dBm at its ceiling gives way to a spare; a faded one is at
warning from its first start, which is a corrected fault, and is swapped as R368 gives. -/
def State.commissionLaser (s : State) (l : Nat) (f : LaserFound) : State :=
  let i := f.laser.val
  if f.lantern.val ≠ l ∨ 16 ≤ i ∨ (s.lan l).sourceOf i ≠ 0 then s
  else if f.top < 1500 then s.replaceLaser l i
  else
    let faded := s.faded f
    let s := s.modLan l fun x => x.modLaser i fun y => { y with delta := f.output - s.newBase f, warn := faded }
    if faded then (s.report (srcLantern l) .corrected 4 i).warnSwap l i else s

/-- Step 10 for a Lantern. A fenced one is tested again by a cold start and stays fenced in a warm one. -/
def State.startLantern (s : State) (r : StartReport) (kind : StartKind) (l : Nat) : State :=
  let warm := decide (kind = .warm)
  let st := s.start.stored
  if warm && st.fencedLanterns.contains l then
    allPorts.foldl (fun s p => s.modLink (portKey l p) fun x => { x with st := 4 })
      ((s.modLan l fun x => { x with fenced := true, held := false }).commitDomain (4 + l))
  else
    let kept := if warm then codesAt (tget [] st.rings l) (tget none st.temps l) (lanTemp r l) else []
    let s := (s.modLan l fun x => { x with rings := sweptRings r l kept }).lasersOn l
    let s := s.lanternBack l ((r.badModules.filter fun x => x.1.val == l).map (·.2.val)) (shuttersOf r.shutters l)
    if kind = .commissioning ∧ (s.lan l).fenced = false then r.lasers.foldl (fun s f => s.commissionLaser l f) s else s

/-- The commissioning record and the baselines of Table 15-14 (R384): later starts never record them anew. -/
def State.commission (s : State) (r : StartReport) : State :=
  let rings := r.rings.foldl (fun m f => tset none m (1024 * f.lantern.val + ringKey f.ring)
    (some (f.code.toNat, lanTemp r f.lantern.val))) s.led.codes
  { s with led := { s.led.append (s.ledgerNow []) with
    st := 1,
    setPoints := r.rings.foldl (fun m f => match f.ring with
      | .tx _ _ => tset 0 m (1024 * f.lantern.val + ringKey f.ring) f.point.toNat
      | _ => m) s.led.setPoints,
    outputs := r.lasers.foldl (fun m f => tset none m (laserKey f.lantern.val f.laser.val f.wave.val) (some (s.newBase f)))
      s.led.outputs,
    codes := r.lasers.foldl (fun m f => tset none m (laserKey f.lantern.val f.laser.val f.wave.val)
      (some (f.code.toNat, lanTemp r f.lantern.val))) rings,
    shutters := r.shutters.foldl (fun m e => (List.zip (List.range 16) e.2).foldl (fun m f =>
      tset 0 m (16 * e.1.val + f.1) f.2) m) s.led.shutters } }

/-- Step 11: the broken sensors and the conservative caps that follow from them, each a contained fault (R423, R424). -/
def State.startSensors (s : State) (l : List (Nat × Nat)) : State :=
  (List.range 11).foldl (fun s d =>
    let b := (l.filter fun x => x.1 == d).map (·.2)
    if b.isEmpty then s
    else
      let cons := decide (sensorsOf d / 4 < b.length)
      let s := s.modDie d fun x => { x with broken := b, conservative := cons }
      if cons then s.report (srcThermal d) .contained 2 b.length else s) s

/-! ### Stored parameters (R494) -/

/-- The training parameters as they now stand. -/
def State.capture (s : State) : Stored :=
  let cols (c : ColState) : Both (List Nat) := ⟨s.arr.west.inState c, s.arr.east.inState c⟩
  let retired (x : Hbm) : List Nat := (x.use.filter fun e => match e.2 with | .retired => true | _ => false).map (·.1)
  { valid := true, failedCols := cols .failed, reserveCols := cols .reserve,
    fencedLanterns := allLans.filter fun l => (s.lan l).fenced,
    broken := (List.range 11).flatMap fun d => (s.die d).broken.map fun i => (d, i),
    retired := ⟨retired s.hbm.west, retired s.hbm.east⟩, fencedPcs := ⟨s.hbm.west.fencedPcs, s.hbm.east.fencedPcs⟩,
    fencedBundles := (List.range 16).filter fun b => (s.bundle b).injected,
    lanes := (List.range 16).filterMap fun b =>
      if (s.bundle b).st = 2 then none else some (b, ((s.bundle b).speed, (s.bundle b).lanes)),
    rings := allLans.map fun l => (l, (s.lan l).rings),
    temps := allLans.foldl (fun m l => match (s.die (3 + l)).hottest with
      | some v => tset none m l (some v)
      | none => m) s.start.stored.temps }

/-- TRAINING_PARAMS_WRITE (R494): the older copy is written and is now the newer. -/
def execTrainingParamsWrite (t : Nat) (s : State) : Host.Outcome State Fault Refusal :=
  let s := s.atTime t
  .next (if s.running then { s with start := { s.start with stored := s.capture } } else s)

/-! ### The end of a start (R469, R490, R491) -/

/-- After an image with SVN_COMMIT has completed a start, SVN_MIN follows it unless that would lock out the other slot
(R469); then an update may still make it follow. -/
def State.svnStep (s : State) : State :=
  let n := s.sec.runSlot
  let svn := s.slotSvn n
  let other := !s.sec.known (1 - n) && Config.freeBool (s.free + 2) || s.sec.empty (1 - n) || decide (svn ≤ s.slotSvn (1 - n))
  let blow := s.svnCommits n && other
  { s with
    free := s.free + 3,
    sec := { s.sec with
      runSvn := svn, svnMin := if blow then max s.sec.svnMin svn else s.sec.svnMin, commitPending := s.svnCommits n && !other } }

/-- Every partition's and slot's generation incremented (R490). -/
def State.bumpGens (s : State) : State :=
  allSlots.foldl (fun s i => s.modSlot i fun x => { x with gen := nextGen x.gen })
    (allParts.foldl (fun s p => s.modPart p fun x => { x with gen := nextGen x.gen }) s)

/-- Steps 4-11 of a start that completes: HBM, arrays, bundles, Lanterns and sensors brought up. -/
def State.startUnits (s : State) (r : StartReport) (kind : StartKind) (slot : Nat) : State :=
  let warm := decide (kind = .warm)
  let s := { s with
    start := { s.start with
      phase := .running, kind := kind, paramsValid := s.start.stored.valid,
      coldRequested := s.start.coldRequested && warm },
    sec := { s.sec with runSlot := slot, starts := tset 0 s.sec.starts slot 0 } }
  let s := allHalves.foldl (fun s h => s.startHbm h) s
  let s := if kind = .commissioning then r.badRows.foldl (fun s n => s.retireRow (halfOf (n / 2 ^ 20 / 1024))
      (n / 2 ^ 20 % 1024) (n % 2 ^ 20) (rowFrames (n % 2 ^ 20))) s else s
  let s := (s.startArray .west warm r.westFailed).startArray .east warm r.eastFailed
  let s := (List.range 16).foldl (fun s b => s.startBundle r warm b) s
  let s := allLans.foldl (fun s l => s.startLantern r kind l) s
  s.startSensors (if warm then s.start.stored.broken else r.brokenSensors.map fun x => (x.1.val, x.2))

/-- Step 12: generations rise, the steward of the start record takes its role, and Gallery's domains are committed. -/
def State.openDevice (s : State) : State :=
  let s : State := { s.bumpGens with drm := { s.drm with steward := s.start.flashSteward.getD 0 } }
  (List.range 12).foldl (fun (s : State) d => if d = 1 ∨ s.domainDown d = true then s else s.commitDomain d) s

/-- Step 13: the start record and the stored parameters written; the Oculus table is up. -/
def State.endStart (s : State) (r : StartReport) : State :=
  ({ s with
    start := { s.start with
      done := true, markSet := false,
      stored := { s.capture with temps := allLans.foldl (fun m l => tset none m l (some (lanTemp r l))) [] } },
    mgmt := { s.mgmt with silent := false },
    drm := { s.drm with change := 0 } } : State).oculusUpdate

/-- What stands between them and step 13: the ledger, the plan, SVN_MIN, and the power state. -/
def State.finishStart (s : State) (r : StartReport) (kind : StartKind) : State :=
  let s := s.openDevice
  let s := if kind = .commissioning ∧ s.sec.st ≠ .terminated then s.commission r else s
  let s := s.replan.svnStep
  let s := s.modPwr fun x => { x with quiesced := some s.now }
  (if s.sec.st = .terminated then s.enterP2.1.enterP3 else s).endStart r

/-- Steps 4-13 of a start that completes. -/
def State.completeStart (s : State) (r : StartReport) (kind : StartKind) (slot : Nat) : State :=
  (s.startUnits r kind slot).finishStart r kind

/-- A start of a given kind runs, once, (R487, R489) with what it found; one that does not reach step 13 ends by its watchdog
(R492). Keep answers the management port once its own steps are done (R518). -/
def State.runStart (s : State) (r : StartReport) (cold : Bool) : State :=
  if s.start.phase ≠ .starting ∨ s.start.safe ∨ s.sec.codeLocked then s
  else
    let q := s.keepSteps r
    let s := { q.1 with mgmt := { q.1.mgmt with silent := false } }
    match q.2 with
    | none => s
    | some slot =>
      let kind := s.startKind r
      if decide (kind ≠ .warm) != cold || !r.completes then s else s.completeStart r kind slot

/-- COLD_START (R487, R488); acts when the start in progress is cold by R485. -/
def execColdStart (t : Nat) (report : StartReport) (s : State) : Host.Outcome State Fault Refusal :=
  let s := s.atTime t
  .next (if decide (s.startKind report = .warm) then s else s.runStart report true)

/-- WARM_START (R489). -/
def execWarmStart (t : Nat) (report : StartReport) (s : State) : Host.Outcome State Fault Refusal :=
  let s := s.atTime t
  .next (if decide (s.startKind report ≠ .warm) then s else s.runStart report false)

/-! ### Failed starts (R492, R493) -/

/-- START_FAILURE (R492): CORE_HANG, and the safe state. A Gallery core ran, so Keep's steps were done. -/
def execStartFailure (t : Nat) (core : Fin 4) (s : State) : Host.Outcome State Fault Refusal :=
  let s := s.atTime t
  .next (if s.start.phase ≠ .starting ∨ s.start.safe then s
    else
      let s := { s with
        start := { s.start with markSet := true, lastWarm := s.warmDue, coldRequested := s.start.coldRequested && s.warmDue },
        mgmt := { s.mgmt with silent := false } }
      let s := if s.sec.codeLocked then s
        else s.releaseGallery s.sec.firstSlot
      (s.report 0x003 .fatal 2 core.val).safeState true)

/-- AUTO_DEVICE_RESET (R492, R493): 100 ms after the safe state, unless four starts in a row have failed. -/
def execAutoDeviceReset (t : Nat) (s : State) : Host.Outcome State Fault Refusal :=
  let s := s.atTime t
  .next (if decide (s.start.phase = .starting) && s.start.markSet && decide (s.start.safeAt + 10 ^ 8 ≤ s.now) &&
      decide (s.start.failedRun + 1 < 4) then s.deviceReset 4 else s)

/-! ### Power (R512-R516) -/

/-- POWER_ON (R512): VIN_AUX rises from Off; the time base starts and the Drum is held in reset. -/
def execPowerOn (t : Nat) (s : State) : Host.Outcome State Fault Refusal :=
  .next (if s.start.phase ≠ .off then s.atTime t
    else { s with start := { s.start with phase := .held, cause := 0 }, now := 0 })

/-- PACKAGE_RESET (R513): a start in progress is abandoned; the Drum is held until the release. -/
def execPackageReset (t : Nat) (_cause : PackageCause) (s : State) : Host.Outcome State Fault Refusal :=
  let s := s.atTime t
  .next (match s.start.phase with
    | .off => s
    | .held => s
    | _ => s.resetTo 1 .held)

/-- PACKAGE_RESET_RELEASE (R512, R516, R518): the start begins; the time base source is selected and the management
address read. A test instruction left while the reset was asserted is by then its cause (R520). -/
def execPackageResetRelease (t : Nat) (tbref : Bool) (mgmtAddr : BitVec 3) (s : State) : Host.Outcome State Fault Refusal :=
  let s := s.atTime t
  .next (if s.start.phase ≠ .held then s
    else { s with
      start := { s.start with
        phase := .starting, startedAt := s.now },
      drm := { s.drm with tbPresent := tbref, tbLost := false, tbSource := tbref },
      mgmt := { s.mgmt with addr := 0x60 + mgmtAddr.toNat } })

/-- POWER_OFF (R514): the log, the cap and the time base are lost; fuses, flash and the world outside stay. -/
def execPowerOff (t : Nat) (s : State) : Host.Outcome State Fault Refusal :=
  let s := s.atTime t
  let r := s.resetTo 0 .off
  .next (if s.start.phase = .off then s
    else { r with
      now := 0, bel := State.reset.bel, pwr := State.reset.pwr, jtag := State.reset.jtag, mgmt := State.reset.mgmt,
      start := { r.start with startedAt := 0 }, led := { r.led with before := r.led.before + s.now } })

/-- TBREF_LOSS (R516): the time base goes on from REFCLK_100. -/
def execTbrefLoss (t : Nat) (s : State) : Host.Outcome State Fault Refusal :=
  let s := s.atTime t
  .next { s with drm := { s.drm with
    tbPresent := false, tbLost := s.drm.tbLost || s.drm.tbSource, tbSource := false } }

end Sys2Proof.Machine
end

