-- ==== Sys2Proof/Machine/Resets.lean ====
section
/-! DEFINITION. DRM_RESET_CTRL, rails below reset, and the reset and return of a half (R419, R495-R504). -/

namespace Sys2Proof.Machine

/-! ### Resets of a half by cause -/

/-- Whether a half is under reset. -/
def State.underReset (s : State) (h : Half) : Bool :=
  decide ((s.arr.get h).half = .orderly) || decide ((s.arr.get h).half = .abrupt)

/-- An orderly reset of a half in service. -/
def State.resetHalf (s : State) (h : Half) (cause : Nat) : State :=
  if s.running && s.halfUp h then s.orderlyHalf h cause else s

/-- An abrupt reset of a half while the device runs. -/
def State.crashHalf (s : State) (h : Half) (cause : Nat) : State := if s.running then s.abruptHalf h cause else s

/-! ### Single-half operation (R502) -/

/-- The frames of a lost half unmapped from their partitions. -/
def State.unmapHalf (s : State) (h : Half) : State :=
  let here (e : Nat × Option Nat) : Bool := match e.2 with
    | some d => decide (d / halfFrames = halfNo h)
    | none => false
  let s := s.modHbm h fun x => { x with use := x.use.filter fun e => match e.2 with | .mapped _ _ => false | _ => true }
  { s with mem := { s.mem with fmap := s.mem.fmap.filter fun e => !here e } }

/-- Single-half operation entered, where R502 allows it: exactly one half lost, and the guarantees fit the other. -/
def State.enterSingle (s : State) : State :=
  let go (h : Half) : State :=
    let sum := (allParts.map fun p => (s.part p).guarantee).foldl (· + ·) 0
    if (s.hbm.get (other h)).allocFrames < sum then s.badValue 0
    else ((({ s with start := { s.start with singleHalf := true } }).unmapHalf h).oculusUpdate).settleMem.releaseBar
  match decide (s.arr.west.half = .lost), decide (s.arr.east.half = .lost) with
  | true, false => go .west
  | false, true => go .east
  | _, _ => s.badValue 0

/-! ### DRM_RESET_CTRL (R503, R504) -/

/-- The source ID by which a commanded reset names its cause: the steward's host port (notes/assumptions, row 14). -/
def writerSource : Writer → Nat
  | .host p => srcPort p
  | _ => 0x001

/-- An action of DRM_RESET_CTRL by the steward (Table 20-8). -/
def State.resetAction (s : State) (w : Writer) (action : Nat) : State :=
  let orderly (h : Half) : State :=
    if s.halfUp h && !s.underReset (other h) then s.resetHalf h (writerSource w) else s.badValue 0
  let lose (h : Half) : State :=
    if (s.arr.get h).half = .lost ∨ (s.arr.get (other h)).half = .lost then s.badValue 0 else s.loseHalf h (writerSource w)
  match action with
  | 0 => s
  | 1 => orderly .west
  | 2 => orderly .east
  | 3 => lose .west
  | 4 => lose .east
  | 5 => s.enterSingle
  | 6 => s.deviceReset 2
  | 7 => ({ s with start := { s.start with coldRequested := true } } : State).deviceReset 2
  | 8 => { s with start := { s.start with coldRequested := true } }
  | 9 => { s with start := { s.start with coldRequested := false } }
  | _ => s.badValue 0

/-- DRM_RESET_CTRL written: only the steward's host reaches it (R503). -/
def State.writeResetCtrl (s : State) (w : Writer) (v : Nat) : State :=
  let may : Bool := match w with
    | .host q => s.isSteward q
    | _ => false
  if !s.writerOpen w then s
  else if !may then s.dropWrite w
  else if bitsOf v 31 16 ≠ 0x5253 then s.badValue 0
  else s.resetAction w (v % 16)

/-- The word that writes an action with a key. -/
def resetWord (key action : Nat) : Nat := (key % 2 ^ 16) * 2 ^ 16 + action

/-- ORDERLY_HALF_RESET (R498). -/
def execOrderlyHalfReset (t : Nat) (w : Writer) (half : Half) (key : Nat) (s : State) : Host.Outcome State Fault Refusal :=
  .next ((s.atTime t).writeResetCtrl w (resetWord key (1 + halfNo half)))

/-- DECLARE_HALF_LOST (R501). -/
def execDeclareHalfLost (t : Nat) (w : Writer) (half : Half) (key : Nat) (s : State) : Host.Outcome State Fault Refusal :=
  .next ((s.atTime t).writeResetCtrl w (resetWord key (3 + halfNo half)))

/-- SINGLE_HALF_OPERATION (R502). -/
def execSingleHalfOperation (t : Nat) (w : Writer) (key : Nat) (s : State) : Host.Outcome State Fault Refusal :=
  .next ((s.atTime t).writeResetCtrl w (resetWord key 5))

/-- DEVICE_RESET (R484, R504). -/
def execDeviceReset (t : Nat) (w : Writer) (key : Nat) (s : State) : Host.Outcome State Fault Refusal :=
  .next ((s.atTime t).writeResetCtrl w (resetWord key 6))

/-- DEVICE_RESET_COLD (R484, R485). -/
def execDeviceResetCold (t : Nat) (w : Writer) (key : Nat) (s : State) : Host.Outcome State Fault Refusal :=
  .next ((s.atTime t).writeResetCtrl w (resetWord key 7))

/-- REQUEST_COLD_START (R485). -/
def execRequestColdStart (t : Nat) (w : Writer) (key : Nat) (s : State) : Host.Outcome State Fault Refusal :=
  .next ((s.atTime t).writeResetCtrl w (resetWord key 8))

/-- WITHDRAW_COLD_REQUEST (R485). -/
def execWithdrawColdRequest (t : Nat) (w : Writer) (key : Nat) (s : State) : Host.Outcome State Fault Refusal :=
  .next ((s.atTime t).writeResetCtrl w (resetWord key 9))

/-! ### Rails and clocks (R419, R495) -/

/-- What a rail below its reset level resets (Table 17-4). -/
def State.railReset (s : State) (r : Nat) : State :=
  let lans (h : Half) : State := if s.running then (lansOf h).foldl (fun s l => s.resetLantern l) s else s
  if r < 2 then s.resetHalf (halfOf r) (0x0C0 + r)
  else if r < 8 then s.crashHalf (halfOf (r % 2)) (0x0C0 + r)
  else if r = 8 ∨ r = 13 then s.deviceReset 3
  else lans (halfOf ((r - 9) % 2))

/-- RAIL_BELOW_RESET (R419, R421): for more than 200 ns; such a rail is below its warning level too. A level that the rail does not
fall below is none. -/
def execRailBelowReset (t : Nat) (rail : Fin 14) (millivolts : Nat) (s : State) : Host.Outcome State Fault Refusal :=
  let s := s.atTime t
  .next (if !s.watched rail.val || decide (railReset rail.val ≤ millivolts) || decide (s.start.phase = .off) ||
      decide (s.start.phase = .held) then s
    else
      let s := s.modRail rail.val fun x => { x with mv := min 4095 millivolts, below := true, aboveSince := none }
      let s := if rail.val < 8 then s.modEng fun e => { e with hold := true } else s
      (s.report (0x0C0 + rail.val) .contained 2 (millivolts % 2 ^ 12)).railReset rail.val)

/-- HALF_PLL_UNLOCK (R495): out of lock for 1 µs. -/
def execHalfPllUnlock (t : Nat) (half : Half) (s : State) : Host.Outcome State Fault Refusal :=
  .next ((s.atTime t).crashHalf half (srcHalf half))

/-- ORDERLY_RESET_TIMEOUT (R495): the preparation has passed 5 ms. -/
def execOrderlyResetTimeout (t : Nat) (half : Half) (s : State) : Host.Outcome State Fault Refusal :=
  let s := s.atTime t
  let a := s.arr.get half
  .next (if a.half = .orderly ∧ a.resetSince + 5000000 ≤ s.now then s.crashHalf half a.resetCause else s)

/-! ### The return of a half (R498-R501) -/

/-- A bundle that ends in the half starts warm, from its own speed and selection (R306, R334); lanes that waited their turn
to be handled are. -/
def State.returnBundle (s : State) (h : Half) (r : HalfReport) (b : Nat) : State :=
  let s := s.settleLanes b
  if (s.bundle b).st = 2 then s
  else s.warmBundle b ((s.bundle b).speed, if rxDie b = some h then freshSlips (s.bundle b).lanes else (s.bundle b).lanes)
    (((r.bundles.find? fun x => x.1.val == b).map (·.2)).getD ⟨[], ⟨[], []⟩⟩)

/-- The operation held for the half goes on; waves it spends again are not stated (a free value, row 3). -/
def State.continueOp (s : State) (h : Half) : State :=
  match s.eng.run with
  | none => s
  | some r => match r.cur with
    | none => s
    | some o =>
      if o.pausedFor ≠ some h then s
      else
        let still := if s.underReset (other h) then some (other h) else none
        ((s.setRun (some { r with cur := some { o with pausedFor := still } })).countFreeRetry .west).countFreeRetry .east

/-- A half comes back (steps 7-9 of Table 20-6, R500). An operation held for it whose column count its start changes has an
inexact wave count (R21). -/
def State.halfBack (s : State) (h : Half) (r : HalfReport) : State :=
  let orderly := decide ((s.arr.get h).half = .orderly)
  let cause := (s.arr.get h).resetCause
  let s := s.modArr h fun a => { a with half := .inService, failedStarts := 0 }
  let s := s.modHbm h fun x => { x with selfRefresh := decide (2 ≤ s.pwr.st) }
  let width := (s.arr.get h).bound.length
  let s := r.failedCols.foldl (fun s i =>
    let f := s.takeFree
    f.2.failColumn h i ((Config.freeValue f.1).toNat % 32) 3) s
  let s := if (s.arr.get h).bound.length = width then s else s.markInexact h true
  let s := if orderly then s else s.poisonHalf h
  let s := (bundlesOf h).foldl (fun s b => s.returnBundle h r b) s
  let s := (lansOf h).foldl (fun s l => s.lanternBack l ((r.badModules.filter fun x => x.1.val == l).map (·.2.val)) (shuttersOf r.shutters l)) s
  let s := ((s.restoreDomain (2 + halfNo h)).continueOp h).oculusUpdate
  let s := if orderly then s.report (srcHalf h) .corrected 3 cause else s
  s.settleMem.releaseBar

/-- HALF_RETURN (R498-R500): the half's warm start completes; a die or stack that is not the package's own ends in the safe
state (R317). -/
def execHalfReturn (t : Nat) (half : Half) (report : HalfReport) (s : State) : Host.Outcome State Fault Refusal :=
  let s := s.atTime t
  let bad := s.identityFaults report.identity (halfNo half :: (lansOf half).map (· + 3))
  .next (if !s.underReset half || (s.arr.get half).preparing then s
    else if !bad.isEmpty then (bad.foldl (fun s d => s.report 0x002 .fatal 2 d) s).safeState false
    else s.halfBack half report)

/-- HALF_START_FAILURE (R501): the second in a row declares the half lost. -/
def execHalfStartFailure (t : Nat) (half : Half) (s : State) : Host.Outcome State Fault Refusal :=
  let s := s.atTime t
  let n := (s.arr.get half).failedStarts + 1
  .next (if !s.underReset half || (s.arr.get half).preparing then s
    else if 2 ≤ n then (s.modArr half fun a => { a with failedStarts := n }).loseHalf half (s.arr.get half).resetCause
    else s.modArr half fun a => { a with failedStarts := n })

end Sys2Proof.Machine
end

