-- ==== Sys2Proof/Machine/Security.lean ====
section
/-! DEFINITION. Keep's commands, images and updates, debug access, SPDM (chapter 19: R461-R481; R289-R291). -/

namespace Sys2Proof.Machine

/-! ### What runs, for a measurement (R472) -/

/-- The bytes of the running image's component with an ID; what an external programmer put into flash is not known. -/
def State.runComponent (s : State) (id : Nat) : List Byte :=
  let slot := s.sec.runSlot
  if !s.sec.known slot then Config.measuredBytes (16 + id)
  else match (components (s.sec.slotBytes slot 0 4096)).find? fun c => c.2.2.1 == id with
    | some c => s.sec.slotBytes slot c.1 c.2.1
    | none => []

/-! ### The update session (R291, R470) -/

/-- Bytes of an update written into its slot; a slot written to is no longer marked (R470). -/
def State.writeImage (s : State) (off : Nat) (bs : List Byte) : State :=
  match s.sec.session with
  | none => s
  | some x =>
    let unmark := decide (s.sec.nextSlot = x.slot)
    { s with sec := { s.sec with
      flash := writeBytes 0xFF s.sec.flash (x.slot * 2 ^ 23 + off) bs, touched := x.slot :: s.sec.touched.filter fun n => n != x.slot,
      nextSlot := if unmark then s.sec.runSlot else s.sec.nextSlot,
      terminatePending := s.sec.terminatePending && !unmark,
      session := some { x with received := min x.len (x.received + bs.length), lastUse := s.now } } }

/-- The session's image is verified; the slot is marked when it is good. The session ends. -/
def State.endSession (s : State) : State := { s with
  sec := { s.sec with session := none },
  mgmt := { s.mgmt with fdStage := 0, components := 0 } }

/-- A slot marked for the next start: a termination token is pending until then (R475). An image that lets SVN_MIN follow the
running one makes it do so (R469). -/
def State.markSlot (s : State) (slot : Nat) : State :=
  let token := decide (le (s.sec.slotBytes slot 5 1) 0 1 = 1)
  let blow := s.sec.commitPending && !token && decide (s.sec.runSvn ≤ s.slotSvn slot)
  { s with sec := { s.sec with
    nextSlot := slot, starts := tset 0 s.sec.starts slot 0, terminatePending := token,
    svnMin := if blow then max s.sec.svnMin s.sec.runSvn else s.sec.svnMin,
    commitPending := s.sec.commitPending && !blow } }

/-- FW_UPDATE's effect (R291). -/
def State.fwUpdate (s : State) (a : Acc) : State :=
  let p := a.par
  match s.sec.session with
  | none =>
    let slot := 1 - s.sec.runSlot
    ({ s with sec := { s.sec with session := some ⟨slot, p 20 4, 0, s.now, false⟩ } } : State).reply a stOK slot 0 0
  | some x =>
    if p 16 1 = 1 then
      if s.hostBad a.part (p 32 8) (p 24 4) then s.reply a stFaulted x.slot x.received 0
      else
        let s := s.writeImage (p 28 4) (s.hostRead a.part (p 32 8) (p 24 4))
        s.reply a stOK x.slot (min x.len (x.received + p 24 4)) 0
    else if p 16 1 = 2 then
      if s.imageGood x.slot x.len then (s.markSlot x.slot).endSession.reply a stOK x.slot x.received 0
      else s.endSession.reply a stDenied x.slot x.received 0
    else s.endSession.reply a stOK x.slot x.received 0

/-! ### Keep takes its commands in order (R253) -/

/-- Keep has a command in hand: the entry to Control scope, until its zeroisation is complete (R253, R478). -/
def State.keepBusy (s : State) : Bool := s.gal.waiters.any fun w => match w.kind with
  | .zeroing _ => true
  | _ => false

/-- The command at the head of Keep's queue, when it has this number and opcode and Keep, which takes one command at a time,
has none in hand: judged by stages 6-11, then carried out. -/
def State.keepAct (s : State) (t id op : Nat) (f : Acc → State → State) : Host.Outcome State Fault Refusal :=
  let s := s.atTime t
  .next (match s.gal.keepQ with
    | [] => s
    | a :: r =>
      if a.id ≠ id ∨ a.opcode ≠ op ∨ s.keepBusy = true then s
      else
        let s := { s with gal := { s.gal with keepQ := r } }
        match s.gate2 a with
        | some x => s.refuse a x
        | none => match s.gate3 a with
          | some x => s.refuse a x
          | none => f a s)

/-- FW_UPDATE (R291). -/
def execFwUpdate (t id : Nat) (s : State) : Host.Outcome State Fault Refusal := s.keepAct t id 0x0920 fun a s => s.fwUpdate a

/-- UPDATE_SESSION_TIMEOUT (R470): idle for 60 s. -/
def execUpdateSessionTimeout (t : Nat) (s : State) : Host.Outcome State Fault Refusal :=
  let s := s.atTime t
  .next (match s.sec.session with
    | none => s
    | some x => if x.lastUse + 60 * 10 ^ 9 ≤ s.now then s.endSession else s)

/-! ### Attestation (R471-R473) -/

/-- The index of the DEBUG_KEY_HASH in use: none is outside DEBUG_AUTH, which reads as 0xFF. -/
def Security.keyUsed (x : Security) : Nat := if x.st = .observe ∨ x.st = .control then x.debugKey else 0xFF

/-- The debug scope in effect, coded as DEBUG_UNLOCK asks for it (R290): 0 outside DEBUG_AUTH. -/
def Security.scope (x : Security) : Nat := if x.st = .observe then 1 else if x.st = .control then 2 else 0

/-- The package's composition (Table 19-5): the dies' identities and the stacks' hashes, in the order of their source IDs
(Table 18-2): the Drum, the halves, their stacks, the Lanterns. -/
def State.composition (s : State) : List Byte :=
  let die (d : Nat) : List Byte := leBytes 8 (s.dieFuses d).id.toNat
  die 2 ++ die 0 ++ die 1 ++ leBytes 8 s.fuses.stackIds.west.toNat ++ leBytes 8 s.fuses.stackIds.east.toNat ++
    allLans.flatMap fun l => die (3 + l)

/-- The bytes that a measurement index digests (Table 19-5); how they are laid out for it, the manual does not say (DESIGN
CHOICE, notes/assumptions, row 44). -/
def State.measured (s : State) (index : Nat) : List Byte :=
  match index with
  | 1 => Config.measuredBytes 1
  | 2 => (List.range 7).flatMap fusedHash ++ revocable.map (fun n => byteOf (b2n (keyRevoked n))) ++ [byteOf s.sec.svnMin, byteOf (b2n s.sec.production), byteOf (b2n s.sec.terminated)]
  | 3 => s.runComponent 1
  | 4 => s.runComponent 2
  | 5 => s.runComponent 3
  | 6 => if s.sec.known s.sec.runSlot then s.sec.slotBytes s.sec.runSlot 0 768 else Config.measuredBytes 6
  | 7 => [byteOf s.sec.st.code, byteOf s.sec.scope, byteOf s.sec.keyUsed] ++ leBytes 4 (s.dom 1).ref.toNat
  | 8 => s.composition
  | _ => s.runComponent 4

/-- An SPDM message: what SPDM lays out, then the fields this manual gives. -/
def spdmMessage (code arg : Nat) (body : List Byte) : List Byte :=
  (List.range (Config.spdmLen code arg)).map (Config.spdmByte code arg) ++ body

/-- The six messages of the negotiation (R473): requests and responses of version, capabilities and algorithms. -/
def negotiation : List Byte := (List.range 6).flatMap fun i => spdmMessage i 0 []

/-- Keep's signature over a transcript (R461): ECDSA P-384, 96 bytes, by the identity key that the seed gives (R463). -/
def State.signed (s : State) (l : List Byte) : List Byte := (List.range 96).map (Config.signature s.sec.identitySeed l)

/-- A GET_MEASUREMENTS request and its response for one index; a signed pair carries the nonce and Keep's signature over all
that went before it. -/
def State.measurePair (s : State) (before : List Byte) (index : Nat) (nonce : Option (List Byte)) : List Byte :=
  let req := spdmMessage 6 index (nonce.getD [])
  let resp := spdmMessage 7 index (digest (s.measured index))
  let sig := match nonce with
    | none => []
    | some _ => s.signed (before ++ req ++ resp)
  req ++ resp ++ sig

/-- The transcript that ATTEST writes (R473). -/
def State.transcript (s : State) (mask : Nat) (nonce : List Byte) : List Byte :=
  let ks := ((List.range 9).filter fun k => bitOf mask k).map (· + 1)
  let pairs := (ks.dropLast).foldl (fun l k => l ++ s.measurePair l k none) negotiation
  let all := match ks.getLast? with
    | none => pairs
    | some k => pairs ++ s.measurePair pairs k (some nonce)
  leBytes 4 negotiation.length ++ all

/-- ATTEST (R289, R473). -/
def execAttest (t id : Nat) (s : State) : Host.Outcome State Fault Refusal :=
  s.keepAct t id 0x0901 fun a s =>
    let b := s.transcript (a.par 48 4) (slice a.pkt 16 32)
    if a.par 60 4 < b.length then s.reply a stBadParam 0 b.length 0
    else (s.dma a (a.par 52 8) b).reply a stOK b.length 0 0

/-! ### Debug access (R474-R480) -/

/-- The challenge of DEBUG_UNLOCK ACTION 0 (R476). -/
def State.newChallenge (s : State) (scope : Nat) : List Byte :=
  (List.range 32).map (Config.nonceByte s.sec.nonces) ++ leBytes 8 (s.dieFuses 2).serial.toNat ++ [byteOf scope, byteOf s.sec.st.code] ++
    zeros 6

/-- The DEBUG_KEY_HASH that a response verifies under (R476); none when it does not answer the last challenge or verify. -/
def State.unlockKey (s : State) (r : List Byte) (scope : Nat) : Option Nat :=
  match s.sec.challenge with
  | none => none
  | some c =>
    let key := slice r 52 97
    if slice r 0 48 == c && le r 48 1 == 1 && le r 49 1 == scope && le c 40 1 == scope && allZero (slice r 50 2) &&
        Config.verifies key (slice r 0 149) (slice r 149 96) then
      (List.range 2).find? fun n => keyIs key (4 + n)
    else none

/-- Entry to Control scope begins (R478): all work is cancelled, every slot, list and frame goes, generations rise. -/
def State.zeroise (s : State) : State :=
  let s := match s.eng.run with
    | some r => s.abandonRun r stCancelled
    | none => s
  let s := allSlots.foldl (fun s i => (s.endSteps i stCancelled 8).modSlot i fun x => { x with steps := [] }) s
  let s := s.eng.waiting.foldl (fun s q => s.reply q.acc stCancelled q.number 0 0xFFFFFFFF) s
  let s := s.modEng fun e => { e with waiting := [] }
  let runs := s.gal.accepted.filter fun a => a.opcode == 0x0402
  let s := (({ s with gal := { s.gal with accepted := s.gal.accepted.filter fun a => a.opcode != 0x0402 } } : State).endComing
    stCancelled 8)
  let s := (runs.foldl (fun s a => s.endCommand a stCancelled) s).settleFrees
  (allParts.foldl (fun s p => s.freePartition p) s).bumpGens

/-- Control scope asked for with a verified response: from P2 or P3 the device first goes to P0 (R480); the reply waits for
the zeroing. -/
def State.unlockControl (s : State) (a : Acc) : State :=
  let low := decide (2 ≤ s.pwr.st) && !s.start.safe && !s.pwr.stop
  let s := if low then (if s.pwr.st = 3 then s.leaveP3 else s).resume else s
  let s := s.zeroise
  if s.noneZeroing then s.controlReady a low else s.wait a (.zeroing low)

/-- A move of the security state at once, with its Oculus update. -/
def State.moveSecurity (s : State) (st : SecState) : State := ({ s with sec := { s.sec with st := st } } : State).oculusUpdate

/-- DEBUG_UNLOCK's effect (R290, Table 19-6). Leaving Control is a device reset, which ends the command without a reply. -/
def State.debugUnlock (s : State) (a : Acc) : State :=
  let p := a.par
  let st := s.sec.st
  if p 16 1 = 0 then
    let c := s.newChallenge (p 17 1)
    let s := { s with sec := { s.sec with challenge := some c, nonces := s.sec.nonces + 1 } }
    (s.dma a (p 24 8) c).reply a stOK (16 * st.code) 0 0
  else if p 16 1 = 1 then
    let key := s.unlockKey (a.ext.take 245) (p 17 1)
    let s := { s with sec := { s.sec with challenge := none } }
    match key with
    | none => s.reply a stDenied (16 * st.code) 0 0
    | some k =>
      let granted : State := { s with sec := { s.sec with debugKey := k } }
      if st = .control then (if p 17 1 = 1 then s.deviceReset 5 else s.reply a stDenied (16 * st.code) 0 0)
      else if p 17 1 = 2 then granted.unlockControl a
      else if st = .locked then (granted.moveSecurity .observe).reply a stOK (16 * SecState.observe.code) 0 0
      else s.reply a stDenied (16 * st.code) 0 0
  else if st = .control then s.deviceReset 5
  else (if st = .observe then ({ s with
      jtag := s.jtag.afterReset .locked, sec := { s.sec with challenge := none } } : State).moveSecurity .locked else s).reply a stOK (16 * SecState.locked.code) 0 0

/-- DEBUG_UNLOCK (R290, R474). -/
def execDebugUnlock (t id : Nat) (s : State) : Host.Outcome State Fault Refusal :=
  s.keepAct t id 0x0910 fun a s => s.debugUnlock a

/-- FACTORY_COMMAND (R261): accepted in FACTORY alone; what a factory procedure does, the manual does not say. -/
def execFactoryCommand (t id : Nat) (s : State) : Host.Outcome State Fault Refusal :=
  let s := s.atTime t
  match s.gal.accepted.find? fun a => a.id == id && decide (0xF000 ≤ a.opcode) with
  | none => .next s
  | some _ => .refused .factoryProcedure

/-! ### SPDM over an endpoint's mailbox (R464, R471, Table 19-7) -/

/-- SPDM error codes: InvalidRequest, UnexpectedRequest, UnsupportedRequest, ResponseNotReady (SPDM 1.3, not this manual). -/
def errInvalid : Nat := 0x01
/-- UnexpectedRequest. -/
def errUnexpected : Nat := 0x04
/-- UnsupportedRequest. -/
def errUnsupported : Nat := 0x07
/-- ResponseNotReady. -/
def errNotReady : Nat := 0x42

/-- Whether an endpoint's configuration space, and with it its mailbox, is reached. -/
def State.doeOpen (s : State) (p : Fin 4) : Bool :=
  (decide (s.start.phase = .starting) || s.running) && (decide ((s.port p).width ≠ 0) || (s.port p).slow)

/-- How much of SPDM a security state serves: 1 version and capabilities, 2 algorithms too, 3 all (Table 19-7). -/
def State.spdmLevel (s : State) : Nat := match s.sec.st with
  | .factory => 2
  | .terminated => 1
  | _ => 3

/-- The stages of an SPDM context in order. -/
def SpdmStage.rank : SpdmStage → Nat
  | .none => 0
  | .version => 1
  | .caps => 2
  | .algos => 3

/-- A request answered in an endpoint's context: what it needs of the security state and of the context's stage is judged
first. -/
def State.spdm (s : State) (t : Nat) (p : Fin 4) (level stage : Nat) (f : State → State) : Host.Outcome State Fault Refusal :=
  let s := s.atTime t
  let answer (code : Nat) : State := s.modPort p fun x => { x with doe := .error code }
  .next (if !s.doeOpen p then s
    else s.cfgRequest p fun s =>
      if s.spdmLevel < level then answer errUnsupported
      else if (s.port p).spdm.rank < stage then answer errUnexpected
      else f s)

/-- A response written to the mailbox; a request that would take Keep too long is answered later (R471). -/
def State.respond (s : State) (p : Fin 4) (slow : Bool) (b : List Byte) : State :=
  s.modPort p fun x => if slow then { x with doe := .error errNotReady, deferred := some (.bytes b) }
    else { x with doe := .bytes b, deferred := none }

/-- What an SPDM request other than GET_MEASUREMENTS puts an end to: the run of measurements not yet signed (SPDM 1.3; row 44). -/
def State.notMeasuring (s : State) (p : Fin 4) : State := s.modPort p fun x => { x with measures := [] }

/-- SPDM GET_VERSION (R471): the context begins again. -/
def execSpdmGetVersion (t : Nat) (port : Fin 4) (s : State) : Host.Outcome State Fault Refusal :=
  s.spdm t port 1 0 fun s => s.modPort port fun x => { x with
    spdm := .version, deferred := none, certs := [], measures := [],
    transcript := spdmMessage 0 0 [] ++ spdmMessage 1 0 [], doe := .bytes (spdmMessage 1 0 []) }

/-- SPDM GET_CAPABILITIES (R471). -/
def execSpdmGetCapabilities (t : Nat) (port : Fin 4) (s : State) : Host.Outcome State Fault Refusal :=
  s.spdm t port 1 1 fun s => (s.notMeasuring port).modPort port fun x => { x with
    spdm := .caps, transcript := x.transcript ++ spdmMessage 2 0 [] ++ spdmMessage 3 0 [], doe := .bytes (spdmMessage 3 0 []) }

/-- SPDM NEGOTIATE_ALGORITHMS (R471). -/
def execSpdmNegotiateAlgorithms (t : Nat) (port : Fin 4) (s : State) : Host.Outcome State Fault Refusal :=
  s.spdm t port 2 2 fun s => (s.notMeasuring port).modPort port fun x => { x with
    spdm := .algos, transcript := x.transcript ++ spdmMessage 4 0 [] ++ spdmMessage 5 0 [], doe := .bytes (spdmMessage 5 0 []) }

/-- A request for a part of the certificate chain answered, request and response kept for the next CHALLENGE (R471). -/
def State.serveChain (s : State) (p : Fin 4) (req resp : List Byte) : State :=
  ((s.notMeasuring p).modPort p fun x => { x with certs := x.certs ++ req ++ resp }).respond p false resp

/-- SPDM GET_DIGESTS (R464, R471): the digest of the chain of slot 0. -/
def execSpdmGetDigests (t : Nat) (port : Fin 4) (s : State) : Host.Outcome State Fault Refusal :=
  s.spdm t port 3 3 fun s =>
    if s.sec.chainServed then s.serveChain port (spdmMessage 12 0 []) (spdmMessage 8 0 (digest Config.certChain))
    else (s.notMeasuring port).modPort port fun x => { x with doe := .error errUnsupported }

/-- SPDM GET_CERTIFICATE (R464): a portion of the chain; only certificate slot 0 is populated (R471). -/
def execSpdmGetCertificate (t : Nat) (ask : CertAsk) (offset len : Nat) (s : State) : Host.Outcome State Fault Refusal :=
  let port := ask.port
  s.spdm t port 3 3 fun s =>
    if !s.sec.chainServed then (s.notMeasuring port).modPort port fun x => { x with doe := .error errUnsupported }
    else if ask.slot ≠ 0 ∨ Config.certChain.length ≤ offset then
      (s.notMeasuring port).modPort port fun x => { x with doe := .error errInvalid }
    else
      let b := (Config.certChain.drop offset).take len
      s.serveChain port (spdmMessage 13 ask.slot.val (leBytes 2 offset ++ leBytes 2 len))
        (spdmMessage 9 0 (leBytes 2 b.length ++ leBytes 2 (Config.certChain.length - offset - b.length) ++ b))

/-- SPDM CHALLENGE (R471): signed by Keep over the negotiation, the certificate requests since the last signature and the
exchange itself. -/
def execSpdmChallenge (t : Nat) (ask : CertAsk) (nonce : List Byte) (slow : Bool) (s : State) : Host.Outcome State Fault Refusal :=
  let port := ask.port
  s.spdm t port 3 3 fun s =>
    if ask.slot ≠ 0 then (s.notMeasuring port).modPort port fun x => { x with doe := .error errInvalid }
    else
      let x := s.port port
      let body := spdmMessage 11 0 (digest Config.certChain)
      let sig := s.signed (x.transcript ++ x.certs ++ spdmMessage 10 0 nonce ++ body)
      ((s.notMeasuring port).modPort port fun x => { x with certs := [] }).respond port slow (body ++ sig)

/-- SPDM GET_MEASUREMENTS (R472): index 0 asks how many there are, 0xFF for all nine. A signed answer covers the negotiation and
the requests for measurements since the last one. -/
def execSpdmGetMeasurements (t : Nat) (ask : CertAsk) (index : BitVec 8) (sign : Bool) (nonce : List Byte) (slow : Bool)
    (s : State) : Host.Outcome State Fault Refusal :=
  let port := ask.port
  s.spdm t port 3 3 fun s =>
    let i := index.toNat
    if (10 ≤ i ∧ i ≠ 0xFF) ∨ (sign = true ∧ ask.slot ≠ 0) then s.modPort port fun x => { x with doe := .error errInvalid }
    else
      let ks := if i = 0 then [] else if i = 0xFF then (List.range 9).map (· + 1) else [i]
      let req := spdmMessage 6 i (if sign then nonce else [])
      let body := spdmMessage 7 i ([byteOf (if i = 0 then 9 else ks.length)] ++ ks.flatMap fun k => byteOf k :: digest (s.measured k))
      let m := (s.port port).measures ++ req ++ body
      let sig := s.signed ((s.port port).transcript ++ m)
      (s.modPort port fun x => { x with measures := if sign then [] else m }).respond port slow
        (body ++ if sign then sig else [])

/-- SPDM RESPOND_IF_READY (R471); a request of any other code than the eight that Keep supports comes in by the same row, and
receives ERROR UnsupportedRequest. -/
def execSpdmRespondIfReady (t : Nat) (ask : OtherAsk) (s : State) : Host.Outcome State Fault Refusal :=
  let port := ask.port
  if ask.code = 0xFF then
    s.spdm t port 3 3 fun s => (s.notMeasuring port).modPort port fun x => match x.deferred with
      | some d => { x with doe := d, deferred := none }
      | none => { x with doe := .error errUnexpected }
  else s.spdm t port 0 0 fun s => (s.notMeasuring port).modPort port fun x => { x with doe := .error errUnsupported }

/-- DOE_DISCOVERY (R223): the two protocols, discovery (type 0) and CMA/SPDM (type 1), each naming the next index. -/
def execDoeDiscovery (t : Nat) (port : Fin 4) (index : BitVec 8) (s : State) : Host.Outcome State Fault Refusal :=
  let s := s.atTime t
  .next (if !s.doeOpen port then s
    else s.cfgRequest port fun s => s.modPort port fun x =>
      if index = 0 then { x with doe := .discovery 1 0 1 }
      else if index = 1 then { x with doe := .discovery 1 1 0 } else { x with doe := .discovery 0xFFFF 0 0 })

end Sys2Proof.Machine
end

