-- ==== Sys2Proof/Machine/Management.lean ====
section
/-! DEFINITION. The management port (PLDM types 0, 2 and 5; R470, R482, R518) and the test access port (R318-R320, R520). -/

namespace Sys2Proof.Machine

/-! ### Answers to the BMC -/

/-- PLDM completion codes; their numbers are PLDM's, not this manual's (notes/assumptions, row 21): success, error, invalid
data, not ready. -/
def pldmOk : Nat := 0x00
/-- ERROR. -/
def pldmError : Nat := 0x01
/-- ERROR_INVALID_DATA. -/
def pldmInvalid : Nat := 0x02
/-- ERROR_NOT_READY. -/
def pldmNotReady : Nat := 0x04
/-- INVALID_PLDM_TYPE. -/
def pldmBadType : Nat := 0x83
/-- NOT_IN_UPDATE_MODE. -/
def pldmNoUpdate : Nat := 0x80
/-- ALREADY_IN_UPDATE_MODE. -/
def pldmInUpdate : Nat := 0x81
/-- INVALID_STATE_FOR_COMMAND. -/
def pldmBadState : Nat := 0x84

/-- The answer to the BMC. -/
def State.tell (s : State) (x : BmcAnswer) : State := { s with mgmt := { s.mgmt with answer := x } }

/-- Whether the port answers: not at Off, under package reset, or in steps 1-2 of a start (R518). -/
def State.mgmtOpen (s : State) : Bool := !s.mgmt.silent && decide (s.start.phase ≠ .off) && decide (s.start.phase ≠ .held)

/-- A request on the management port. -/
def State.bmc (s : State) (t : Nat) (f : State → State) : Host.Outcome State Fault Refusal :=
  let s := s.atTime t
  .next (if s.mgmtOpen then f s else s)

/-- A type 2 request of device-wide effect: served by Gallery in the security states of the matching command, else
ERROR_NOT_READY (R482). -/
def State.effect (s : State) (t op : Nat) (f : State → State) : Host.Outcome State Fault Refusal :=
  s.bmc t fun s =>
    let allowed : Bool := match cmdRow op with
      | none => true
      | some r => r.security.contains s.sec.st.code
    if s.running && allowed then f s else s.tell (.done pldmNotReady)

/-! ### Type 0 -/

/-- GET_TID. -/
def execPldmGetTid (t : Nat) (s : State) : Host.Outcome State Fault Refusal := s.bmc t fun s => s.tell (.number Config.pldmTid.toNat)

/-- GET_PLDM_VERSION. -/
def execPldmGetVersion (t : Nat) (type : BitVec 8) (s : State) : Host.Outcome State Fault Refusal :=
  s.bmc t fun s => s.tell (if [0, 2, 5].contains type.toNat then .number (Config.pldmVersion type.toNat).toNat else .done pldmBadType)

/-- GET_PLDM_TYPES (R482). -/
def execPldmGetTypes (t : Nat) (s : State) : Host.Outcome State Fault Refusal := s.bmc t fun s => s.tell (.list [0, 2, 5])

/-- GET_PLDM_COMMANDS: PLDM's codes of the commands that the manual names. -/
def execPldmGetCommands (t : Nat) (type : BitVec 8) (s : State) : Host.Outcome State Fault Refusal :=
  s.bmc t fun s => s.tell (match type.toNat with
    | 0 => .list [0x02, 0x03, 0x04, 0x05]
    | 2 => .list [0x0B, 0x11, 0x21, 0x31, 0x39]
    | 5 => .list [0x10, 0x13, 0x14, 0x15, 0x16, 0x17, 0x18, 0x1A, 0x1B, 0x1D]
    | _ => .done pldmBadType)

/-! ### Type 2 (Table 19-10) -/

/-- A sensor's reading; a die with no valid sensor has none. -/
def State.sensorValue (s : State) : PldmSensor → Option Int
  | .dieTemp d => s.dieHottest d.val
  | .power => some s.pwr.measured
  | .cap => some s.pwr.cap
  | .security => some s.sec.st.code
  | .powerState => some s.pwr.st
  | .safeState => some (b2n s.start.safe)

/-- PLDM_READ_SENSOR. -/
def execPldmReadSensor (t : Nat) (sensor : PldmSensor) (s : State) : Host.Outcome State Fault Refusal :=
  s.bmc t fun s => s.tell (if !s.running then .done pldmNotReady else match s.sensorValue sensor with
    | some v => .number v
    | none => .done pldmError)

/-- PLDM_SET_POWER_CAP: as PWR_CAP_SET (R284). -/
def execPldmSetPowerCap (t : Nat) (watts : Nat) (s : State) : Host.Outcome State Fault Refusal :=
  s.effect t 0x0701 fun s =>
    if watts < 600 ∨ 2400 < watts then s.tell (.done pldmInvalid) else (s.setCap watts).1.tell (.done pldmOk)

/-- PLDM_SET_POWER_STATE: as SET_POWER_STATE (R263, R480). -/
def execPldmSetPowerState (t : Nat) (target : Nat) (s : State) : Host.Outcome State Fault Refusal :=
  s.effect t 0x0110 fun s =>
    if 3 < target then s.tell (.done pldmInvalid)
    else if s.sec.st = .terminated then s.tell (.done (if target = 3 then pldmOk else pldmError))
    else match s.requestPower target with
      | (s, .done status _ _) => s.tell (.done (if status = stOK then pldmOk else pldmNotReady))
      | (s, .waits) => s.tell (.done pldmOk)

/-- PLDM_SET_STEWARD: writes DRM_STEWARD (R229). -/
def execPldmSetSteward (t : Nat) (partition : Nat) (s : State) : Host.Outcome State Fault Refusal :=
  s.effect t 0 fun s =>
    if 3 < partition then s.tell (.done pldmInvalid) else (s.writeSteward .bmc partition).tell (.done pldmOk)

/-- PLDM_PARTITION_RESET: as HST_PART_RESET (R234). -/
def execPldmPartitionReset (t : Nat) (partition : Nat) (s : State) : Host.Outcome State Fault Refusal :=
  s.effect t 0 fun s =>
    if 3 < partition then s.tell (.done pldmInvalid)
    else (s.writePartReset .bmc (Fin.ofNat 4 partition) 0x52450000).tell (.done pldmOk)

/-- Allocatable frames of the halves that are not lost. -/
def State.allFrames (s : State) : Nat :=
  ((allHalves.filter fun h => decide ((s.arr.get h).half ≠ .lost)).map fun h => (s.hbm.get h).allocFrames).foldl (· + ·) 0

/-- A quota of a partition changed, where its register takes the value (Tables 10-7 to 10-9). -/
def State.setQuota (s : State) (p : Fin 4) (which : QuotaKind) (v : Nat) : Option State :=
  let x := s.part p
  let set (y : Part) : Option State := if y = x then some s else some ((s.modPart p fun _ => y).oculusUpdate)
  match which with
  | .slotQuota => if v ≤ 64 then set { x with slotQuota := v } else none
  | .guarantee =>
    let others := ((allParts.filter (· ≠ p)).map fun q => (s.part q).guarantee).foldl (· + ·) 0
    if v < 2 ^ 20 ∧ others + v ≤ s.allFrames ∧ v ≤ x.limit then set { x with guarantee := v } else none
  | .limit => if v < 2 ^ 20 ∧ x.guarantee ≤ v then set { x with limit := v } else none

/-- PLDM_SET_QUOTA: Gallery opens the domain, writes and commits (R217). -/
def execPldmSetQuota (t : Nat) (partition : Fin 4) (which : QuotaKind) (value : Nat) (s : State) :
    Host.Outcome State Fault Refusal :=
  s.effect t 0 fun s => match s.setQuota partition which value with
    | none => s.tell (.done pldmInvalid)
    | some _ => (s.galleryCommit 0 fun s => (s.setQuota partition which value).getD s).tell (.done pldmOk)

/-- PLDM_LANTERN_SERVICE: Lantern × 4 + ACTION, as SERVICE_DRAIN (R283). -/
def execPldmLanternService (t : Nat) (value : Nat) (s : State) : Host.Outcome State Fault Refusal :=
  s.effect t 0x0630 fun s =>
    let l := value / 4
    let x := s.lan l
    if 8 ≤ l ∨ value % 4 = 3 then s.tell (.done pldmInvalid)
    else if 3 ≤ s.pwr.st then s.tell (.done pldmNotReady)
    else match value % 4 with
      | 0 => (s.askDrain l).tell (.done pldmOk)
      | 1 =>
        if x.shell = 1 ∨ x.present = false ∨ x.drainDone = false then s.tell (.done pldmNotReady)
        else ((if x.restoring then s else s.startRestore l).settleRestore l).tell (.done pldmOk)
      | _ => (s.abandonDrain l).tell (.done pldmOk)

/-- PLDM_POLL_EVENT: the poll's acknowledgement acknowledges its entry; the next entry in log order is returned. -/
def execPldmPollEvent (t : Nat) (ack : Option (BitVec 32)) (s : State) : Host.Outcome State Fault Refusal :=
  s.bmc t fun s =>
    if !s.running then s.tell (.done pldmNotReady)
    else
      let s := match ack with
        | none => s
        | some i => if (s.entryAt i).isSome then
            ({ s with mgmt := { s.mgmt with event := if indexFrom s.mgmt.event i then i + 1 else s.mgmt.event } } : State).ackEntry i
          else s
      match s.bel.log.find? fun e => indexFrom s.mgmt.event e.index with
      | some e => s.tell (.event e.bytes)
      | none => s.tell (.event [])

/-- PLDM_FAULT_CLEAR: refused while the entry's cause persists (R455). -/
def execPldmFaultClear (t : Nat) (index : BitVec 32) (s : State) : Host.Outcome State Fault Refusal :=
  s.effect t 0x0803 fun s => match s.entryAt index with
    | none => s.tell (.done pldmInvalid)
    | some e => if s.persists e then s.tell (.done pldmInvalid) else (s.clearEntry index).tell (.done pldmOk)

/-! ### Type 5, answered by Keep (R470) -/

/-- A step of the update, expected at one stage of the session that the BMC holds. -/
def State.update (s : State) (t stage : Nat) (f : Session → State → State) : Host.Outcome State Fault Refusal :=
  s.bmc t fun s => match s.sec.session with
    | none => s.tell (.done pldmNoUpdate)
    | some x =>
      if x.pldm = false then s.tell (.done pldmNoUpdate)
      else if s.mgmt.fdStage ≠ stage then s.tell (.done pldmBadState) else f x s

/-- The update's stage moved on, with success. -/
def State.stage (s : State) (n : Nat) : State :=
  ({ s with
    mgmt := { s.mgmt with fdStage := n },
    sec := { s.sec with session := s.sec.session.map fun (x : Session) => { x with lastUse := s.now } } } : State).tell (.done pldmOk)

/-- REQUEST_UPDATE (R470, R291): opens the one session, in the states that accept FW_UPDATE. -/
def execPldmRequestUpdate (t : Nat) (imageLen : Nat) (s : State) : Host.Outcome State Fault Refusal :=
  s.bmc t fun s =>
    if s.sec.session.isSome then s.tell (.done pldmInUpdate)
    else if s.sec.st ≠ .factory ∧ s.sec.st ≠ .locked then s.tell (.done pldmNotReady)
    else if imageLen = 0 ∨ 2 ^ 23 < imageLen then s.tell (.done pldmInvalid)
    else ({ s with sec := { s.sec with session := some ⟨1 - s.sec.runSlot, imageLen, 0, s.now, true⟩ } } : State).stage 1

/-- PASS_COMPONENT_TABLE: one component, the whole image. -/
def execPldmPassComponentTable (t : Nat) (components : Nat) (s : State) : Host.Outcome State Fault Refusal :=
  s.update t 1 fun _ s =>
    if components ≠ 1 then s.tell (.done pldmInvalid)
    else ({ s with mgmt := { s.mgmt with components := components } } : State).stage 2

/-- UPDATE_COMPONENT. -/
def execPldmUpdateComponent (t : Nat) (s : State) : Host.Outcome State Fault Refusal := s.update t 2 fun _ s => s.stage 3

/-- REQUEST_FIRMWARE_DATA: a chunk of the image is written to the inactive slot. -/
def execPldmRequestFirmwareData (t : Nat) (offset : Nat) (chunk : List Byte) (s : State) : Host.Outcome State Fault Refusal :=
  s.update t 3 fun x s =>
    if chunk = [] ∨ x.len < offset + chunk.length then s.tell (.done pldmInvalid)
    else (s.writeImage offset chunk).tell (.done pldmOk)

/-- TRANSFER_COMPLETE. -/
def execPldmTransferComplete (t : Nat) (s : State) : Host.Outcome State Fault Refusal :=
  s.update t 3 fun x s => if x.received < x.len then s.tell (.done pldmError) else s.stage 4

/-- VERIFY_COMPLETE: Keep verifies the image as FW_UPDATE ACTION 2 does (R466). -/
def execPldmVerifyComplete (t : Nat) (s : State) : Host.Outcome State Fault Refusal :=
  s.update t 4 fun x s => if s.imageGood x.slot x.len then s.stage 5 else (s.stage 2).tell (.done pldmError)

/-- APPLY_COMPLETE. -/
def execPldmApplyComplete (t : Nat) (s : State) : Host.Outcome State Fault Refusal := s.update t 5 fun _ s => s.stage 6

/-- ACTIVATE_FIRMWARE: the slot is marked for the next start. -/
def execPldmActivateFirmware (t : Nat) (s : State) : Host.Outcome State Fault Refusal :=
  s.update t 6 fun x s => ((s.markSlot x.slot).endSession).tell (.done pldmOk)

/-- GET_STATUS: the session's stage and the bytes received. -/
def execPldmGetStatus (t : Nat) (s : State) : Host.Outcome State Fault Refusal :=
  s.bmc t fun s => s.tell (.list [s.mgmt.fdStage, (s.sec.session.map (·.received)).getD 0])

/-- CANCEL_UPDATE. -/
def execPldmCancelUpdate (t : Nat) (s : State) : Host.Outcome State Fault Refusal :=
  s.bmc t fun s => match s.sec.session with
    | none => s.tell (.done pldmNoUpdate)
    | some x => if x.pldm then s.endSession.tell (.done pldmOk) else s.tell (.done pldmNoUpdate)

/-! ### Addresses (R518) -/

/-- ENDPOINT_ID_ASSIGNMENT. -/
def execEndpointIdAssignment (t : Nat) (eid : BitVec 8) (s : State) : Host.Outcome State Fault Refusal :=
  s.bmc t fun s => { s with mgmt := { s.mgmt with eid := eid } }

/-- DYNAMIC_ADDRESS_ASSIGNMENT. -/
def execDynamicAddressAssignment (t : Nat) (address : BitVec 7) (s : State) : Host.Outcome State Fault Refusal :=
  s.bmc t fun s => { s with mgmt := { s.mgmt with dynamic := some address.toNat } }

/-! ### The test access port (Table 13-7) -/

/-- The identification register: STEPPING, part number, manufacturer, 1. -/
def State.idcode (s : State) : Nat :=
  packBits [(31, 0), (28, (s.dieFuses 2).stepping.toNat % 16), (12, 0x2480), (1, 0x4E3), (0, 1)]

/-- The register that the port shifts between TDI and TDO. -/
inductive TapRegister where
  | bypass | idcode | boundary | wrappers
deriving DecidableEq, Repr

/-- The register an instruction selects (Table 13-7); HIGHZ's is not named, and is taken to be the one-bit register (DEDUCED,
notes/assumptions, row 94). Any opcode that is not listed acts as BYPASS. -/
def Jtag.register (x : Jtag) : TapRegister :=
  if x.instr = 0x01 then .idcode else if x.instr = 0x00 ∨ x.instr = 0x02 then .boundary
  else if x.instr = 0x20 then .wrappers else .bypass

/-- What the port makes of the balls: the device's own signals, the boundary-scan register, or every output in high
impedance. -/
inductive BallDrive where
  | device
  | scanned (v : BitVec 46)
  | highZ
deriving DecidableEq, Repr

/-- What drives the balls (Table 13-7). -/
def Jtag.drive (x : Jtag) : BallDrive :=
  if !x.testMode then .device else if x.instr = 0x04 then .highZ else .scanned x.bsr

/-- What lies behind DIE_SELECT (R318): the Spires' wrappers, each Spire's four Lanterns' and its stacks' test ports. -/
inductive TestPort where
  | spire (h : Half)
  | lantern (l : Nat)
  | stack (n : Nat)
deriving DecidableEq, Repr

/-- The wrappers and test ports that the path reaches while it is open: the stacks' ports, 0-31 with West's first, in FACTORY
and in Control scope (Table 19-7). -/
def State.testPorts (s : State) : List TestPort :=
  if s.jtag.path then [.spire .west, .spire .east] ++ allLans.map .lantern ++
    (if s.sec.st = .factory ∨ s.sec.st = .control then (List.range 32).map .stack else [])
  else []

/-- An instruction selected; leaving EXTEST, CLAMP or HIGHZ takes a device reset (R319). The port works in every state but
Off (R520). -/
def State.selectInstr (s : State) (instr : Nat) (f : Jtag → Jtag) : State :=
  if s.start.phase = .off then s
  else
    let leaves := s.jtag.testMode && s.jtag.instr != instr
    let s := { s with jtag := f { s.jtag with instr := instr, path := false, testMode := decide (instr = 0 ∨ instr = 3 ∨ instr = 4) } }
    if leaves then s.deviceReset 6 else s

/-- BYPASS, by its own opcode or by one that Table 13-7 does not list: the one-bit register captures zero. -/
def execJtagBypass (scan : TapScan) (s : State) : Host.Outcome State Fault Refusal :=
  .next ((s.atTime scan.time).selectInstr scan.opcode.toNat fun x => { x with captured := 0 })

/-- IDCODE. -/
def execJtagIdcode (t : Nat) (s : State) : Host.Outcome State Fault Refusal :=
  .next ((s.atTime t).selectInstr 0x01 fun x => { x with captured := BitVec.ofNat 46 s.idcode })

/-- SAMPLE_PRELOAD: the balls are captured; a preload is held for the drivers; operation is undisturbed. -/
def execJtagSamplePreload (t : Nat) (load : Option (BitVec 46)) (balls : BitVec 46) (s : State) :
    Host.Outcome State Fault Refusal :=
  .next ((s.atTime t).selectInstr 0x02 fun x => { x with captured := balls, bsr := load.getD x.bsr })

/-- EXTEST. -/
def execJtagExtest (t : Nat) (s : State) : Host.Outcome State Fault Refusal := .next ((s.atTime t).selectInstr 0x00 id)

/-- CLAMP: the balls are held, and the one-bit register is selected. -/
def execJtagClamp (t : Nat) (s : State) : Host.Outcome State Fault Refusal :=
  .next ((s.atTime t).selectInstr 0x03 fun x => { x with captured := 0 })

/-- HIGHZ. -/
def execJtagHighz (t : Nat) (s : State) : Host.Outcome State Fault Refusal := .next ((s.atTime t).selectInstr 0x04 id)

/-- DIE_SELECT: in FACTORY and DEBUG_AUTH (Table 19-7); elsewhere it acts as BYPASS. -/
def execJtagDieSelect (t : Nat) (s : State) : Host.Outcome State Fault Refusal :=
  let s := s.atTime t
  .next (if s.sec.st = .locked ∨ s.sec.st = .terminated then s.selectInstr 0xFF fun x => { x with captured := 0 }
    else s.selectInstr 0x20 fun x => { x with path := true })

/-- TAP_LEAVE_TEST_INSTRUCTION (R319): to Test-Logic-Reset, which loads IDCODE. -/
def execTapLeaveTestInstruction (t : Nat) (s : State) : Host.Outcome State Fault Refusal :=
  let s := s.atTime t
  .next (if s.jtag.testMode then s.selectInstr 0x01 fun x => { x with captured := BitVec.ofNat 46 s.idcode } else s)

end Sys2Proof.Machine
end

