-- ==== Sys2Proof/Machine/Registers.lean ====
section
/-! DEFINITION. The register file as windows see it: reads, writes by access code, the mailbox and the configuration check's
commands (chapter 9; the register tables of chapters 2, 6, 8-21). -/

namespace Sys2Proof.Machine

/-! ### Wide values and the mailbox (R212-R215) -/

/-- A wide value (Tables 8-8, 13-12, 14-13, 15-22, 16-8, 17-17, 18-10). -/
def State.wideValue (s : State) (w : WideRef) : Nat :=
  let h := halfOf w.inst
  let a := s.arr.get h
  let m := s.hbm.get h
  match w.block with
  | .drm => s.now
  | .arr => [a.wavesTotal, a.wavesLast, a.wavesRetry].getD (w.id - 1) 0
  | .hbm => [m.corrected, m.uncorrectable, m.addressErrors, m.retirementCount, m.fcHits, m.fcMisses].getD (w.id - 1) 0
  | .lan => tget 0 (s.lan w.inst).counts w.id
  | .lnk => if w.id = 2 then (s.bundle w.inst).changes else tget 0 (s.link w.inst).counts w.id
  | .fab => tget 0 s.fab.counts w.id
  | .pwr => if w.id = 1 then s.pwr.energy / 10 ^ 9 else if w.id = 0x20 then s.capTime else (s.rail (w.id - 0x10)).droops
  | .thm => [s.thm.episodes, s.throttleTime, s.thm.stops].getD (w.id - 1) 0
  | .flt =>
    let e := s.entryAt s.bel.sel
    match w.id with
    | 1 => (e.map (·.msg.code)).getD 0
    | 2 => (e.map (·.stamp)).getD 0
    | 3 => (e.map (·.repeatWord)).getD 0
    | 4 => s.bel.next.toNat
    | 5 => s.bel.notLogged
    | _ => s.bel.escalated
  | _ => 0

/-- The number of a writer's own mailbox (R212): the endpoints' 0-3, Gallery's 4, Keep's 5; the management port has none. -/
def mailboxOf : Writer → Option Nat
  | .host p => some p.val
  | .gallery => some 4
  | .keep => some 5
  | .bmc => none

/-- A mailbox. -/
def State.mbx (s : State) (k : Nat) : Mbx := tget Mbx.init s.drm.mbx k

/-- A mailbox changed. -/
def State.modMbx (s : State) (k : Nat) (f : Mbx → Mbx) : State :=
  { s with drm := { s.drm with mbx := tmod Mbx.init s.drm.mbx k f } }

/-- The wide values that a mailbox's owner can select: an endpoint those of its own table (R214), Gallery and Keep every one. -/
def State.widesOf (s : State) (k : Nat) : List WideRef :=
  if k < 4 then s.wides (Fin.ofNat 4 k) else s.wides s.drm.steward

/-- A capture (R213, R214): in one step; a code that the owner's table does not list captures zero. A value in a domain that is
down is not reachable either, and sets DOMAIN_DOWN. -/
def State.capture64 (s : State) (k : Nat) (wide : Option WideRef) : State :=
  let missed (s : State) : State := s.modMbx k fun x => { x with seq := (x.seq + 1) % 16, selErr := true, valid := true, data := 0 }
  match wide with
  | none => missed s
  | some w =>
    if !(s.widesOf k).contains w then missed s
    else if s.domainDown (domainOf w.block w.inst) then
      (s.modDom (domainOf w.block w.inst) fun x => { x with down := true }).modMbx k fun x => { x with
        seq := (x.seq + 1) % 16, selErr := false, valid := true, data := 2 ^ 64 - 1 }
    else
      s.modMbx k fun x => { x with seq := (x.seq + 1) % 16, selErr := false, valid := true, data := s.wideValue w % 2 ^ 64 }

/-- DRM_MBX_SEL written (R212-R215). -/
def execDrmMbxSel (t : Nat) (w : Writer) (wide : Option WideRef) (s : State) : Host.Outcome State Fault Refusal :=
  let s := s.atTime t
  .next (match mailboxOf w with
    | none => s
    | some k => if s.writerOpen w then s.capture64 k wide else s)

/-- A read of DRM_MBX_D3 clears VALID. -/
def State.readD3 (s : State) (k : Nat) : State := s.modMbx k fun x => { x with valid := false }

/-! ### The configuration check's commands (R211, R217, R218) -/

/-- A domain has a place in Table 9-1. -/
def knownDomain (d : Nat) : Bool := decide (d < 12)

/-- The register domain's source ID. -/
def srcDomain (d : Nat) : Nat := 0x020 + d

/-- The window offset of a register (Table 18-3's ADDRESS): its block's base in the device register window and its offset. -/
def windowOffset (b : Block) (inst off : Nat) : Nat := (Config.blockBase (blockCode b) inst).toNat - 0x01000000 + off

/-- A violation of a security lock (R6, R211): Keep's domain is the lock's, and Keep reports it too. -/
def State.keepViolation (s : State) (c : FClass) (a : Nat) : State :=
  ((s.lockStatus 1).report (srcDomain 1) c 1 a).report 0x002 .contained 1 (2 ^ 26 + a % 2 ^ 26)

/-- DRM_CFG_COMMIT written for domain 1 by another than Keep (R211). -/
def State.keepLocked (s : State) : State := s.keepViolation .contained (windowOffset .drm 0 0x180)

/-- A write of DRM_CFG_COMMIT (Table 9-5, R217): who may, which domain, and what then happens. -/
def State.cfgAccess (s : State) (w : Writer) (d : Nat) (f : State → State) : State :=
  if !s.writerOpen w then s
  else if !s.stewardWriter w then s.dropWrite w
  else if !knownDomain d then s.badValue 0
  else if d = 1 ∧ w ≠ .keep then s.keepLocked
  else if w = .keep ∧ d ≠ 1 then s
  else if w = .bmc then s
  else if (s.dom d).commitBusy then s
  else f s

/-- CFG_OPEN (R217). -/
def execCfgOpen (t : Nat) (w : Writer) (domain : Nat) (s : State) : Host.Outcome State Fault Refusal :=
  .next ((s.atTime t).cfgAccess w domain fun s => s.modDom domain fun x => { x with armed := false })

/-- CFG_COMMIT (R217): the scan begins. -/
def execCfgCommit (t : Nat) (w : Writer) (domain : Nat) (s : State) : Host.Outcome State Fault Refusal :=
  .next ((s.atTime t).cfgAccess w domain fun s => s.modDom domain fun x => { x with commitBusy := true })

/-- CFG_COMMIT_COMPLETE (R217): REF is stored and the check armed. -/
def execCfgCommitComplete (t : Nat) (domain : Nat) (s : State) : Host.Outcome State Fault Refusal :=
  let s := s.atTime t
  .next (if (s.dom domain).commitBusy then s.commitDomain domain else s)

/-- A field of an RM register: its place and the values it takes. -/
structure RmField where
  hi : Nat
  lo : Nat
  ok : Nat → Bool

/-- The lower half merged under the mask (R207). -/
def mergeRm (old w : Nat) : Nat :=
  (List.range 16).foldl (fun n i => n + (if (if bitOf w (16 + i) then bitOf w i else bitOf old i) then 2 ^ i else 0)) 0

/-- An RM write: the new value, and whether a field held a reserved code and kept its old value (R207). -/
def rmWrite (fields : List RmField) (old w : Nat) : Nat × Bool :=
  if w / 2 ^ 16 % 2 ^ 16 = 0 then (old, false)
  else
    let m := mergeRm old w
    fields.foldl (fun (a : Nat × Bool) f =>
      let v := bitsOf m f.hi f.lo
      if f.ok v then (a.1 + v * 2 ^ f.lo, a.2) else (a.1 + bitsOf old f.hi f.lo * 2 ^ f.lo, true)) (0, false)

/-- The fields of the RM registers (Tables 2-14, 6-12, 13-9, 14-12, 15-17, 17-12). -/
def rmArr : List RmField := [⟨0, 0, fun _ => true⟩]
/-- HBM_CTRL. -/
def rmHbm : List RmField := [⟨8, 8, fun _ => true⟩, ⟨3, 0, fun v => decide (v ≤ 5)⟩]
/-- LNK_BUNDLE_CTRL. -/
def rmBundle : List RmField := [⟨14, 12, fun v => decide (v ≤ 3)⟩, ⟨5, 4, fun v => decide (v ≤ 2)⟩, ⟨1, 0, fun _ => true⟩]
/-- LNK_LL_CTRL. -/
def rmLink : List RmField :=
  [⟨15, 12, fun v => decide (1 ≤ v)⟩, ⟨9, 8, fun _ => true⟩, ⟨5, 4, fun _ => true⟩, ⟨3, 1, fun v => decide (v ≤ 6)⟩]
/-- LAN_CTRL. -/
def rmLan : List RmField :=
  [⟨6, 4, fun v => decide (v ≤ 4)⟩, ⟨2, 2, fun _ => true⟩, ⟨1, 1, fun _ => true⟩, ⟨0, 0, fun _ => true⟩]
/-- PWR_CTRL. -/
def rmPwr : List RmField := [⟨15, 8, fun v => decide (120 ≤ v) && decide (v ≤ 190)⟩, ⟨7, 4, fun v => decide (v ≤ 4)⟩]

/-- A bit of a 16-bit setting inverted, where a field of the register holds it: an RZ bit has no flip-flop (R205). -/
def flipBit (fields : List RmField) (v b : Nat) : Nat :=
  if fields.any fun f => decide (f.lo ≤ b % 16) && decide (b % 16 ≤ f.hi) then Nat.xor v (2 ^ (b % 16)) else v

/-- A configuration register upset by one bit: the register with a place in the domain's list, in the list's own order. -/
def State.upsetCfg (s : State) (u : CfgUpset) : State :=
  let links := (List.range 144).filter fun k => lnkDomain k == u.domain
  let link (s : State) (i : Nat) : State :=
    let regs := links.flatMap fun k => (if k < 16 then [(k, true)] else []) ++ [(k, false)]
    match regs[i]? with
    | some (k, true) => s.modBundle k fun x => { x with ctrl := flipBit rmBundle x.ctrl u.bit }
    | some (k, false) => s.modLink k fun x => { x with ctrl := flipBit rmLink x.ctrl u.bit }
    | none => s
  if u.domain = 0 then
    if u.index < 12 then
      let p := Fin.ofNat 4 (u.index / 3)
      s.modPart p fun x =>
        if u.index % 3 = 0 then { x with slotQuota := Nat.xor x.slotQuota (2 ^ (u.bit % 7)) }
        else if u.index % 3 = 1 then { x with guarantee := Nat.xor x.guarantee (2 ^ (u.bit % 20)) }
        else { x with limit := Nat.xor x.limit (2 ^ (u.bit % 20)) }
    else if u.index = 12 then s.modPwr fun x => { x with ctrl := flipBit rmPwr x.ctrl u.bit }
    else link s (u.index - 13)
  else if u.domain = 2 ∨ u.domain = 3 then
    let h := halfOf (u.domain - 2)
    if u.index = 0 then s.modArr h fun x => { x with remapEn := !x.remapEn }
    else if u.index = 1 then (s.modHbm h fun x => { x with ctrl := flipBit rmHbm x.ctrl u.bit }).gateFar h
    else link s (u.index - 2)
  else if 4 ≤ u.domain ∧ u.domain < 12 then s.modLan (u.domain - 4) fun x => { x with ctrl := flipBit rmLan x.ctrl u.bit }
  else s

/-- One domain's scan (R216, R218): LIVE, compared with REF while the check is armed. The security configuration registers
are laid out nowhere: an upset of one changes LIVE to a value not stated (row 3). -/
def State.scanDomain (s : State) (keepUpset : Bool) (d : Nat) : State :=
  if s.domainDown d then s
  else
    let v := if d = 1 ∧ keepUpset then (Config.freeValue s.free).setWidth 32 else s.liveOf d
    let bad := (s.dom d).armed && (decide (v ≠ (s.dom d).ref) || (decide (d = 1) && keepUpset))
    let s := s.modDom d fun x => { x with live := v, armed := x.armed && !bad, crcBad := x.crcBad || bad }
    if bad then s.report (srcDomain d) (if d = 1 then .fatal else .contained) 3 v.toNat else s

/-- CFG_SCAN (R216, R218): every 100 µs, after an upset of one bit where there was one. -/
def execCfgScan (t : Nat) (upset : Option CfgUpset) (s : State) : Host.Outcome State Fault Refusal :=
  let s := s.atTime t
  let s := match upset with
    | some u => s.upsetCfg u
    | none => s
  let keep : Bool := match upset with
    | some u => u.domain == 1
    | none => false
  let f := (List.range 12).foldl (fun s d => s.scanDomain keep d) s
  .next (if s.running then { f with free := f.free + 1 } else s)

/-! ### Values of the registers -/

/-- Frames of a partition still being zeroed in halves that are not lost. -/
def State.zeroingOf (s : State) (p : Fin 4) : Bool :=
  allHalves.any fun h => decide ((s.arr.get h).half ≠ .lost) && (s.hbm.get h).use.any fun e => match e.2 with
    | .zeroing q => q == p
    | _ => false

/-- A partition-register block (Tables 10-6 to 10-13). -/
def State.readHst (s : State) (p : Fin 4) (off : Nat) : Option Nat :=
  let x := s.part p
  match off with
  | 0x000 => some (packBits [(16, x.gen.toNat), (10, b2n (s.zeroingOf p)), (9, b2n x.resetting), (8, b2n (s.isSteward p)),
      (0, s.slotsOf p)])
  | 0x004 => some x.slotQuota
  | 0x008 => some x.guarantee
  | 0x00C => some x.limit
  | 0x010 => some x.bar2
  | 0x014 => some (packBits [(16, satTo 65535 x.unmapped), (0, satTo 65535 x.dropped)])
  | 0x018 => some (satTo 0xFFFFFFFF x.stale)
  | 0x020 => some 0
  | _ => none

/-- A queue pair's page (Tables 11-6 to 11-11). -/
def State.readQueue (s : State) (p : Fin 4) (q : Fin 16) (off : Nat) : Option Nat :=
  let x := s.qp p q
  match off with
  | 0x000 => some (packBits [(8, x.sizeLog2), (2, b2n x.irqEn), (1, b2n x.urgent), (0, b2n x.enable)])
  | 0x004 => some (packBits [(16, x.sqHead), (4, x.cqTail), (3, b2n x.error),
      (2, b2n (x.enable && decide (x.size - 1 ≤ x.outstanding + x.unconsumed))), (1, b2n (decide (0 < x.outstanding))),
      (0, b2n x.active)])
  | 0x008 => some (x.sqBase % 2 ^ 32)
  | 0x00C => some (x.sqBase / 2 ^ 32)
  | 0x010 => some (x.cqBase % 2 ^ 32)
  | 0x014 => some (x.cqBase / 2 ^ 32)
  | 0x040 => some 0
  | 0x080 => some 0
  | _ => none

/-- The code of a half's state (Table 20-7). -/
def HalfState.code : HalfState → Nat
  | .inService => 0
  | .orderly => 1
  | .abrupt => 2
  | .lost => 3

/-- DRM_START_STATUS (Table 20-7). -/
def State.startStatus (s : State) : Nat :=
  let x := s.start
  let kind := match x.kind with
    | .cold => 0
    | .warm => 1
    | .commissioning => 2
  packBits [(31, b2n x.done), (28, kind), (24, x.cause), (22, s.arr.west.half.code), (20, s.arr.east.half.code),
    (19, b2n x.singleHalf), (18, b2n x.paramsValid), (17, b2n x.coldRequested), (14, x.failedRun), (12, x.failedWarm)]

/-- A domain's status word (Table 9-6). -/
def Dom.status (x : Dom) : Nat :=
  packBits [(9, b2n x.commitBusy), (8, b2n x.armed), (5, b2n x.down), (4, b2n x.stall), (3, b2n x.crcBad), (2, b2n x.badValue),
    (1, b2n x.accessErr), (0, b2n x.lockViol)]

/-- The DRM_ block (Tables 9-2 to 9-8, 10-14, 20-7, 20-8, 21-6). -/
def State.readDrm (s : State) (p : Fin 4) (off : Nat) : Option Nat :=
  let m := s.mbx p.val
  if 0x200 ≤ off ∧ off < 0x2C0 then
    let d := (off - 0x200) / 16
    match off % 16 with
    | 0x0 => some (s.dom d).status
    | 0x4 => some (s.dom d).live.toNat
    | 0x8 => some (s.dom d).ref.toNat
    | _ => none
  else match off with
  | 0x040 => some s.drm.steward.val
  | 0x044 => some s.startStatus
  | 0x048 => some 0
  | 0x050 => some (packBits [(2, b2n s.drm.tbLost), (1, b2n s.drm.tbPresent), (0, b2n s.drm.tbSource)])
  | 0x100 => some 0
  | 0x104 => some (packBits [(8, m.seq), (1, b2n m.selErr), (0, b2n m.valid)])
  | 0x108 => some (bitsOf m.data 15 0)
  | 0x10C => some (bitsOf m.data 31 16)
  | 0x110 => some (bitsOf m.data 47 32)
  | 0x114 => some (bitsOf m.data 63 48)
  | 0x180 => some 0
  | _ => none

/-- Whether a half's array has an operation in it: one that takes waves, of which the half has a share, or drafter work ahead of
VERIFY. An array that has drained for the other half's reset holds none (R39). -/
def State.arrayBusy (s : State) (h : Half) : Bool := s.halfUp h && (match s.eng.run with
  | none => false
  | some r => r.aheadOfVerify || (match r.cur with
    | none => false
    | some o => o.pausedFor.isNone && ((o.desc.kind == kMatmul && decide (0 < s.share o.desc.n h)) ||
        (o.desc.kind == kAttend && !(s.kvHeadsOf o.desc h).isEmpty))))

/-- The ARR_ block (Tables 2-9 to 2-14). -/
def State.readArr (s : State) (h : Half) (off : Nat) : Option Nat :=
  let a := s.arr.get h
  let slow (i : Nat) : Nat := satTo 65535 (tget 0 a.sent i)
  match off with
  | 0x000 => some (packBits [(22, b2n a.lastFailed.isSome), (16, a.lastFailed.getD 0),
      (12, b2n a.sentinelWarn), (11, b2n (decide (a.half = .lost))),
      (10, b2n (s.halfUp h && s.eng.run.any Run.aheadOfVerify)), (4, a.bound.length), (2, a.spareState),
      (1, b2n (s.eng.run.any fun r => !(r.ahead.get h).isEmpty)), (0, b2n (s.arrayBusy h))])
  | 0x004 => some (a.mask .failed)
  | 0x008 => some (packBits [(12, satTo 4095 a.target), (0, satTo 4095 a.measured)])
  | 0x010 => some a.sentSel
  | 0x014 => some (if 33 ≤ a.sentSel then 0
      else packBits [(25, b2n (decide (a.col a.sentSel = .reserve))), (24, b2n (decide (800 < slow a.sentSel))), (0, slow a.sentSel)])
  | 0x020 => some (b2n a.remapEn)
  | _ => none

/-- The HBM_ block (Tables 6-10 to 6-12). Whether a scrub pass is in progress is a free value while scrub is on (row 3). -/
def State.readHbm (s : State) (h : Half) (off : Nat) : Option Nat :=
  let x := s.hbm.get h
  match off with
  | 0x000 => some (packBits [(16, satTo 255 x.fencedPcs.length), (8, x.slotsFree.length), (7, b2n (!x.retirePending.isEmpty)),
      (6, b2n (!x.fencePending.isEmpty)), (5, b2n (!x.relocating.isEmpty)), (4, b2n x.selfRefresh),
      (3, b2n ((List.range 16).any fun k => decide (1360 < x.temp k))),
      (2, b2n (decide (x.ctrl % 16 ≠ 0) && !x.selfRefresh && Config.freeBool (s.free + 1)))])
  | 0x004 => some (packBits [(16, x.sparesFree), (0, satTo 65535 x.retired)])
  | 0x010 => some x.ctrl
  | _ => none

/-- The code of a lane's role (Table 13-11). -/
def LaneRole.code : LaneRole → Nat
  | .idle => 0
  | .service => 1
  | .spare => 2
  | .failed => 3
  | .fused => 4

/-- The LNK_ block of a bundle or a port (Tables 13-8 to 13-11, 14-9 to 14-12). -/
def State.readLnk (s : State) (k off : Nat) : Option Nat :=
  let x := s.link k
  let b := s.bundle k
  let stall (v : Nat) : Bool := decide (tget 0 x.credits v = 0) && x.queue.any fun e => e.vc == v
  match off with
  | 0x000 => if 16 ≤ k then none else some (packBits [(24, b.st), (23, b2n b.txAsleep), (22, b2n b.rxAsleep), (20, b.speed),
      (16, min 4 (b.withRole .spare).length), (8, b.lastFailed.getD 0xFF), (0, b.width)])
  | 0x010 => if 16 ≤ k then none else some b.ctrl
  | 0x020 => if 16 ≤ k then none else some b.laneSel
  | 0x024 => if 16 ≤ k then none else some (if lanesOf k ≤ b.laneSel then 0
      else
        let l := b.lane b.laneSel
        packBits [(29, l.role.code), (22, l.logical), (16, l.slip), (12, l.ctle), (0, b.fomOf b.laneSel)])
  | 0x100 => some (packBits [(16, satTo 1536 x.unacked.length), (12, satTo 15 x.fails),
      (8, b2n (stall 0) + 2 * b2n (stall 1) + 4 * b2n (stall 2) + 8 * b2n (stall 3)),
      (7, b2n (decide (x.st = 3) && (!x.queue.isEmpty || !x.unacked.isEmpty))), (6, b2n (decide (1536 ≤ x.unacked.length))),
      (5, b2n x.replayAt.isSome), (4, b2n x.afterRetrain), (0, x.st)])
  | 0x104 => some (packBits [(16, x.oldest), (0, x.nextTx)])
  | 0x108 => some (packBits [(16, x.rxLastCmd.getD 0), (0, x.nextRx)])
  | 0x110 => some x.ctrl
  | _ => none

/-- SVC_LED's pattern (Table 15-12): steady while every fibre is dark outside a drain too (a shell opened, a thermal stop); off in
reset, where the register holds its reset value. -/
def Lantern.led (x : Lantern) : Nat :=
  if x.fenced then 2 else if x.restoring then 3 else if x.drainDone then 2 else if x.drain.isSome then 1
  else if x.held then 0 else if x.dark then 2
  else if allPorts.any fun p => (x.port p).light == lightReady || (x.port p).light == lightRamp then 3 else 0

/-- The LAN_ block (Tables 15-15 to 15-21). -/
def State.readLan (s : State) (l off : Nat) : Option Nat :=
  let x := s.lan l
  match off with
  | 0x000 => some (packBits [(24, x.modules.length), (19, b2n x.fenced), (18, b2n x.stop), (12, (x.swap.map (·.wave)).getD 0),
      (11, b2n x.swap.isSome), (10, b2n x.gap.isSome), (4, x.gapLambda)])
  | 0x004 => some (packBits [(6, x.led), (4, x.shell), (3, b2n x.drainDone), (2, b2n x.button), (1, b2n x.present), (0, b2n x.parapet)])
  | 0x010 => some x.ctrl
  | 0x020 => some x.lambdaSel
  | 0x024 => some (if 18 ≤ x.lambdaSel then 0
      else
        let y := x.laser x.lambdaSel
        packBits [(29, y.st), (28, b2n y.warn), (24, y.target % 16), (16, s.biasPct l x.lambdaSel), (0, codeOf 16 y.delta)])
  | 0x028 => some x.portSel
  | 0x02C =>
    let y := x.port x.portSel
    some (packBits [(29, y.light), (24, (wavesOf y.rx).length), (16, (wavesOf y.tx).length), (0, y.tx % 2 ^ 16)])
  | _ => none

/-- The FAB_ block (Tables 16-5 to 16-7). -/
def State.readFab (s : State) (off : Nat) : Option Nat :=
  match off with
  | 0x000 => some (packBits [(24, b2n (!s.fab.held.isEmpty)),
      (16, (allLans.map fun l => (s.upPorts l).length).foldl (· + ·) 0), (15, b2n s.fab.devId.isSome), (0, s.fab.devId.getD 0)])
  | 0x010 => some s.fab.routeSel
  | 0x014 => some (if 20480 ≤ s.fab.routeSel then 0 else tget 0 s.fab.routes s.fab.routeSel % 2 ^ 16)
  | _ => none

/-- The PWR_ block (Tables 17-10 to 17-14). -/
def State.readPwr (s : State) (off : Nat) : Option Nat :=
  let x := s.pwr
  let dies := (List.range 11).map s.die
  let hot := !s.hbm.west.atLimit.isEmpty || !s.hbm.east.atLimit.isEmpty
  match off with
  | 0x000 => some (packBits [(20, x.cap), (14, b2n x.stop), (13, b2n (dies.any (·.conservative))), (12, b2n s.eng.hold),
      (11, b2n x.capLimited), (10, b2n (hot || dies.any fun d => d.throttle || d.limit.isSome)), (9, b2n (dies.any (·.rise))),
      (8, b2n (x.hbmCapped || hot)), (6, s.led.st), (0, x.st)])
  | 0x004 => some (satTo 4095 x.measured)
  | 0x010 => some x.ctrl
  | 0x020 => some x.railSel
  | 0x024 => some (if 14 ≤ x.railSel then 0
      else
        let r := s.rail x.railSel
        if !s.watched x.railSel then packBits [(30, 2)]
        else packBits [(30, b2n r.below), (16, satTo 4095 r.mv), (0, satTo 65535 r.deciAmps)])
  | _ => none

/-- The THM_ block (Tables 17-15, 17-16). -/
def State.readThm (s : State) (off : Nat) : Option Nat :=
  let d := bitsOf s.thm.sel 11 8
  let i := bitsOf s.thm.sel 5 0
  match off with
  | 0x000 => some s.thm.sel
  | 0x004 => some (if 11 ≤ d ∨ sensorsOf d ≤ i then 0
      else
        let broken := (s.die d).broken.contains i
        match if s.dieOff d then none else (s.die d).temps[i]? with
        | some v => packBits [(31, 1), (30, b2n broken), (0, temp16 v)]
        | none => packBits [(30, b2n broken), (0, 0x8000)])
  | _ => none

/-- FLT_ENTRY (Table 18-9). -/
def State.fltEntry (s : State) : Nat := match s.entryAt s.bel.sel with
  | none => 0
  | some e => packBits [(31, 1), (29, e.msg.cls.code), (28, b2n (s.persists e)), (27, b2n e.injected), (1, b2n (!e.cleared)),
      (0, b2n (!e.acked))]

/-- The FLT_ block (Tables 18-7 to 18-9). -/
def State.readFlt (s : State) (p : Fin 4) (off : Nat) : Option Nat := match off with
  | 0x000 => some (s.fltStatus p)
  | 0x010 => some s.bel.sel.toNat
  | 0x014 => some s.fltEntry
  | _ => none

/-- The SEC_ block (Table 19-11). -/
def State.readSec (s : State) (off : Nat) : Option Nat :=
  let x := s.sec
  if off = 0 then some (packBits [(18, x.svnMin), (12, x.runSvn), (11, b2n x.terminatePending), (10, b2n x.session.isSome),
    (9, x.runSlot), (8, x.nextSlot), (7, b2n x.challenge.isSome), (4, x.st.code), (1, b2n x.rollback), (0, b2n x.keysPresent)])
  else none

/-- The value of a register at an offset of a block, as an endpoint's window reads it; none where no register is defined
(R205). -/
def State.regValue (s : State) (p : Fin 4) (b : Block) (inst off : Nat) : Option Nat := match b with
  | .drm => s.readDrm p off
  | .arr => s.readArr (halfOf inst) off
  | .tst => none
  | .hbm => s.readHbm (halfOf inst) off
  | .lan => s.readLan inst off
  | .lnk => s.readLnk inst off
  | .fab => s.readFab off
  | .pwr => s.readPwr off
  | .thm => s.readThm off
  | .flt => s.readFlt p off
  | .sec => s.readSec off
  | .ocu => none
  | .hst => s.readHst (Fin.ofNat 4 inst) off
  | .hstQ => none

/-- The registers that a window which is not the steward's reaches (Table 10-4). -/
def named (b : Block) (off : Nat) : Bool := match b with
  | .drm => off == 0x044 || decide (0x100 ≤ off ∧ off ≤ 0x114) || decide (0x200 ≤ off ∧ off < 0x2C0)
  | .arr => decide (off ≤ 0x008)
  | .hbm => decide (off ≤ 0x004)
  | .thm => true
  | .pwr => true
  | .lan => decide (off ≤ 0x004)
  | .fab => off == 0
  | .flt => off == 0
  | _ => false

/-! ### Reads (R200, R203, R205) -/

/-- The answer of the register bus: a 32-bit value and the bytes asked for. -/
def State.answerReg (s : State) (v off width : Nat) : State :=
  let n := if width = 8 then 1 else if width = 16 then 2 else 4
  { s with bus := ⟨BitVec.ofNat 32 v, slice (leBytes 4 v) (off % 4) n, false, false, false⟩ }

/-- A read through a block of the window: a domain that is down answers all ones at once, a crossing past its bound all ones
with its fault. -/
def State.readBlock (s : State) (p : Fin 4) (b : Block) (inst off width : Nat) (cross : Crossing) : State :=
  let reg := off / 4 * 4
  let d := domainOf b inst
  match if s.isSteward p || named b reg then s.regValue p b inst reg else none with
  | none => s.answerReg 0 off width
  | some v =>
    if s.domainDown d then (s.modDom d fun x => { x with down := true }).answerReg 0xFFFFFFFF off width
    else if d ≠ 0 ∧ cross ≠ .inTime then
      ((s.modDom d fun x => { x with stall := true }).report (srcDomain d) .contained 2 (windowOffset b inst reg)).answerReg
        0xFFFFFFFF off width
    else
      let s := if b = .drm ∧ reg = 0x114 then s.readD3 p.val else s
      ({ s with free := s.free + 2 } : State).answerReg v off width

/-- One of an MSI-X table's words: address, upper address, data, vector control. -/
def MsixVec.word (x : MsixVec) (i : Nat) : Nat := match i with
  | 0 => x.addr % 2 ^ 32
  | 1 => x.addr / 2 ^ 32
  | 2 => x.data
  | _ => b2n x.masked

/-- A read of at most 32 bits at a place of BAR0 (Table 10-3); before a start has completed only the Oculus header reads
anything but zero (R491). -/
def State.readAt (s : State) (p : Fin 4) (target : Target) (width : Nat) (cross : Crossing) : State :=
  let port := s.port p
  if port.width = 0 ∨ port.d3 = true ∨ s.start.phase = .off ∨ s.start.phase = .held then s.answerUnsupported
  else match target with
    | .oculus off => s.answerReg (le (slice (s.oculus p) (off / 4 * 4) 4) 0 4) off width
    | _ =>
      if !s.running then s.answerReg 0 0 width
      else match target with
        | .ownPart off => s.answerReg ((s.readHst p (off / 4 * 4)).getD 0) off width
        | .queue q off => s.answerReg ((s.readQueue p q (off / 4 * 4)).getD 0) off width
        | .msixTable off => s.answerReg (if off < 512 then (tget MsixVec.init port.msix (off / 16)).word (off / 4 % 4) else 0) off width
        | .msixPba off => s.answerReg (if off < 4 then port.pba else 0) off width
        | .block b inst off => s.readBlock p b inst off width cross
        | _ => s.answerReg 0 0 width

/-- The place four bytes on. -/
def nextPlace : Target → Target
  | .block b inst off => .block b inst (off + 4)
  | .ownPart off => .ownPart (off + 4)
  | .queue q off => .queue q (off + 4)
  | .oculus off => .oculus (off + 4)
  | .msixTable off => .msixTable (off + 4)
  | .msixPba off => .msixPba (off + 4)
  | .outside off => .outside (off + 4)
  | .galleryCode off => .galleryCode (off + 4)
  | .bar0 off => .bar0 (off + 4)

/-- What an offset of an endpoint's BAR0 names (Table 10-3, R224): the fixed regions, then, in the device register window, the
block whose BLOCK record holds it (R187, R205). -/
def State.bar0Place (s : State) (p : Fin 4) : Target → Target
  | .bar0 off =>
    if off < 0x10000 then .oculus off
    else if off < 0x20000 then .ownPart (off - 0x10000)
    else if off < 0xF0000 then .outside off
    else if off < 0xF8000 then .msixTable (off - 0xF0000)
    else if off < 0x100000 then .msixPba (off - 0xF8000)
    else if off < 0x110000 then .queue (Fin.ofNat 16 ((off - 0x100000) / 0x1000)) (off % 0x1000)
    else if off < 0x1000000 then .outside off
    else match (allBlocks.flatMap fun b => (List.range (blockCount b)).map fun i => (b, i)).find? fun x =>
        decide ((Config.blockBase (blockCode x.1) x.2).toNat ≤ off) &&
        decide (off < (Config.blockBase (blockCode x.1) x.2).toNat + (Config.blockSize (blockCode x.1)).toNat) &&
        (s.isSteward p || reached x.1) with
      | some x => .block x.1 x.2 (off - (Config.blockBase (blockCode x.1) x.2).toNat)
      | none => .outside off
  | x => x

/-- REGISTER_READ (R200, R203, R205): a 64-bit read is two 32-bit reads, the lower address first. -/
def execRegisterRead (t : Nat) (port : Fin 4) (target : Target) (width : Nat) (cross : Crossing) (s : State) :
    Host.Outcome State Fault Refusal :=
  let s := s.atTime t
  .next (if width = 64 then
    let a := s.readAt port (s.bar0Place port target) 32 cross
    let b := a.readAt port (nextPlace (s.bar0Place port target)) 32 cross
    { b with bus := { b.bus with value := a.bus.value, bytes := a.bus.bytes ++ b.bus.bytes } }
  else s.readAt port (s.bar0Place port target) width cross)

/-- DRM_MBX_D3_READ (R213): through an endpoint's window, or by Gallery or Keep from its own mailbox (R212). -/
def execDrmMbxD3Read (t : Nat) (w : Writer) (s : State) : Host.Outcome State Fault Refusal :=
  let s := s.atTime t
  .next (match w with
    | .host p => s.readAt p (.block .drm 0 0x114) 32 .inTime
    | _ => match mailboxOf w with
      | none => s
      | some k => if s.running then (s.readD3 k).answerReg (bitsOf (s.mbx k).data 63 48) 0x114 32 else s)

/-! ### Writes (R200, R205-R208) -/

/-- An RM register of a domain written. -/
def State.writeRm (s : State) (d : Nat) (fields : List RmField) (old w : Nat) (set : Nat → State) : State :=
  let r := rmWrite fields old w
  if r.2 then (set r.1).badValue d else if r.1 = old then s else set r.1

/-- A quota register written (Tables 10-7 to 10-9). -/
def State.writeQuota (s : State) (p : Fin 4) (which : QuotaKind) (v : Nat) : State :=
  (s.setQuota p which v).getD (s.badValue 0)

/-- A partition-register block written: quotas by the steward's side alone, the aperture base by the partition too (R230). -/
def State.writeHst (s : State) (w : Writer) (p : Fin 4) (off v : Nat) : State :=
  let steward (f : State → State) : State := if s.stewardWriter w then f s else s.dropWrite w
  match off with
  | 0x004 => steward fun s => s.writeQuota p .slotQuota (v % 2 ^ 7)
  | 0x008 => steward fun s => s.writeQuota p .guarantee (v % 2 ^ 20)
  | 0x00C => steward fun s => s.writeQuota p .limit (v % 2 ^ 20)
  | 0x010 => if v % 2 ^ 20 ≤ 1015808 then s.modPart p fun x => { x with bar2 := v % 2 ^ 20 } else s.badValue 0
  | 0x020 => s.writePartReset w p v
  | _ => s

/-- A ring base's half written: only while the queue pair is quiesced (R256). -/
def State.writeBase (s : State) (p : Fin 4) (q : Fin 16) (sq hi : Bool) (v : Nat) : State :=
  let x := s.qp p q
  let old := if sq then x.sqBase else x.cqBase
  let new := if hi then v % 2 ^ 32 * 2 ^ 32 + old % 2 ^ 32 else old / 2 ^ 32 * 2 ^ 32 + v % 2 ^ 32 / 4096 * 4096
  if new = old then s
  else if x.active then s.badValue 0
  else s.modQp p q fun y => if sq then { y with sqBase := new } else { y with cqBase := new }

/-- A queue page written (R255, R256). -/
def State.writeQueue (s : State) (p : Fin 4) (q : Fin 16) (off v : Nat) : State := match off with
  | 0x000 => s.writeQCtrl p q v
  | 0x008 => s.writeBase p q true false v
  | 0x00C => s.writeBase p q true true v
  | 0x010 => s.writeBase p q false false v
  | 0x014 => s.writeBase p q false true v
  | 0x040 => s.writeTail p q v
  | 0x080 => s.writeHead p q v
  | _ => s

/-- The bits of DRM_DOM_STATUS that writing 1 clears (R220): by the steward, for domain 1 by Keep. CRC_MISMATCH stays while
the domain is not armed. -/
def State.clearStatus (s : State) (w : Writer) (d v : Nat) : State :=
  if d = 1 ∧ w ≠ .keep then s
  else s.modDom d fun x => { x with
    down := x.down && !bitOf v 5, stall := x.stall && !bitOf v 4, crcBad := x.crcBad && (!bitOf v 3 || !x.armed),
    badValue := x.badValue && !bitOf v 2, accessErr := x.accessErr && !bitOf v 1, lockViol := x.lockViol && !bitOf v 0 }

/-- DRM_CFG_COMMIT written as a register (Table 9-5). A write that names domain 1 violates Keep's lock whatever its action
(R211). -/
def State.writeCommit (s : State) (w : Writer) (v : Nat) : State :=
  let d := v % 256
  if d = 1 ∧ w ≠ .keep then s.cfgAccess w d fun s => s
  else match bitsOf v 9 8 with
  | 0 => s.cfgAccess w d fun s => s
  | 1 => s.cfgAccess w d fun s => s.modDom d fun x => { x with armed := false }
  | 2 => s.cfgAccess w d fun s => s.modDom d fun x => { x with commitBusy := true }
  | _ => if !s.stewardWriter w then s.dropWrite w else s.badValue 0

/-- The wide value that a select code names (R214). -/
def State.wideOf (s : State) (k code : Nat) : Option WideRef :=
  (s.widesOf k).find? fun w => (Config.wideSelect (blockCode w.block) w.inst w.id).toNat == code

/-- The DRM_ block written. -/
def State.writeDrm (s : State) (w : Writer) (off v : Nat) : State :=
  if 0x200 ≤ off ∧ off < 0x2C0 then (if off % 16 = 0 then s.clearStatus w ((off - 0x200) / 16) v else s)
  else match off with
  | 0x040 => s.writeSteward w v
  | 0x048 => s.writeResetCtrl w v
  | 0x100 => match mailboxOf w with
    | some k => s.capture64 k (s.wideOf k (v % 2 ^ 16))
    | none => s
  | 0x180 => s.writeCommit w v
  | _ => s

/-- A block's register written, by its access code. -/
def State.writeReg (s : State) (w : Writer) (b : Block) (inst off v : Nat) : State :=
  let h := halfOf inst
  let d := domainOf b inst
  match b, off with
  | .drm, _ => s.writeDrm w off v
  | .arr, 0x010 => s.modArr h fun x => { x with sentSel := v % 64 }
  | .arr, 0x020 => s.writeRm d rmArr (b2n (s.arr.get h).remapEn) v fun n => s.modArr h fun x => { x with remapEn := decide (n = 1) }
  | .hbm, 0x010 => s.writeRm d rmHbm (s.hbm.get h).ctrl v fun n => (s.modHbm h fun x => { x with ctrl := n }).gateFar h
  | .lan, 0x010 => s.writeRm d rmLan (s.lan inst).ctrl v fun n => s.modLan inst fun x => { x with ctrl := n }
  | .lan, 0x020 => s.modLan inst fun x => { x with lambdaSel := v % 32 }
  | .lan, 0x028 => s.modLan inst fun x => { x with portSel := v % 16 }
  | .lnk, 0x010 => if 16 ≤ inst then s
      else s.writeRm d rmBundle (s.bundle inst).ctrl v fun n => s.modBundle inst fun x => { x with ctrl := n }
  | .lnk, 0x020 => if 16 ≤ inst then s else s.modBundle inst fun x => { x with laneSel := v % 128 }
  | .lnk, 0x110 => s.writeRm d rmLink (s.link inst).ctrl v fun n => s.modLink inst fun x => { x with ctrl := n }
  | .fab, 0x010 => s.modFab fun x => { x with routeSel := v % 2 ^ 15 }
  | .pwr, 0x010 => s.writeRm d rmPwr s.pwr.ctrl v fun n => s.modPwr fun x => { x with ctrl := n }
  | .pwr, 0x020 => s.modPwr fun x => { x with railSel := v % 16 }
  | .thm, 0x000 => s.modThm fun x => { x with sel := bitsOf v 11 8 * 2 ^ 8 + bitsOf v 5 0 }
  | .flt, 0x010 => s.modBel fun x => { x with sel := BitVec.ofNat 32 v }
  | .flt, 0x014 => s.writeFltEntry w v
  | .hst, _ => s.writeHst w (Fin.ofNat 4 inst) off v
  | _, _ => s

/-- A narrow write is ignored and noted in the domain (R200). -/
def State.accessErr (s : State) (d : Nat) : State := s.modDom d fun x => { x with accessErr := true }

/-- A write through a block of the window. One through a read-only window is dropped, but for the endpoint's mailbox registers
(R206), of which the select alone takes it; a narrow one is ignored; a domain that is down ignores it; a crossing past its
bound completes with its fault. -/
def State.writeBlock (s : State) (w : Writer) (b : Block) (inst off width v : Nat) (cross : Crossing) : State :=
  let d := domainOf b inst
  let own : Bool := b == .drm && decide (0x100 ≤ off) && decide (off < 0x118)
  let defined := (s.regValue 0 b inst (off / 4 * 4)).isSome
  if !s.stewardWriter w && !own then s.dropWrite w
  else if !defined then s
  else if width < 32 then s.accessErr d
  else if b == .sec && w != .keep then s
  else if s.domainDown d then s.modDom d fun x => { x with down := true }
  else match cross with
    | .inTime => s.writeReg w b inst off v
    | .late took =>
      if d = 0 then s.writeReg w b inst off v
      else
        let s := if took then s.writeReg w b inst off v else s
        (s.modDom d fun x => { x with stall := true }).report (srcDomain d) .contained 2 (windowOffset b inst off)

/-- A word of the MSI-X table written; a vector unmasked with its bit pending fires. -/
def State.writeMsix (s : State) (p : Fin 4) (off v : Nat) : State :=
  if 512 ≤ off then s
  else
    let n := off / 16
    let s := s.modPort p fun x => { x with msix := tmod MsixVec.init x.msix n fun y => match off / 4 % 4 with
      | 0 => { y with addr := y.addr / 2 ^ 32 * 2 ^ 32 + v }
      | 1 => { y with addr := v * 2 ^ 32 + y.addr % 2 ^ 32 }
      | 2 => { y with data := v }
      | _ => { y with masked := bitOf v 0 } }
    let x := s.port p
    if bitOf x.pba n && !(tget MsixVec.init x.msix n).masked then
      (s.modPort p fun y => { y with pba := y.pba - 2 ^ n }).msi p n
    else s

/-- A write to Gallery's code region, which no window maps (R462): once Keep has locked it, the violation of a security lock (R6),
fatal by R218, with Keep's domain as the lock's. What a write before that leaves there, no command shows. -/
def State.writeCode (s : State) (w : Writer) (off : Nat) : State := match w with
  | .host _ => s
  | .bmc => s
  | _ =>
    if s.sec.codeLocked then s.keepViolation .fatal (off % 2 ^ 26) else s

/-- One 32-bit write, or a narrower one, at a place. -/
def State.writeAt (s : State) (w : Writer) (target : Target) (width v : Nat) (cross : Crossing) : State :=
  match target with
  | .block b inst off => s.writeBlock w b inst off width v cross
  | .outside off => if 0x01000000 ≤ off ∧ !s.stewardWriter w then s.dropWrite w else s
  | .ownPart off => match w with
    | .host p =>
      if (s.readHst p (off / 4 * 4)).isNone then s else if width < 32 then s.accessErr 0 else s.writeHst w p off v
    | _ => s
  | .queue q off => match w with
    | .host p => if (s.readQueue p q (off / 4 * 4)).isNone then s else if width < 32 then s.accessErr 0 else s.writeQueue p q off v
    | _ => s
  | .oculus off => match w with
    | .host p => if off / 4 * 4 ≠ 0x1C then s else if width < 32 then s.accessErr 0 else s.writeOffer p v
    | _ => s
  | .msixTable off => match w with
    | .host p => if width < 32 then s else s.writeMsix p off v
    | _ => s
  | .msixPba _ => s
  | .galleryCode off => s.writeCode w off
  | .bar0 _ => s

/-- The endpoint whose BAR0 a writer's access goes through. -/
def windowOf : Writer → Fin 4
  | .host p => p
  | _ => 0

/-- REGISTER_WRITE (R5, R200, R203, R205-R210): a 64-bit write is two 32-bit writes, the lower address first. The management
port writes registers by its own commands alone. -/
def execRegisterWrite (t : Nat) (w : Writer) (target : Target) (width : Nat) (value : Dword) (cross : Crossing) (s : State) :
    Host.Outcome State Fault Refusal :=
  let s := s.atTime t
  let v := value.toNat
  let place := s.bar0Place (windowOf w) target
  .next (if !s.writerOpen w || decide (w = .bmc) then s
    else if width = 64 then
      let a := s.writeAt w place 32 (v % 2 ^ 32) cross
      if a.writerOpen w then a.writeAt w (nextPlace place) 32 (v / 2 ^ 32) cross else a
    else s.writeAt w place width (v % 2 ^ 32) cross)

end Sys2Proof.Machine
end

