-- ==== Sys2Proof/Machine/Dispatch.lean ====
section
/-! DEFINITION. One arm for each command of the table, each a direct call of its meaning. -/

namespace Sys2Proof.Machine

/-- The effect of a command on everything but the queue. -/
def exec (i : Instr) (s : State) : Host.Outcome State Fault Refusal :=
  match i with
  | .commandFetch t => Sys2Proof.Machine.execCommandFetch t s
  | .getOculus t id => Sys2Proof.Machine.execGetOculus t id s
  | .setPowerState t id => Sys2Proof.Machine.execSetPowerState t id s
  | .memAlloc t id => Sys2Proof.Machine.execMemAlloc t id s
  | .memFree t id => Sys2Proof.Machine.execMemFree t id s
  | .memCopy t id => Sys2Proof.Machine.execMemCopy t id s
  | .memFill t id => Sys2Proof.Machine.execMemFill t id s
  | .seqOpen t id => Sys2Proof.Machine.execSeqOpen t id s
  | .seqClose t id => Sys2Proof.Machine.execSeqClose t id s
  | .seqStep t id => Sys2Proof.Machine.execSeqStep t id s
  | .seqCancel t id => Sys2Proof.Machine.execSeqCancel t id s
  | .seqSave t id => Sys2Proof.Machine.execSeqSave t id s
  | .seqRestore t id => Sys2Proof.Machine.execSeqRestore t id s
  | .oplistLoad t id => Sys2Proof.Machine.execOplistLoad t id s
  | .oplistRun t id => Sys2Proof.Machine.execOplistRun t id s
  | .digestRead t id => Sys2Proof.Machine.execDigestRead t id s
  | .fabRouteSet t id => Sys2Proof.Machine.execFabRouteSet t id s
  | .fabPortState t id => Sys2Proof.Machine.execFabPortState t id s
  | .lanternStatus t id => Sys2Proof.Machine.execLanternStatus t id s
  | .laserSwap t id => Sys2Proof.Machine.execLaserSwap t id s
  | .calGapPolicy t id => Sys2Proof.Machine.execCalGapPolicy t id s
  | .serviceDrain t id => Sys2Proof.Machine.execServiceDrain t id s
  | .pwrCapSet t id => Sys2Proof.Machine.execPwrCapSet t id s
  | .thermStatus t id => Sys2Proof.Machine.execThermStatus t id s
  | .marginReport t id => Sys2Proof.Machine.execMarginReport t id s
  | .faultRead t id => Sys2Proof.Machine.execFaultRead t id s
  | .faultAck t id => Sys2Proof.Machine.execFaultAck t id s
  | .faultClear t id => Sys2Proof.Machine.execFaultClear t id s
  | .attest t id => Sys2Proof.Machine.execAttest t id s
  | .debugUnlock t id => Sys2Proof.Machine.execDebugUnlock t id s
  | .fwUpdate t id => Sys2Proof.Machine.execFwUpdate t id s
  | .laneBitslip t id => Sys2Proof.Machine.execLaneBitslip t id s
  | .laneFomRead t id => Sys2Proof.Machine.execLaneFomRead t id s
  | .faultInject t id => Sys2Proof.Machine.execFaultInject t id s
  | .factoryCommand t id => Sys2Proof.Machine.execFactoryCommand t id s
  | .hstSqTail t port qp value writes bad => Sys2Proof.Machine.execHstSqTail t port qp value writes bad s
  | .hstCqHead t port qp value => Sys2Proof.Machine.execHstCqHead t port qp value s
  | .queueEnable t port qp value => Sys2Proof.Machine.execQueueEnable t port qp value s
  | .queueDisable t port qp value => Sys2Proof.Machine.execQueueDisable t port qp value s
  | .ocuGenOffer t port value => Sys2Proof.Machine.execOcuGenOffer t port value s
  | .drmMbxSel t w wide => Sys2Proof.Machine.execDrmMbxSel t w wide s
  | .drmMbxD3Read t w => Sys2Proof.Machine.execDrmMbxD3Read t w s
  | .cfgOpen t w domain => Sys2Proof.Machine.execCfgOpen t w domain s
  | .cfgCommit t w domain => Sys2Proof.Machine.execCfgCommit t w domain s
  | .cfgCommitComplete t domain => Sys2Proof.Machine.execCfgCommitComplete t domain s
  | .cfgScan t upset => Sys2Proof.Machine.execCfgScan t upset s
  | .registerWrite t w target width value cross => Sys2Proof.Machine.execRegisterWrite t w target width value cross s
  | .goardBurst t port unmapped => Sys2Proof.Machine.execGoardBurst t port unmapped s
  | .hstPartReset t w partition value => Sys2Proof.Machine.execHstPartReset t w partition value s
  | .drmSteward t w value => Sys2Proof.Machine.execDrmSteward t w value s
  | .orderlyHalfReset t w half key => Sys2Proof.Machine.execOrderlyHalfReset t w half key s
  | .declareHalfLost t w half key => Sys2Proof.Machine.execDeclareHalfLost t w half key s
  | .singleHalfOperation t w key => Sys2Proof.Machine.execSingleHalfOperation t w key s
  | .deviceReset t w key => Sys2Proof.Machine.execDeviceReset t w key s
  | .deviceResetCold t w key => Sys2Proof.Machine.execDeviceResetCold t w key s
  | .requestColdStart t w key => Sys2Proof.Machine.execRequestColdStart t w key s
  | .withdrawColdRequest t w key => Sys2Proof.Machine.execWithdrawColdRequest t w key s
  | .fltEntryAck t w => Sys2Proof.Machine.execFltEntryAck t w s
  | .fltEntryClear t w => Sys2Proof.Machine.execFltEntryClear t w s
  | .bar2Read t port offset len upsets => Sys2Proof.Machine.execBar2Read t port offset len upsets s
  | .bar2Write t port offset bytes => Sys2Proof.Machine.execBar2Write t port offset bytes s
  | .hostLinkUp t port width rate => Sys2Proof.Machine.execHostLinkUp t port width rate s
  | .functionLevelReset t port => Sys2Proof.Machine.execFunctionLevelReset t port s
  | .hotReset t port => Sys2Proof.Machine.execHotReset t port s
  | .perstNAssert t port => Sys2Proof.Machine.execPerstNAssert t port s
  | .d3hotEntry t port => Sys2Proof.Machine.execD3hotEntry t port s
  | .frameZeroingDone t half => Sys2Proof.Machine.execFrameZeroingDone t half s
  | .runForm t => Sys2Proof.Machine.execRunForm t s
  | .matmul t peers upsets => Sys2Proof.Machine.execMatmul t peers upsets s
  | .attend t upsets => Sys2Proof.Machine.execAttend t upsets s
  | .norm t upsets => Sys2Proof.Machine.execNorm t upsets s
  | .act t upsets => Sys2Proof.Machine.execAct t upsets s
  | .rope t upsets => Sys2Proof.Machine.execRope t upsets s
  | .sample t upsets => Sys2Proof.Machine.execSample t upsets s
  | .draft t upsets => Sys2Proof.Machine.execDraft t upsets s
  | .verify t upsets => Sys2Proof.Machine.execVerify t upsets s
  | .gather t upsets => Sys2Proof.Machine.execGather t upsets s
  | .scatter t order upsets => Sys2Proof.Machine.execScatter t order upsets s
  | .copy t upsets => Sys2Proof.Machine.execCopy t upsets s
  | .xsend t upsets => Sys2Proof.Machine.execXsend t upsets s
  | .xrecv t => Sys2Proof.Machine.execXrecv t s
  | .xreduce t peers order upsets => Sys2Proof.Machine.execXreduce t peers order upsets s
  | .exactReduce t peers upsets => Sys2Proof.Machine.execExactReduce t peers upsets s
  | .digestMark t => Sys2Proof.Machine.execDigestMark t s
  | .fence t => Sys2Proof.Machine.execFence t s
  | .fenceSatisfied t => Sys2Proof.Machine.execFenceSatisfied t s
  | .fenceTimeout t => Sys2Proof.Machine.execFenceTimeout t s
  | .loop t => Sys2Proof.Machine.execLoop t s
  | .drafterIteration t => Sys2Proof.Machine.execDrafterIteration t s
  | .draftEarlyStart t => Sys2Proof.Machine.execDraftEarlyStart t s
  | .operationBoundary t => Sys2Proof.Machine.execOperationBoundary t s
  | .tileWrite t k tst => Sys2Proof.Machine.execTileWrite t k tst s
  | .slabCheckFail t half column row code k => Sys2Proof.Machine.execSlabCheckFail t half column row code k s
  | .slabStallWatchdog t half column row k => Sys2Proof.Machine.execSlabStallWatchdog t half column row k s
  | .sentinelSample t half read => Sys2Proof.Machine.execSentinelSample t half read s
  | .proactiveReserve t half column => Sys2Proof.Machine.execProactiveReserve t half column s
  | .arrRateUpdate t half measured => Sys2Proof.Machine.execArrRateUpdate t half measured s
  | .scrubPass t half upsets badTags parity => Sys2Proof.Machine.execScrubPass t half upsets badTags parity s
  | .retirePendingResolve t half => Sys2Proof.Machine.execRetirePendingResolve t half s
  | .pcRelocationDone t half => Sys2Proof.Machine.execPcRelocationDone t half s
  | .fencePendingResolve t half => Sys2Proof.Machine.execFencePendingResolve t half s
  | .hbmTempSample t stack temp limits => Sys2Proof.Machine.execHbmTempSample t stack temp limits s
  | .laneFomMeasure t bundle eyes => Sys2Proof.Machine.execLaneFomMeasure t bundle eyes s
  | .laneFailure t bundle lane cause => Sys2Proof.Machine.execLaneFailure t bundle lane cause s
  | .spareEqSweep t bundle lane eyes => Sys2Proof.Machine.execSpareEqSweep t bundle lane eyes s
  | .bundleSleep t bundle => Sys2Proof.Machine.execBundleSleep t bundle s
  | .bundleWake t bundle => Sys2Proof.Machine.execBundleWake t bundle s
  | .timeBlock t half arrived => Sys2Proof.Machine.execTimeBlock t half arrived s
  | .ucieModuleLoss t lantern module => Sys2Proof.Machine.execUcieModuleLoss t lantern module s
  | .flitTransmit t link => Sys2Proof.Machine.execFlitTransmit t link s
  | .flitReceive t link flit => Sys2Proof.Machine.execFlitReceive t link flit s
  | .ackCoalesceTimer t link => Sys2Proof.Machine.execAckCoalesceTimer t link s
  | .ackReceive t link seq => Sys2Proof.Machine.execAckReceive t link seq s
  | .nakReceive t link seq => Sys2Proof.Machine.execNakReceive t link seq s
  | .creditReport t link vc taken => Sys2Proof.Machine.execCreditReport t link vc taken s
  | .creditReceive t link vc freed => Sys2Proof.Machine.execCreditReceive t link vc freed s
  | .replayTimeout t link => Sys2Proof.Machine.execReplayTimeout t link s
  | .retrainComplete t link => Sys2Proof.Machine.execRetrainComplete t link s
  | .replayRateFault t link => Sys2Proof.Machine.execReplayRateFault t link s
  | .downRetry t link train => Sys2Proof.Machine.execDownRetry t link train s
  | .helloReceive t link fresh nextRx gen => Sys2Proof.Machine.execHelloReceive t link fresh nextRx gen s
  | .initReceive t link vc credits => Sys2Proof.Machine.execInitReceive t link vc credits s
  | .fenceNoteReceive t bundle nextRx => Sys2Proof.Machine.execFenceNoteReceive t bundle nextRx s
  | .widthReq t link cmd action lane spare => Sys2Proof.Machine.execWidthReq t link cmd action lane spare s
  | .widthSwitch t link cmd action lane seen => Sys2Proof.Machine.execWidthSwitch t link cmd action lane seen s
  | .widthDone t link cmd => Sys2Proof.Machine.execWidthDone t link cmd s
  | .ringLockUpdate t lantern ring code => Sys2Proof.Machine.execRingLockUpdate t lantern ring code s
  | .laserCheck t lantern laser bias delta freq offGrid => Sys2Proof.Machine.execLaserCheck t lantern laser bias delta freq offGrid s
  | .spareLocked t lantern spare => Sys2Proof.Machine.execSpareLocked t lantern spare s
  | .spareLockFail t lantern spare => Sys2Proof.Machine.execSpareLockFail t lantern spare s
  | .calGapStart t lantern => Sys2Proof.Machine.execCalGapStart t lantern s
  | .calGapTimeout t lantern port => Sys2Proof.Machine.execCalGapTimeout t lantern port s
  | .lambdaFail t lantern port loss => Sys2Proof.Machine.execLambdaFail t lantern port loss s
  | .modRingLockLoss t lantern port wave => Sys2Proof.Machine.execModRingLockLoss t lantern port wave s
  | .lambdaRelockAttempt t lantern port wave tx found => Sys2Proof.Machine.execLambdaRelockAttempt t lantern port wave tx found s
  | .lambdaDropTimeout t lantern port wave tx => Sys2Proof.Machine.execLambdaDropTimeout t lantern port wave tx s
  | .serCheck t lantern port wave errors symbols => Sys2Proof.Machine.execSerCheck t lantern port wave errors symbols s
  | .shellOpen t lantern => Sys2Proof.Machine.execShellOpen t lantern s
  | .shellClosed t lantern => Sys2Proof.Machine.execShellClosed t lantern s
  | .rxLightLoss t lantern port => Sys2Proof.Machine.execRxLightLoss t lantern port s
  | .beaconReceive t lantern port frame => Sys2Proof.Machine.execBeaconReceive t lantern port frame s
  | .rampTimeout t lantern port => Sys2Proof.Machine.execRampTimeout t lantern port s
  | .beaconTimeout t lantern port => Sys2Proof.Machine.execBeaconTimeout t lantern port s
  | .readyRetry t lantern port => Sys2Proof.Machine.execReadyRetry t lantern port s
  | .portRampComplete t lantern port locked => Sys2Proof.Machine.execPortRampComplete t lantern port locked s
  | .svcButtonPress t lantern => Sys2Proof.Machine.execSvcButtonPress t lantern s
  | .drainPortsEmpty t lantern => Sys2Proof.Machine.execDrainPortsEmpty t lantern s
  | .drainTimeout t lantern => Sys2Proof.Machine.execDrainTimeout t lantern s
  | .autoRestore t lantern => Sys2Proof.Machine.execAutoRestore t lantern s
  | .lanternPllUnlock t lantern => Sys2Proof.Machine.execLanternPllUnlock t lantern s
  | .lanternReturn t lantern badModules badShutter => Sys2Proof.Machine.execLanternReturn t lantern badModules badShutter s
  | .lanternReturnTimeout t lantern => Sys2Proof.Machine.execLanternReturnTimeout t lantern s
  | .lanternStopExit t lantern => Sys2Proof.Machine.execLanternStopExit t lantern s
  | .fabricMessageReceive t lantern port msg => Sys2Proof.Machine.execFabricMessageReceive t lantern port msg s
  | .routerRelease t k => Sys2Proof.Machine.execRouterRelease t k s
  | .roleNotice t dev partition gen => Sys2Proof.Machine.execRoleNotice t dev partition gen s
  | .powerSample t milliwatts voltages currents average => Sys2Proof.Machine.execPowerSample t milliwatts voltages currents average s
  | .voltageAdjust t half measured temp => Sys2Proof.Machine.execVoltageAdjust t half measured temp s
  | .telemetryTimeout t die back => Sys2Proof.Machine.execTelemetryTimeout t die back s
  | .idleEntry t => Sys2Proof.Machine.execIdleEntry t s
  | .p2Suspend t => Sys2Proof.Machine.execP2Suspend t s
  | .railBelowWarning t rail millivolts => Sys2Proof.Machine.execRailBelowWarning t rail millivolts s
  | .droopHoldRelease t => Sys2Proof.Machine.execDroopHoldRelease t s
  | .droopRate t rail => Sys2Proof.Machine.execDroopRate t rail s
  | .railBelowReset t rail millivolts => Sys2Proof.Machine.execRailBelowReset t rail millivolts s
  | .halfPllUnlock t half => Sys2Proof.Machine.execHalfPllUnlock t half s
  | .orderlyResetTimeout t half => Sys2Proof.Machine.execOrderlyResetTimeout t half s
  | .halfReturn t half report => Sys2Proof.Machine.execHalfReturn t half report s
  | .halfStartFailure t half => Sys2Proof.Machine.execHalfStartFailure t half s
  | .thermalSample t die temps => Sys2Proof.Machine.execThermalSample t die temps s
  | .throttleAdjust t half => Sys2Proof.Machine.execThrottleAdjust t half s
  | .hardTrip t die temp => Sys2Proof.Machine.execHardTrip t die temp s
  | .ledgerRecord t plan => Sys2Proof.Machine.execLedgerRecord t plan s
  | .belfryMessageArrival t msg stamp => Sys2Proof.Machine.execBelfryMessageArrival t msg stamp s
  | .belfryLog t => Sys2Proof.Machine.execBelfryLog t s
  | .belfryParity t location => Sys2Proof.Machine.execBelfryParity t location s
  | .updateSessionTimeout t => Sys2Proof.Machine.execUpdateSessionTimeout t s
  | .spdmGetVersion t port => Sys2Proof.Machine.execSpdmGetVersion t port s
  | .spdmGetCapabilities t port => Sys2Proof.Machine.execSpdmGetCapabilities t port s
  | .spdmNegotiateAlgorithms t port => Sys2Proof.Machine.execSpdmNegotiateAlgorithms t port s
  | .spdmGetDigests t port => Sys2Proof.Machine.execSpdmGetDigests t port s
  | .spdmGetCertificate t port offset len => Sys2Proof.Machine.execSpdmGetCertificate t port offset len s
  | .spdmChallenge t port nonce slow => Sys2Proof.Machine.execSpdmChallenge t port nonce slow s
  | .spdmGetMeasurements t port index sign nonce slow => Sys2Proof.Machine.execSpdmGetMeasurements t port index sign nonce slow s
  | .spdmRespondIfReady t port => Sys2Proof.Machine.execSpdmRespondIfReady t port s
  | .pldmGetTid t => Sys2Proof.Machine.execPldmGetTid t s
  | .pldmGetVersion t type => Sys2Proof.Machine.execPldmGetVersion t type s
  | .pldmGetTypes t => Sys2Proof.Machine.execPldmGetTypes t s
  | .pldmGetCommands t type => Sys2Proof.Machine.execPldmGetCommands t type s
  | .pldmReadSensor t sensor => Sys2Proof.Machine.execPldmReadSensor t sensor s
  | .pldmSetPowerCap t watts => Sys2Proof.Machine.execPldmSetPowerCap t watts s
  | .pldmSetPowerState t target => Sys2Proof.Machine.execPldmSetPowerState t target s
  | .pldmSetSteward t partition => Sys2Proof.Machine.execPldmSetSteward t partition s
  | .pldmPartitionReset t partition => Sys2Proof.Machine.execPldmPartitionReset t partition s
  | .pldmSetQuota t partition which value => Sys2Proof.Machine.execPldmSetQuota t partition which value s
  | .pldmLanternService t value => Sys2Proof.Machine.execPldmLanternService t value s
  | .pldmPollEvent t ack => Sys2Proof.Machine.execPldmPollEvent t ack s
  | .pldmFaultClear t index => Sys2Proof.Machine.execPldmFaultClear t index s
  | .pldmRequestUpdate t imageLen => Sys2Proof.Machine.execPldmRequestUpdate t imageLen s
  | .pldmPassComponentTable t components => Sys2Proof.Machine.execPldmPassComponentTable t components s
  | .pldmUpdateComponent t => Sys2Proof.Machine.execPldmUpdateComponent t s
  | .pldmRequestFirmwareData t offset chunk => Sys2Proof.Machine.execPldmRequestFirmwareData t offset chunk s
  | .pldmTransferComplete t => Sys2Proof.Machine.execPldmTransferComplete t s
  | .pldmVerifyComplete t => Sys2Proof.Machine.execPldmVerifyComplete t s
  | .pldmApplyComplete t => Sys2Proof.Machine.execPldmApplyComplete t s
  | .pldmActivateFirmware t => Sys2Proof.Machine.execPldmActivateFirmware t s
  | .pldmGetStatus t => Sys2Proof.Machine.execPldmGetStatus t s
  | .pldmCancelUpdate t => Sys2Proof.Machine.execPldmCancelUpdate t s
  | .jtagBypass scan => Sys2Proof.Machine.execJtagBypass scan s
  | .jtagIdcode t => Sys2Proof.Machine.execJtagIdcode t s
  | .jtagSamplePreload t load balls => Sys2Proof.Machine.execJtagSamplePreload t load balls s
  | .jtagExtest t => Sys2Proof.Machine.execJtagExtest t s
  | .jtagClamp t => Sys2Proof.Machine.execJtagClamp t s
  | .jtagHighz t => Sys2Proof.Machine.execJtagHighz t s
  | .jtagDieSelect t => Sys2Proof.Machine.execJtagDieSelect t s
  | .tapLeaveTestInstruction t => Sys2Proof.Machine.execTapLeaveTestInstruction t s
  | .powerOn t => Sys2Proof.Machine.execPowerOn t s
  | .packageReset t cause => Sys2Proof.Machine.execPackageReset t cause s
  | .packageResetRelease t tbref mgmtAddr => Sys2Proof.Machine.execPackageResetRelease t tbref mgmtAddr s
  | .powerOff t => Sys2Proof.Machine.execPowerOff t s
  | .tbrefLoss t => Sys2Proof.Machine.execTbrefLoss t s
  | .coldStart t report => Sys2Proof.Machine.execColdStart t report s
  | .warmStart t report => Sys2Proof.Machine.execWarmStart t report s
  | .startFailure t core => Sys2Proof.Machine.execStartFailure t core s
  | .autoDeviceReset t => Sys2Proof.Machine.execAutoDeviceReset t s
  | .trainingParamsWrite t => Sys2Proof.Machine.execTrainingParamsWrite t s
  | .calGapHoldEnd t lantern => Sys2Proof.Machine.execCalGapHoldEnd t lantern s
  | .retrainTimeout t link => Sys2Proof.Machine.execRetrainTimeout t link s
  | .d3hotExit t port => Sys2Proof.Machine.execD3hotExit t port s
  | .laserSuddenFade t lantern laser => Sys2Proof.Machine.execLaserSuddenFade t lantern laser s
  | .registerRead t port target width cross => Sys2Proof.Machine.execRegisterRead t port target width cross s
  | .endpointIdAssignment t eid => Sys2Proof.Machine.execEndpointIdAssignment t eid s
  | .dynamicAddressAssignment t address => Sys2Proof.Machine.execDynamicAddressAssignment t address s
  | .doeDiscovery t port index => Sys2Proof.Machine.execDoeDiscovery t port index s

end Sys2Proof.Machine
end

