-- ==== Sys2Proof/Safety.lean ====
section
/-! DEFINITION. What counts as a safe step, what every state of a run keeps, and what every step keeps of the state before. -/

namespace Sys2Proof

/-- A step that answers a next state. -/
def Safe (o : Host.Outcome Machine.State Machine.Fault Machine.Refusal) : Prop := ∃ s, o = .next s

namespace Machine

/-- Device memory is in its canonical form: the bytes, the poison, the stored errors and the frame maps are tables whose
keys rise and which list no default. -/
def Memory.wf (m : Memory) : Bool :=
  twf 0 m.cells && twf false m.poison && twf false m.fpoison && twf 0 m.upset && twf false m.badLoc && twf none m.fmap

/-- What holds at reset and after every step: device memory, the uses of the frames of both halves and host memory are in
the canonical form, and POWER of OCU_DEVICE_STATE holds one of its four codes (Table 8-4). -/
structure State.Ok (s : State) : Prop where
  mem : s.mem.wf = true
  west : twf .free s.hbm.west.use = true
  east : twf .free s.hbm.east.use = true
  hmem : twf 0 s.hmem = true
  power : s.pwr.st ≤ 3

/-- What an operation of the block keeps of the state before it: the queue of commands, the time base, which never steps
back (R515), the fuses, of which none is ever un-blown (R463), and the canonical forms. -/
structure State.Follows (before after : State) : Prop where
  queue : after.pending = before.pending
  time : before.now ≤ after.now
  svn : before.sec.svnMin ≤ after.sec.svnMin
  terminated : before.sec.terminated = true → after.sec.terminated = true
  production : before.sec.production = true → after.sec.production = true
  ok : before.Ok → after.Ok

/-- A command that Gallery has accepted, and that acts now: `a` is its packet, `u` the block as it finds it, at time `t`
(R246). -/
def State.Taken (s : State) (t id op : Nat) (a : Acc) (u : State) : Prop := (s.atTime t).take id op = some (a, u)

/-- The same where the packet's parameters and the resources it needs still pass stages 10 and 11 (R246). -/
def State.Ready (s : State) (t id op : Nat) (a : Acc) (u : State) : Prop := s.Taken t id op a u ∧ u.gate3 a = none

/-- A command of Keep's class at the front of Keep's queue (R253), with no other in Keep's hand: `a` is its packet, `u` the block
as it finds it, stages 6 to 11 passed. -/
def State.KeepReady (s : State) (t id op : Nat) (a : Acc) (u : State) : Prop :=
  ∃ rest, s.gal.keepQ = a :: rest ∧ a.id = id ∧ a.opcode = op ∧ (s.atTime t).keepBusy = false ∧
    u = { s.atTime t with gal := { s.gal with keepQ := rest } } ∧ u.gate2 a = none ∧ u.gate3 a = none

/-- The fields of the state, by name. -/
inductive StateField where
  | pending | now | free | bus | start | drm | fuses | bel | ports | parts | qps | gal | hmem | hbad | barHeld | mem | hbm | arr
  | slots | eng | pwr | thm | led | sec | mgmt | fab | links | bundles | lans | jtag
deriving DecidableEq, Repr

/-- A field has the same value in two states. -/
def StateField.same (s t : State) : StateField → Prop
  | .pending => t.pending = s.pending
  | .now => t.now = s.now
  | .free => t.free = s.free
  | .bus => t.bus = s.bus
  | .start => t.start = s.start
  | .drm => t.drm = s.drm
  | .fuses => t.fuses = s.fuses
  | .bel => t.bel = s.bel
  | .ports => t.ports = s.ports
  | .parts => t.parts = s.parts
  | .qps => t.qps = s.qps
  | .gal => t.gal = s.gal
  | .hmem => t.hmem = s.hmem
  | .hbad => t.hbad = s.hbad
  | .barHeld => t.barHeld = s.barHeld
  | .mem => t.mem = s.mem
  | .hbm => t.hbm = s.hbm
  | .arr => t.arr = s.arr
  | .slots => t.slots = s.slots
  | .eng => t.eng = s.eng
  | .pwr => t.pwr = s.pwr
  | .thm => t.thm = s.thm
  | .led => t.led = s.led
  | .sec => t.sec = s.sec
  | .mgmt => t.mgmt = s.mgmt
  | .fab => t.fab = s.fab
  | .links => t.links = s.links
  | .bundles => t.bundles = s.bundles
  | .lans => t.lans = s.lans
  | .jtag => t.jtag = s.jtag

/-- Every field of the state but those named is the same before and after. -/
def State.KeepsBut (s : State) (fields : List StateField) (t : State) : Prop := ∀ f : StateField, f ∉ fields → f.same s t

end Machine
end Sys2Proof
end

