-- ==== Sys2Proof/Certificates/Slice0/Obligations.lean ====
section
/-! DEFINITION. The statements for the provers. -/

open Sys2Proof Sys2Proof.Machine

/-! ### The block as a whole -/

/-- A step takes the command at the front of the queue and answers what it does to the rest of the block. With no command
waiting the block idles: the step changes nothing (the model's choice: notes/assumptions, row 1). -/
def Obligations.StepRunsFrontCommand : Prop :=
  (∀ (c : Instr) (rest : List Instr) (s : State),
    s.pending = c :: rest → step s = exec c { s with pending := rest }) ∧
  (∀ s : State, s.pending = [] → step s = .next s)

/-- Every command of the table but FACTORY_COMMAND answers a next state, in every state and with every operand; no command
ends in a fault. FACTORY_COMMAND: an accepted command of the factory class is refused, since its procedure is not in the
manual (R261); with none accepted under its number nothing happens but that time goes on. -/
def Obligations.OnlyFactoryCommandStops : Prop :=
  (∀ (c : Instr) (s : State), (∀ t id, c ≠ .factoryCommand t id) → Safe (exec c s)) ∧
  (∀ (t id : Nat) (s : State),
    ((∃ a ∈ s.gal.accepted, a.id = id ∧ 0xF000 ≤ a.opcode) →
      exec (.factoryCommand t id) s = .refused .factoryProcedure) ∧
    ((∀ a ∈ s.gal.accepted, a.id = id → a.opcode < 0xF000) →
      exec (.factoryCommand t id) s = .next (s.atTime t)))

/-- Every step keeps the canonical form of device memory, of the uses of the frames and of host memory, and POWER within its
four codes. -/
def Obligations.StepKeepsOk : Prop :=
  ∀ s t : State, s.Ok → step s = .next t → t.Ok

/-- The reset state meets the invariant that every step keeps. -/
def Obligations.ResetIsOk : Prop := State.reset.Ok

/-- A fuse is never un-blown (R463): over any step the least security version that a start accepts never falls, and the
PRODUCTION and TERMINATED fuses stay blown. -/
def Obligations.FusesArePermanent : Prop :=
  ∀ s t : State, step s = .next t →
    s.sec.svnMin ≤ t.sec.svnMin ∧ (s.sec.terminated = true → t.sec.terminated = true) ∧
      (s.sec.production = true → t.sec.production = true)

/-- A step takes exactly the front command off the queue, and the time base never steps back (R515) unless the command is
POWER_ON or POWER_OFF, with which it starts anew. -/
def Obligations.QueueAndTimeGoOn : Prop :=
  ∀ (c : Instr) (rest : List Instr) (s t : State), s.pending = c :: rest → step s = .next t →
    t.pending = rest ∧ ((∀ x, c ≠ .powerOn x) → (∀ x, c ≠ .powerOff x) → s.now ≤ t.now)

/-- What the manual gives the block at reset: a start in progress from a power-on, steward port 0, CHANGE_COUNT 1, POWER P0
with the 2,400 W cap, LOCKED, no log, no list, no run, every slot FREE and every queue pair disabled with PHASE 1. -/
def Obligations.ResetValues : Prop :=
  State.reset.pending = [] ∧ State.reset.start.phase = .starting ∧ State.reset.start.cause = 0 ∧
  State.reset.drm.steward = 0 ∧ State.reset.pwr.st = 0 ∧ State.reset.pwr.cap = 2400 ∧ State.reset.sec.st = .locked ∧
  State.reset.bel.log = [] ∧ State.reset.bel.next = 0 ∧ State.reset.eng.run = none ∧
  (∀ i, (State.reset.slot i).st = .free) ∧
  (∀ p q, (State.reset.qp p q).enable = false ∧ (State.reset.qp p q).sizeLog2 = 12 ∧ (State.reset.qp p q).phase = true) ∧
  (∀ d, (State.reset.dom d).armed = false) ∧ (∀ p a, State.reset.dpaOf p a = none)

/-! ### Shared operations -/

/-- A reply (R242): its 32 bytes are written at the tail of the completion queue that the command came through, the tail
goes on by one entry, PHASE inverts at a wrap, the command no longer counts as outstanding; the vector of the queue pair is
signalled when IRQ_EN is 1 and the host has answered the last signal (R245). Nothing is written for a command that a
partition reset has ended (R243). The frame of a reply: host memory, the queue pairs and the ports' pending bits apart,
everything is as before; so every byte of device memory, every slot and every register is. Of host memory no byte changes
but the 32 of the reply and the four that the queue pair's vector writes. -/
def Obligations.ReplyIsWritten : Prop :=
  (∀ (s : State) (a : Acc) (st d0 d1 d2 : Nat),
    let q := s.qp a.part a.qp
    let put := (s.hostWrite a.part (q.cqBase + 32 * q.cqTail) (replyBytes a q s.now st d0 d1 d2)).modQp a.part a.qp fun q =>
      { q with
        cqTail := if q.cqTail + 1 = q.size then 0 else q.cqTail + 1,
        phase := if q.cqTail + 1 = q.size then !q.phase else q.phase,
        outstanding := q.outstanding - 1, armed := q.armed && !q.irqEn }
    (a.dead = true ∨ (s.part a.part).resetting = true → s.reply a st d0 d1 d2 = s) ∧
    (a.dead = false → (s.part a.part).resetting = false → s.reply a st d0 d1 d2 =
      if (s.qp a.part a.qp).irqEn = true ∧ (s.qp a.part a.qp).armed = true then put.msi a.part a.qp.val else put)) ∧
  (∀ (s : State) (a : Acc) (st d0 d1 d2 : Nat),
    s.KeepsBut [.hmem, .qps, .ports] (s.reply a st d0 d1 d2) ∧
    ((s.reply a st d0 d1 d2).ports = s.ports ∨
      ∃ f, (s.reply a st d0 d1 d2).ports = tmod Port.init s.ports a.part.val f) ∧
    ∀ k : Nat, twf 0 s.hmem = true →
      (k < hostKey a.part ((s.qp a.part a.qp).cqBase + 32 * (s.qp a.part a.qp).cqTail) ∨
        hostKey a.part ((s.qp a.part a.qp).cqBase + 32 * (s.qp a.part a.qp).cqTail) + 32 ≤ k) →
      (k < hostKey a.part (tget MsixVec.init (s.port a.part).msix a.qp.val).addr ∨
        hostKey a.part (tget MsixVec.init (s.port a.part).msix a.qp.val).addr + 4 ≤ k) →
      tget 0 (s.reply a st d0 d1 d2).hmem k = tget 0 s.hmem k)

/-- An Oculus update (R197): CHANGE_COUNT goes on by two modulo 2^32, so an even count stays even, and nothing changes but
the count and what vector 17 of the endpoints does to their pending bits and to their hosts' memory. -/
def Obligations.OculusUpdateCounts : Prop :=
  ∀ s : State,
    s.oculusUpdate.drm = { s.drm with change := (s.drm.change + 2) % 2 ^ 32 } ∧
    (s.drm.change % 2 = 0 → s.oculusUpdate.drm.change % 2 = 0) ∧
    s.KeepsBut [.drm, .ports, .hmem] s.oculusUpdate

/-- A fault message of a unit enters the Belfry's window stamped with the time of its issue; the window stays in ascending
order of stamp and, among equal stamps, of source (R448), but a die's messages of one stamp stay in the order in which it reports
them (R449); nothing else is lost from it, and the log is as before. A message of a half, or of one of its Lanterns, that has no synchronised time carries its own count as well (R315). -/
def Obligations.FaultMessageEntersWindow : Prop :=
  ∀ (s : State) (src : Nat) (cls : FClass) (kind addr : Nat),
    let ordered : Held → Held → Prop := fun x y => x.stamp < y.stamp ∨ x.stamp = y.stamp ∧ x.msg.src ≤ y.msg.src
    let rising : Held → Held → Prop := fun x y => x.stamp ≤ y.stamp
    let together : Held → Bool := fun x => x.stamp == s.now && stampDie x.msg.src == stampDie src
    let new : Held := ⟨⟨src, cls, kind, addr⟩, s.now, false, true, s.ownStamp src⟩
    (s.bel.waiting.Pairwise rising → (s.issue src cls kind addr).bel.waiting.Pairwise rising) ∧
    ((∀ x ∈ s.bel.waiting, together x = false) → s.bel.waiting.Pairwise ordered →
      (s.issue src cls kind addr).bel.waiting.Pairwise ordered) ∧
    (s.issue src cls kind addr).bel.waiting.filter together = s.bel.waiting.filter together ++ [new] ∧
    (s.issue src cls kind addr).bel.waiting.Perm (new :: s.bel.waiting) ∧
    (s.issue src cls kind addr).bel.log = s.bel.log ∧ s.KeepsBut [.bel] (s.issue src cls kind addr) ∧
    s.KeepsBut [.bel, .arr] (s.report src cls kind addr) ∧
    (halfOfSource src = none → s.ownStamp src = none) ∧
    (∀ h, halfOfSource src = some h → s.ownStamp src =
      if (s.arr.get h).unsync = true then some (s.now + (s.arr.get h).ownCount) else none)

/-- The check code (R152, R153): a word without error is clean; one inverted stored bit, and two, are located and put right;
one inverted bit of the location that the code folds in is an address error. Stored are places 0 to 64 and 92 to 106. -/
def Obligations.CheckCodeCorrects : Prop :=
  eccDecode 0 = .clean ∧
  (∀ i < 107, isLocBit i = false → eccDecode (BitVec.twoPow 107 i) = .fix (BitVec.twoPow 107 i) 1) ∧
  (∀ i < 107, isLocBit i = true → eccDecode (BitVec.twoPow 107 i) = .address) ∧
  (∀ i < 107, ∀ j < i, isLocBit i = false → isLocBit j = false →
    eccDecode (BitVec.twoPow 107 j ^^^ BitVec.twoPow 107 i) = .fix (BitVec.twoPow 107 j ^^^ BitVec.twoPow 107 i) 2)

/-- R155: a write of a whole 64-bit word clears its poison, and the word then reads as the bytes written; a write of fewer
bytes to a poisoned word leaves it poisoned and changes none of its bits; and no write of a word changes a byte of another. -/
def Obligations.WordWritesAndPoison : Prop :=
  ∀ (m : Memory) (w off : Nat) (bs : List Byte), m.wf = true → off + bs.length ≤ 8 →
    (bs.length = 8 → poisoned (writeInWord m w off bs) w = false ∧
      readBytes 0 (writeInWord m w off bs).cells (8 * w) 8 = bs) ∧
    (bs.length < 8 → poisoned m w = true → writeInWord m w off bs = m) ∧
    (bs.length < 8 → poisoned m w = false → tget false m.badLoc w = false →
      readBytes 0 (writeInWord m w off bs).cells (8 * w + off) bs.length = bs ∧
      poisoned (writeInWord m w off bs) w = false) ∧
    (∀ a, a / 8 ≠ w → tget 0 (writeInWord m w off bs).cells a = tget 0 m.cells a) ∧
    (∀ v, v ≠ w → poisoned (writeInWord m w off bs) v = poisoned m v)

/-- Every memory operation keeps the canonical form of device memory, so that equal memories are equal data. A frame zeroed
(R167) reads as zero in every byte, holds no poison, no stored error and no address error, and no byte of another frame
changes. -/
def Obligations.MemoryOperationsKeepForm : Prop :=
  (∀ m : Memory, m.wf = true →
    (∀ a bs, (writeDpa m a bs).wf = true) ∧ (∀ f, (zeroFrame m f).wf = true) ∧
    (∀ a b, (copyFrame m a b).wf = true) ∧ (∀ w, (poisonWord m w).wf = true) ∧
    (∀ w p, (flipWord m w p).wf = true)) ∧
  (∀ (m : Memory) (f a : Nat), m.wf = true →
    (a / 2 ^ 21 = f → tget 0 (zeroFrame m f).cells a = 0 ∧ poisoned (zeroFrame m f) (a / 8) = false ∧
      tget 0 (zeroFrame m f).upset (a / 8) = 0 ∧ tget false (zeroFrame m f).badLoc (a / 8) = false) ∧
    (a / 2 ^ 21 ≠ f → tget 0 (zeroFrame m f).cells a = tget 0 m.cells a ∧
      poisoned (zeroFrame m f) (a / 8) = poisoned m (a / 8)) ∧
    (zeroFrame m f).fmap = m.fmap)

/-! ### Queues and acceptance (chapter 11) -/

/-- HST_SQ_TAIL, HST_CQ_HEAD, QUEUE_ENABLE and QUEUE_DISABLE (R238, R245, R256) on a queue pair whose page takes writes: the
next state. What the host wrote before its doorbell is in host memory; the tail, the head and ENABLE become what is written;
enabling clears both rings and sets PHASE; with a zero base it does so too, but ENABLE stays 0 and BAD_VALUE is set. A tail
or a head outside the ring sets BAD_VALUE of domain 0 and nothing else.
COMMAND_FETCH (R240, R250): the partition and queue pair whose turn it is give one entry with its extension; the turn passes
to the next partition; the packet is judged as accept says. An entry whose EXT_LEN is above 4,096 is replied to with
BAD_PARAM and stops the queue (R241). -/
def Obligations.QueuesAndFetch : Prop :=
  (∀ (t : Nat) (p : Fin 4) (q : Fin 16) (v : Word) (s : State), s.pagesOpen p = true →
    (∀ (ws : List (Nat × Byte)) (bad : List Nat), (s.qp p q).enable = true →
      let u : State := { s.atTime t with
        hmem := ws.foldl (fun (m : Tbl Byte) (w : Nat × Byte) => tset 0 m (hostKey p w.1) w.2) s.hmem,
        hbad := bad.foldl (fun (m : Tbl Bool) (a : Nat) => tset false m (hostKey p a / 64) true)
          (tclear s.hbad (hostKey p 0 / 64) (hostKey p (2 ^ 64) / 64)) }
      (v.toNat % 4096 < (s.qp p q).size →
        exec (.hstSqTail t p q v ws bad) s = .next (u.modQp p q fun y => { y with sqTail := v.toNat % 4096 })) ∧
      ((s.qp p q).size ≤ v.toNat % 4096 → exec (.hstSqTail t p q v ws bad) s = .next (u.badValue 0))) ∧
    ((s.qp p q).active = true → v.toNat % 4096 < (s.qp p q).size →
      (v.toNat % 4096 + (s.qp p q).size - (s.qp p q).cqHead) % (s.qp p q).size ≤ (s.qp p q).unconsumed →
      let u := (s.atTime t).modQp p q fun y => { y with cqHead := v.toNat % 4096, armed := true }
      exec (.hstCqHead t p q v) s = .next (if (u.qp p q).irqEn = true ∧ 0 < (u.qp p q).unconsumed
        then (u.modQp p q fun y => { y with armed := false }).msi p q.val else u)) ∧
    ((s.qp p q).active = false → (s.qp p q).sqBase ≠ 0 → (s.qp p q).cqBase ≠ 0 →
      bitsOf v.toNat 11 8 = (s.qp p q).sizeLog2 → bitOf v.toNat 1 = (s.qp p q).urgent →
      exec (.queueEnable t p q v) s = .next (((s.atTime t).modQp p q fun y => { y with irqEn := bitOf v.toNat 2 }).modQp p q
        fun y => { y with
          enable := true, sqHead := 0, sqTail := 0, cqTail := 0, cqHead := 0, phase := true, error := false,
          armed := true })) ∧
    ((s.qp p q).active = false → (s.qp p q).enable = false → (s.qp p q).sqBase = 0 ∨ (s.qp p q).cqBase = 0 →
      bitsOf v.toNat 11 8 = (s.qp p q).sizeLog2 → bitOf v.toNat 1 = (s.qp p q).urgent →
      exec (.queueEnable t p q v) s = .next ((((s.atTime t).modQp p q fun y => { y with irqEn := bitOf v.toNat 2 }).badValue
        0).modQp p q fun y => { y with
          enable := false, sqHead := 0, sqTail := 0, cqTail := 0, cqHead := 0, phase := true, error := false,
          armed := true })) ∧
    (bitsOf v.toNat 11 8 = (s.qp p q).sizeLog2 → bitOf v.toNat 1 = (s.qp p q).urgent →
      exec (.queueDisable t p q v) s = .next (((s.atTime t).modQp p q fun y => { y with irqEn := bitOf v.toNat 2 }).modQp p q
        fun y => { y with enable := false }))) ∧
  (∀ (t : Nat) (s : State) (p : Fin 4) (urgent : Bool) (i : Fin 16),
    s.start.phase = .running → s.start.safeNoFetch = false → (s.atTime t).pick = some (p, urgent, i) →
    let u : State := { s.atTime t with gal := { s.gal with turn := p + 1 } }
    let u := u.modPart p fun x => if urgent then { x with turnUrgent := true, ptrUrgent := (i.val + 1) % 16 }
      else { x with turnUrgent := false, ptrNormal := (i.val + 1) % 16 }
    let q := u.qp p i
    let pkt := u.hostRead p (q.entryAt 0) 64
    let n := ceilDiv (le pkt 14 2) 64
    ((∀ j ≤ n, u.hostBad p (q.entryAt j) 64 = false) → le pkt 14 2 ≤ 4096 →
      exec (.commandFetch t) s = .next ((({ u with gal := { u.gal with nextId := u.gal.nextId + 1 } } : State).modQp p i
        fun y => { y with
          sqHead := (y.sqHead + 1 + n) % y.size, outstanding := y.outstanding + 1, error := false }).accept
        { id := s.gal.nextId, part := p, qp := i, keep := decide (le pkt 1 1 = 0x09), pkt := pkt,
          ext := (List.range n).flatMap fun j => u.hostRead p (q.entryAt (j + 1)) 64,
          mark := (s.slot (le pkt 10 2)).commits, dead := false })) ∧
    (u.hostBad p (q.entryAt 0) 64 = false → 4096 < le pkt 14 2 →
      exec (.commandFetch t) s = .next ((({ u with gal := { u.gal with nextId := u.gal.nextId + 1 } } : State).modQp p i
        fun y => { y with
          sqHead := (y.sqHead + 1) % y.size, outstanding := y.outstanding + 1, error := true }).reply
        { id := s.gal.nextId, part := p, qp := i, keep := false, pkt := pkt, ext := [],
          mark := (s.slot (le pkt 10 2)).commits, dead := false } stBadParam (10 + 14 * 2 ^ 16) 0 0)))

/-- Acceptance (R246, R253, R254): a packet that passes every stage waits among the accepted ones, Keep's after stage 5 in
Keep's queue; the first stage that refuses is replied to with its status, the stage and the field in DETAIL0, and STALE_ROLE
is counted for the partition. The commands that name no slot must name the partition's current generation, and a slot
command the slot's (R228, R110, R247): any other generation is refused at stage 8 with STALE_ROLE, whose detail gives the
generation to use. An accepted OPLIST_RUN is numbered (R184), an accepted FAULT_INJECT stamped (R459). -/
def Obligations.AcceptanceStages : Prop :=
  (∀ (s : State) (a : Acc),
    (s.gate a = none → a.keep = true → s.accept a = { s with gal := { s.gal with keepQ := s.gal.keepQ ++ [a] } }) ∧
    (s.gate a = none → a.keep = false → s.gate2 a = none → s.gate3 a = none →
      let kept (u : State) (a : Acc) : State := { u with gal := { u.gal with accepted := u.gal.accepted ++ [a] } }
      let n := ((s.part a.part).runs + 1) % 2 ^ 32
      (a.opcode ≠ 0x0311 → a.opcode ≠ 0x0402 → a.opcode ≠ 0x0A30 → s.accept a = kept s a) ∧
      (a.opcode = 0x0A30 → s.accept a = kept s { a with mark := s.now }) ∧
      (a.opcode = 0x0402 → s.accept a = kept (s.modPart a.part fun x => { x with runs := n }) { a with mark := n }) ∧
      (a.opcode = 0x0311 → s.accept a = if bitOf (a.par 16 1) 0 = true
        then (kept s a).modSlot a.slotField fun x => { x with gen := nextGen x.gen } else kept s a)) ∧
    (∀ r, s.gate a = some r → r.status ≠ stStale →
      s.accept a = s.reply { a with keep := false } r.status (r.stage + r.off * 2 ^ 16) r.d1 0) ∧
    (∀ r, s.gate a = none → a.keep = false → s.gate2 a = some r → r.status = stStale →
      s.accept a = (s.modPart a.part fun x => { x with stale := satTo 0xFFFFFFFF (x.stale + 1) }).reply a stStale
        (r.stage + r.off * 2 ^ 16) r.d1 0) ∧
    (∀ r, s.gate a = none → a.keep = false → s.gate2 a = none → s.gate3 a = some r → r.status ≠ stStale →
      s.accept a = s.reply a r.status (r.stage + r.off * 2 ^ 16) r.d1 0)) ∧
  (∀ (s : State) (a : Acc) (r : CmdRow), cmdRow a.opcode = some r → r.security.contains s.sec.st.code = true →
    r.power.contains s.powerSeen = true → (s.start.safe = false ∨ a.opcode ≠ 0x0110) →
    (a.isSlot = false → a.genField ≠ (s.part a.part).gen.toNat →
      s.gate2 a = some ⟨stStale, 8, 12, (s.part a.part).gen.toNat + 2 ^ 16⟩) ∧
    (a.isSlot = true → (s.slot a.slotField).owner = some a.part → (s.slot a.slotField).st ≠ .free →
      a.genField ≠ (s.slot a.slotField).gen.toNat →
      s.gate2 a = some ⟨stStale, 8, 12, (s.slot a.slotField).gen.toNat⟩) ∧
    (∀ g : Hword, nextGen g ≠ 0 ∧ (g ≠ 0xFFFF → nextGen g = g + 1) ∧ nextGen 0xFFFF = 1))


/-! ### Memory commands and BAR2 (chapters 6, 10, 12) -/

/-- The placement of a MEM_ALLOC decides each frame's half (R147, Table 6-2): LOCAL_W west, LOCAL_E east, MAPPED by the
frame's bit of the map, INTERLEAVED by the parity of the frame's number; in single-half operation INTERLEAVED places every
frame in the half that is left (R502). -/
def Obligations.PlacementDecidesHalf : Prop :=
  ∀ (s : State) (a : Acc) (i : Nat),
    (a.par 32 1 = 1 → s.homeOf a i = .west) ∧ (a.par 32 1 = 2 → s.homeOf a i = .east) ∧
    (a.par 32 1 = 3 → s.homeOf a i = if bitOf (le a.ext (i / 8) 1) (i % 8) then .east else .west) ∧
    (a.par 32 1 = 0 → s.start.singleHalf = false →
      s.homeOf a i = if (a.par 16 8 / 2 ^ 21 + i) % 2 = 0 then .west else .east) ∧
    (a.par 32 1 = 0 → s.start.singleHalf = true → s.halfUp .west = true → s.homeOf a i = .west) ∧
    (a.par 32 1 = 0 → s.start.singleHalf = true → s.halfUp .west = false → s.homeOf a i = .east)

/-- MEM_ALLOC, MEM_FREE, MEM_COPY and MEM_FILL with their halves in service (R147, R167, R264-R266): the frames are mapped,
or unmapped to be zeroed, the bytes are copied or filled, and the reply is OK; a MEM_FREE with earlier runs of its partition
still to complete waits for them; a copy of poisoned words writes their poison and is OK_DEGRADED; a range that is not all
mapped is NOT_PERMITTED. -/
def Obligations.MemoryCommands : Prop :=
  ∀ (t id : Nat) (s u : State) (a : Acc),
    (s.Ready t id 0x0201 a u → u.arr.west.half = .inService → u.arr.east.half = .inService →
      u.freeNow (u.allocShare a).1 (u.allocShare a).2 = true →
      exec (.memAlloc t id) s = .next ((u.mapFrames a.part (a.par 16 8 / 2 ^ 21)
        ((List.range ((u.allocShare a).1 + (u.allocShare a).2)).map fun i => u.homeOf a i)).reply a stOK
        (u.allocShare a).1 (u.allocShare a).2 0)) ∧
    (s.Ready t id 0x0202 a u → u.arr.west.half = .inService → u.arr.east.half = .inService →
      u.mappedRange a.part (a.par 16 8) (a.par 24 8) = true →
      ((∀ r ∈ u.activeRuns a.part, a.id ≤ r) → exec (.memFree t id) s =
        .next ((u.unmapFrames a.part (a.par 16 8 / 2 ^ 21) (a.par 24 8 / 2 ^ 21)).reply a stOK (a.par 24 8 / 2 ^ 21) 0 0)) ∧
      ((∃ r ∈ u.activeRuns a.part, r < a.id) → exec (.memFree t id) s =
        .next { u with gal := { u.gal with
          waiters := u.gal.waiters ++ [⟨a, .memFree ((u.activeRuns a.part).filter (· < a.id))⟩] } })) ∧
    (s.Taken t id 0x0210 a u → a.par 40 1 = 0 → a.par 41 1 = 0 → u.arr.west.half = .inService →
      u.arr.east.half = .inService → u.mappedRange a.part (a.par 16 8) (a.par 32 8) = true →
      u.mappedRange a.part (a.par 24 8) (a.par 32 8) = true →
      let v := u.settlePart a.part (a.par 16 8) (a.par 32 8)
      let bad := v.partPoison a.part (a.par 16 8) (a.par 32 8)
      let w := (v.partWrite a.part (a.par 24 8) (v.partRead a.part (a.par 16 8) (a.par 32 8))).poisonAt a.part (a.par 24 8) bad
      exec (.memCopy t id) s = .next (if bad = [] then w.reply a stOK 0 0 0
        else w.reply a stDegraded (satTo 0xFFFFFFFF bad.length) 0 0)) ∧
    (s.Taken t id 0x0220 a u →
      let bytes := (List.replicate (a.par 32 8 / 8) (leBytes 8 (a.par 48 8))).flatten
      (a.par 41 1 = 1 → exec (.memFill t id) s = .next ((u.dma a (a.par 24 8) bytes).reply a stOK 0 0 0)) ∧
      (a.par 41 1 = 0 → u.mappedRange a.part (a.par 24 8) (a.par 32 8) = true → u.arr.west.half = .inService →
        u.arr.east.half = .inService →
        exec (.memFill t id) s = .next ((u.partWrite a.part (a.par 24 8) bytes).reply a stOK 0 0 0)) ∧
      (a.par 41 1 = 0 → u.mappedRange a.part (a.par 24 8) (a.par 32 8) = false →
        exec (.memFill t id) s = .next (u.reply a stNotPermitted 0 0 0)))

/-- BAR2_READ and BAR2_WRITE (R226, R227, R232) through an aperture that is served, with nothing held before them and both
halves in service: mapped bytes are decoded, read and answered, poisoned when a word of them is, or written; an access with
an unmapped byte is answered with Unsupported Request, or dropped, and counted against the partition. FRAME_ZEROING_DONE and
GOARD_BURST (R167, R232): with the half up and out of self-refresh its released frames become free, zeroed; more than 65,536
events of a kind in a second make the port report a burst, once a minute at most. -/
def Obligations.ApertureAndZeroing : Prop :=
  (∀ (t off : Nat) (p : Fin 4) (s : State),
    let served (s : State) : Prop := s.pagesOpen p = true ∧ (∀ x ∈ s.barHeld, x.port ≠ p) ∧
      s.arr.west.half = .inService ∧ s.arr.east.half = .inService
    (∀ (n : Nat) (ups : List Upset), 0 < n → off + n ≤ 2 ^ 36 → served ((s.atTime t).strike ups) →
      let u := (s.atTime t).strike ups
      let x := u.barAddr p off
      let v := u.settlePart p x n
      (u.mappedRange p x n = true → exec (.bar2Read t p off n ups) s = .next { v with
        bus := ⟨BitVec.ofNat 32 (ofLe ((v.partRead p x n).take 4)), v.partRead p x n, false,
          !(v.partPoison p x n).isEmpty, false⟩ }) ∧
      (u.mappedRange p x n = false → exec (.bar2Read t p off n ups) s =
        .next { u.goard p true with bus := ⟨0, [], true, false, false⟩ })) ∧
    (∀ bs : List Byte, bs ≠ [] → off + bs.length ≤ 2 ^ 36 → served s →
      (s.mappedRange p (s.barAddr p off) bs.length = true →
        exec (.bar2Write t p off bs) s = .next ((s.atTime t).partWrite p (s.barAddr p off) bs)) ∧
      (s.mappedRange p (s.barAddr p off) bs.length = false →
        exec (.bar2Write t p off bs) s = .next ((s.atTime t).goard p true)))) ∧
  (∀ (t : Nat) (s : State),
    (∀ h : Half, s.halfUp h = true → (s.hbm.get h).selfRefresh = false →
      (((s.atTime t).zeroDone h).settleMem.noneZeroing = false →
        exec (.frameZeroingDone t h) s = .next ((s.atTime t).zeroDone h).settleMem) ∧
      (s.gal.waiters = [] → exec (.frameZeroingDone t h) s = .next ((s.atTime t).zeroDone h))) ∧
    (∀ h : Half, (∀ e ∈ ((s.zeroDone h).hbm.get h).use, e.2.zeroes = false)) ∧
    (∀ (p : Fin 4) (un : Bool), (s.part p).rateWindow = max s.now t / 10 ^ 9 →
      65536 < (if un then (s.part p).rateUnmapped else (s.part p).rateDropped) →
      (∀ l, (s.part p).lastBurst = some l → l + 60 * 10 ^ 9 ≤ max s.now t) →
      exec (.goardBurst t p un) s = .next (((s.atTime t).modPart p fun x => { x with lastBurst := some (max s.now t) }).report
        (0x010 + p.val) .contained 2 (if un then 1 else 0))))

/-! ### Sequences and programs (chapters 4, 5, 12) -/

/-- SEQ_OPEN with its pages free opens the slot (R268): the one named, or the lowest FREE one, takes the packet's parameters,
the next generation and zeroed pages, and the reply gives slot, generation, pages and DRAFT_LEN. SEQ_RESTORE of a good image
does so with the image's parameters, tokens and KV (R140, R269). -/
def Obligations.SlotsOpen : Prop :=
  ∀ (t id i : Nat) (s u : State) (a : Acc),
    (s.Ready t id 0x0301 a u → u.freeSlot a.slotField = some i →
      u.arr.west.half = .inService → u.arr.east.half = .inService →
      let need := u.kvNeed a.newSlot.target a.newSlot.drafter a.newSlot.maxPos a.newSlot.tentPos
      u.freeNow need.1 need.2 = true →
      let v := u.modSlot i fun x => { a.newSlot with
        owner := some a.part, st := .opened, gen := nextGen (u.slot i).gen, commits := x.commits, frames := ⟨[], []⟩,
        steps := [], report := none }
      exec (.seqOpen t id) s = .next (((v.takeKv i .west need.1).takeKv i .east need.2).reply a stOK
        (i + (nextGen (u.slot i).gen).toNat * 2 ^ 16) (need.1 + need.2) a.newSlot.draftLen)) ∧
    (s.Ready t id 0x0321 a u → u.arr.west.half = .inService → u.arr.east.half = .inService →
      u.mem.upset = [] →
      let src := a.par 56 8
      let h := u.partRead a.part src 256
      let n := le h 68 8
      let body := u.partRead a.part (src + 256) n
      let y := imageSlot h
      let x : Slot := { y with
        list := a.par 16 1, rowmap := a.par 32 8, scratch := a.par 40 8, scratchLen := a.par 48 4, genDefault := a.par 52 1,
        tokens := (List.range (y.commit - y.histStart)).foldl
          (fun m j => tset 0 m (y.histStart + j) (le body (4 * j) 4)) ([] : Tbl Nat) }
      let need := u.kvNeed x.target x.drafter x.maxPos x.tentPos
      u.mappedRange a.part src 256 = true → headerOk h = true → u.mappedRange a.part src (256 + n) = true →
      u.partPoison a.part src 256 = [] → u.partPoison a.part src (256 + n) = [] → le h 76 8 = (crc64 0 body).toNat →
      y.draftMax ≠ 0 ∨ a.par 40 8 = 0 ∧ a.par 48 4 = 0 → u.mayTake a.part need.1 need.2 = true → u.freeNow need.1 need.2 = true →
      u.freeSlot a.slotField = some i →
      let v := u.openSlot a i x
      exec (.seqRestore t id) s = .next (if (v.slot i).st = .opened
        then v.loadParts i ((v.slot i).imageParts (v.slot i).target 0 (v.slot i).kvLen ++
          (v.slot i).imageParts (v.slot i).drafter (v.slot i).target.layers (v.slot i).dkv)
          (body.drop (4 * (y.commit - y.histStart)))
        else v))

/-- SEQ_STEP queues its step, in order of acceptance, and wakes the device from P1 (R271, R260); SEQ_CANCEL ends what was accepted before it and
replies with the commit pointer, the generation and whether a commit came between (R134, R273); SEQ_CLOSE does so and frees
the slot (R270), and what was accepted on it and has not acted yet finds no sequence there (R248; the replies are the model's
choice: notes/assumptions, row 81); SEQ_SAVE writes the slot's image and leaves the slot as it is (R137, R274). -/
def Obligations.SequenceCommands : Prop :=
  ∀ (t id : Nat) (s u : State) (a : Acc),
    let i := a.slotField
    (s.Taken t id 0x0310 a u → (u.slot i).st = .opened ∨ (u.slot i).st = .stepping →
      exec (.seqStep t id) s = .next (u.wake.modSlot i fun x => { x with
        st := .stepping, steps := insertById (·.acc.id) (a.step (u.slot i)) x.steps })) ∧
    (s.Taken t id 0x0311 a u → a.closed = false → (u.slot i).owner = some a.part → (u.slot i).st ≠ .free →
      let v := u.cancelWork i fun k => decide (k < a.id)
      exec (.seqCancel t id) s = .next (v.1.reply a stOK (v.1.slot i).commit
        ((v.1.slot i).gen.toNat + 2 ^ 16 * (if a.mark < (v.1.slot i).commits then 1 else 0)) v.2)) ∧
    (s.Taken t id 0x0302 a u → a.closed = false → (u.slot i).owner = some a.part → (u.slot i).st ≠ .free →
      let v := u.cancelWork i fun _ => true
      exec (.seqClose t id) s = .next ((v.1.freeSlotOf a.part i).reply a stOK (v.1.slot i).commit v.2 0)) ∧
    (∀ (p : Fin 4) (j : Nat), twf Slot.init s.slots = true →
      (s.freeSlotOf p j).slot j = { Slot.init with gen := (s.slot j).gen, commits := (s.slot j).commits } ∧
      (∀ k, k ≠ j → (s.freeSlotOf p j).slot k = s.slot k) ∧
      (∀ b ∈ (s.freeSlotOf p j).gal.accepted, b.part = p → b.slotField = j → b.isSlot = true → b.closed = true) ∧
      (∀ b ∈ s.gal.accepted, b.part ≠ p ∨ b.slotField ≠ j ∨ b.isSlot = false → b ∈ (s.freeSlotOf p j).gal.accepted)) ∧
    (a.closed = true →
      (s.Taken t id 0x0311 a u → exec (.seqCancel t id) s = .next (u.reply a stOK 0 0 0)) ∧
      (s.Taken t id 0x0302 a u → exec (.seqClose t id) s = .next (u.reply a stOK 0 0 0)) ∧
      (s.Taken t id 0x0320 a u → exec (.seqSave t id) s = .next (u.reply a stBusy 0 0 0))) ∧
    (s.Taken t id 0x0320 a u → a.closed = false → (u.slot i).owner = some a.part → (u.slot i).st = .opened →
      u.mem.upset = [] → u.arr.west.half = .inService → u.arr.east.half = .inService →
      let sl := u.slot i
      let parts := sl.imageParts sl.target 0 sl.kvLen ++ sl.imageParts sl.drafter sl.target.layers sl.dkv
      let n := 256 + sl.bodyBytes
      let from_ := histFrom sl.commit sl.kvLen sl.dkv
      let body := ((List.range (sl.commit - from_)).flatMap fun j => leBytes 4 (tget 0 sl.tokens (from_ + j))) ++
        parts.flatMap fun x => u.kvRead i x.1 x.2.1 x.2.2
      n ≤ a.par 24 8 → u.mappedRange a.part (a.par 16 8) n = true →
      (∀ x ∈ parts, u.kvPoison i x.1 x.2.1 x.2.2 = false) →
      exec (.seqSave t id) s = .next ((u.partWrite a.part (a.par 16 8)
        (sl.imageHeader body.length (crc64 0 body) ++ body)).reply a stOK (n % 2 ^ 32) (n / 2 ^ 32) 0))

/-- OPLIST_LOAD of descriptors in partition memory that pass every check loads the list, whose copies in the halves are written
afresh (R29, R275); one whose descriptor `k` does not is BAD_PARAM with `k` in DETAIL2. OPLIST_RUN puts the run, numbered when
it was accepted, among the waiting ones, or refuses a list that needs rows (R276). DIGEST_READ writes the slot's or the list's last report (R183, R277). -/
def Obligations.ProgramCommands : Prop :=
  ∀ (t id : Nat) (s u : State) (a : Acc),
    (s.Ready t id 0x0401 a u → a.par 17 1 = 0 → u.mem.upset = [] →
      u.arr.west.half = .inService → u.arr.east.half = .inService →
      u.mappedRange a.part (a.par 24 8) (a.par 20 4 * descBytes) = true →
      u.partPoison a.part (a.par 24 8) (a.par 20 4 * descBytes) = [] →
      let bs := u.partRead a.part (a.par 24 8) (a.par 20 4 * descBytes)
      let raw := chunks descBytes bs.length bs
      (firstBad raw = none → exec (.oplistLoad t id) s =
        .next (((u.freshCopies (listKey a.part (a.par 16 1)) (a.par 20 4)).modEng fun e => { e with
          lists := tset none e.lists (listKey a.part (a.par 16 1))
            (some ⟨raw.map parseDesc, a.par 32 8, a.par 40 4⟩) }).reply a stOK (a.par 20 4) 0 0)) ∧
      (∀ k, firstBad raw = some k → exec (.oplistLoad t id) s = .next (u.reply a stBadParam 0 0 k))) ∧
    (∀ o : OpList, s.Ready t id 0x0402 a u → u.list a.part (a.par 16 1) = some o →
      (o.descs.any (·.needsRows) = false → exec (.oplistRun t id) s = .next (u.wake.modEng fun e => { e with
        waiting := insertById (·.acc.id) ⟨a, a.par 16 1, a.mark⟩ e.waiting })) ∧
      (o.descs.any (·.needsRows) = true → exec (.oplistRun t id) s = .next ((u.modEng fun e => { e with
        reports := tset none e.reports (listKey a.part (a.par 16 1)) (some (refusedReport a.mark u.now)) }).reply a stBadParam
          a.mark 0 0xFFFFFFFF).settleFrees)) ∧
    (s.Taken t id 0x0410 a u →
      (a.par 16 1 = 1 → a.closed = false → exec (.digestRead t id) s = .next ((u.dma a (a.par 24 8)
        (reportBytes 1 a.slotField (u.slot a.slotField).report)).reply a stOK
        (if (u.slot a.slotField).report.isSome then 1 else 0) 0 0)) ∧
      (a.par 16 1 = 1 → a.closed = true → exec (.digestRead t id) s = .next ((u.dma a (a.par 24 8)
        (reportBytes 1 a.slotField none)).reply a stOK 0 0 0)) ∧
      (a.par 16 1 = 0 → exec (.digestRead t id) s = .next ((u.dma a (a.par 24 8)
        (reportBytes 0 (a.par 17 1) (tget none u.eng.reports (listKey a.part (a.par 17 1))))).reply a stOK
        (if (tget none u.eng.reports (listKey a.part (a.par 17 1))).isSome then 1 else 0) 0 0)))

/-- RUN_FORM with the arrays free (R81, R122): the oldest accepted run enters them, an OPLIST_RUN at its first operation, or
the waiting steps of one list gathered, their row map written. -/
def Obligations.RunsEnterTheArrays : Prop :=
  ∀ (t : Nat) (s : State), s.canRun = true → s.eng.run = none → s.pwr.goal = none →
    (∀ (q : RunReq) (rest : List RunReq) (l : OpList),
      s.eng.waiting = q :: rest → s.waitingSteps = [] → s.runComing q.acc.id = false →
      s.freeComing q.acc.part q.acc.id = false →
      s.list q.acc.part q.list = some l → l.descs ≠ [] → 0 < l.targetLen →
      let u := (s.atTime t).settleGroups q.acc.part l
      let gs := u.snapshots q.acc.part l
      let v := (gs.foldl (fun s g => s.bindGroup q.acc.part g) u).modEng fun e => { e with
        waiting := e.waiting.filter fun x => x.acc.id ≠ q.acc.id }
      let r := newRun q.acc.part q.list q.number (some q.acc) [] [] gs
      (tooLong l gs = none → exec (.runForm t) s = .next (v.wake.setRun (some r))) ∧
      (∀ i, tooLong l gs = some i → exec (.runForm t) s =
        .next (v.endRun { r with refusedAt := some (opsBefore l.descs i, stBadParam) } stBadParam))) ∧
    (∀ (i : Nat) (r : StepReq) (rest : List (Nat × StepReq)) (l : OpList) (u : State) (m : Member) (ms : List Member)
      (rows : List RowEnt),
      s.eng.waiting = [] → s.waitingSteps = (i, r) :: rest → s.runComing r.acc.id = false →
      s.freeComing r.acc.part r.acc.id = false →
      (s.atTime t).gather ((s.atTime t).waitingSteps.filter fun x => (s.slot x.1).owner == some r.acc.part &&
        (s.slot x.1).list == (s.slot i).list) [] [] = (u, m :: ms, rows) →
      u.list r.acc.part (s.slot i).list = some l →
      let number := ((u.part r.acc.part).runs + 1) % 2 ^ 32
      let w := u.settleGroups r.acc.part l
      let gs := w.snapshots r.acc.part l
      let v := (gs.foldl (fun s g => s.bindGroup r.acc.part g) w).modPart r.acc.part fun x => { x with runs := number }
      tooLong l gs = none → exec (.runForm t) s = .next ((v.writeRowMap r.acc.part ((m :: ms).map (·.rowmap)) rows 0 0x40000).wake.setRun
        (some (newRun r.acc.part (s.slot i).list number none (m :: ms) rows gs))))

/-! ### Operations (chapters 2 to 5, 7) -/

/-- The operations that exchange nothing (R63-R101): where the operation is in turn and its checks pass, the arrays start
it: its result's tiles, as its operands give them, are in flight with nothing written yet and a digest of zero. An operation
that is in turn and is refused, its operand range, its group or its values being what its entry forbids (R82, R107), ends
the run with its status, and a poisoned operand, or a descriptor lost in every copy, ends it FAULTED (R29, R154); nothing of its
result is written. While a droop holds the issue of operations, it does not start (R420). -/
def Obligations.OperationsStart : Prop :=
  (∀ (t : Nat) (ups : List Upset) (s u : State) (r : Run) (l : OpList) (d : Desc) (g : Option GroupSnap) (tiles : List Tile)
    (waves : Both Nat) (bad : List Half),
    let started : Run → State → State := fun r u => u.startOp r d tiles waves bad
    ((s.atTime t).enter kNorm ups = .ok (u, r, l, d, g) → u.normRes r.part d r.rows = .ok tiles waves bad →
      exec (.norm t ups) s = .next (started r u)) ∧
    ((s.atTime t).enter kAct ups = .ok (u, r, l, d, g) → u.actRes r.part d r.rows = .ok tiles waves bad →
      exec (.act t ups) s = .next (started r u)) ∧
    ((s.atTime t).enter kRope ups = .ok (u, r, l, d, g) → u.ropeRes r.part d r.rows = .ok tiles waves bad →
      exec (.rope t ups) s = .next (started r u)) ∧
    ((s.atTime t).enter kGather ups = .ok (u, r, l, d, g) → u.gatherRes r.part d r.rows = .ok tiles waves bad →
      exec (.gather t ups) s = .next (started r u)) ∧
    ((s.atTime t).enter kCopy ups = .ok (u, r, l, d, g) → u.copyRes r.part d r.rows = .ok tiles waves bad →
      exec (.copy t ups) s = .next (started r u)) ∧
    ((s.atTime t).enter kSample ups = .ok (u, r, l, d, g) → (u.tokenRes r.part d r.rows).1 = .ok tiles waves bad →
      exec (.sample t ups) s = .next (started r u)) ∧
    ((s.atTime t).enter kDraft ups = .ok (u, r, l, d, g) → (u.tokenRes r.part d r.rows).1 = .ok tiles waves bad →
      exec (.draft t ups) s = .next (started { r with
        samples := (List.zip (List.range (u.tokenRes r.part d r.rows).2.length) (u.tokenRes r.part d r.rows).2).foldl
          (fun m y => tset 0 m y.1 (y.2 + 1)) [] } u)) ∧
    ((s.atTime t).enter kAttend ups = .ok (u, r, l, d, g) → u.attendRes r.part d r.rows r.dead = .ok tiles waves bad →
      exec (.attend t ups) s = .next (started r (u.noteTent r d))) ∧
    (∀ peers, (s.atTime t).enter kMatmul ups = .ok (u, r, l, d, none) →
      u.matmulRes r.part d r.rows none [] = .ok tiles waves bad → exec (.matmul t peers ups) s = .next (started r u)) ∧
    (∀ peers, (s.atTime t).enter kExactReduce ups = .ok (u, r, l, d, none) →
      u.exactReduceRes r.part d r.rows none [] = .ok tiles waves bad →
      exec (.exactReduce t peers ups) s = .next (started r u)) ∧
    (∀ order, (s.atTime t).enter kScatter ups = .ok (u, r, l, d, g) →
      u.scatterRes r.part d r.rows order r.dead = .ok tiles waves [] →
      exec (.scatter t order ups) s = .next (u.setRun (some { u.runAhead r d with
        cur := some { desc := d, tiles := tiles, digest := 0, waves := waves, inexact := false, retried := [], slots := [],
                      poison := [], faulted := false, pausedFor := none, order := order } })))) ∧
  (∀ (t : Nat) (ups : List Upset) (s u : State) (r : Run) (l : OpList) (d : Desc),
    (∀ ok, (s.atTime t).turn kCopy = some (r, l, d) → ((s.atTime t).strike ups).fetchDesc r = (u, ok) → u.eng.hold = true →
      exec (.copy t ups) s = .next u) ∧
    ((s.atTime t).turn kCopy = some (r, l, d) → ((s.atTime t).strike ups).fetchDesc r = (u, true) → u.eng.hold = false →
      u.opGroup r d = .ok none →
      (∀ st, u.rangeRefusal r.part d (d.rowsOf r.rows) = some st → exec (.copy t ups) s = .next (u.stopOp r l d st)) ∧
      (u.rangeRefusal r.part d (d.rowsOf r.rows) = none → u.outsideScratch r d = false →
        (u.fetch r d).readsPoison r.part d (d.rowsOf r.rows) = true →
        exec (.copy t ups) s = .next ((u.fetch r d).stopOp r l d stFaulted))) ∧
    ((s.atTime t).turn kCopy = some (r, l, d) → ((s.atTime t).strike ups).fetchDesc r = (u, false) → u.eng.hold = false →
      exec (.copy t ups) s = .next (u.stopOp r l d stFaulted)) ∧
    (∀ st, (s.atTime t).enter kAct ups = .ok (u, r, l, d, none) → u.actRes r.part d r.rows = .refuse st →
      exec (.act t ups) s = .next (u.stopOp r l d st)))

/-- XSEND, XRECV, XREDUCE, and MATMUL and EXACT_REDUCE within a group (R87, R92, R100, R101, R405): the message of an XSEND is sent and its bytes are digested;
an XRECV takes the message of its rank, tag and number and starts with its bytes for destination, and waits while there is
none; each of
the others sends its part once and starts when every member's has come. -/
def Obligations.GroupOperations : Prop :=
  ∀ (t : Nat) (ups : List Upset) (s u : State) (r : Run) (l : OpList) (d : Desc) (g : GroupSnap),
    let key := d.par 0 * 2 ^ 32 + d.par 1
    ((s.atTime t).enter kXsend ups = .ok (u, r, l, d, some g) →
      let bad := u.partPoison r.part d.a d.n
      let v := u.sendTo r.part g (d.par 0) 1 (d.par 1) (tget 0 (u.group r.part.val g.group).sent key)
        (u.partRead r.part d.a d.n) bad
      exec (.xsend t ups) s = .next (({ v with fab := { v.fab with
        groups := tmod GroupSt.init v.fab.groups (256 * r.part.val + g.group) fun x =>
          { x with sent := tmod 0 x.sent key (· + 1) } } } : State).startOp { r with degraded := r.degraded + bad.length } d
          (rowTiles 3 0 none (fun _ => .send) (u.partRead r.part d.a d.n)) noWaves [])) ∧
    (∀ (b : List Byte), (s.atTime t).enter kXrecv [] = .ok (u, r, l, d, some g) →
      u.claim r.part g (d.par 0) 1 (d.par 1) (tget 0 (u.group r.part.val g.group).got key) d.n = .got b [] →
      let v := u.unmatch r.part g (d.par 0) true (d.par 1) (tget 0 (u.group r.part.val g.group).got key)
      exec (.xrecv t) s = .next (({ v with fab := { v.fab with
        groups := tmod GroupSt.init v.fab.groups (256 * r.part.val + g.group) fun x =>
          { x with got := tmod 0 x.got key (· + 1) } } } : State).startOp r d
          (rowTiles 0 0 none (fun o => .part (d.d + o)) b) noWaves [])) ∧
    ((s.atTime t).enter kXrecv [] = .ok (u, r, l, d, some g) →
      u.claim r.part g (d.par 0) 1 (d.par 1) (tget 0 (u.group r.part.val g.group).got key) d.n = .wait →
      exec (.xrecv t) s = .next (u.setRun (some { r with sentTo := [(r.index, g.group)] })).retryPool) ∧
    (∀ (peers cs : List Contribution) (order : List Nat) (tiles : List Tile) (waves : Both Nat) (bad : List Half) (v : State)
      (q : Run),
      (s.atTime t).enter kXreduce ups = .ok (u, r, l, d, some g) →
      let len := d.rowsOf r.rows * rowBytes d.fmtA d.n
      u.sendWide r g 3 0 (u.partRead r.part d.a len) = (v, q) → v.collect q.part g 3 len peers = some cs →
      u.xreduceRes r.part d r.rows g cs order = .ok tiles waves bad →
      exec (.xreduce t peers order ups) s = .next ((v.endWide q.part g).startOp q d tiles waves bad)) ∧
    (∀ (peers cs : List Contribution) (tiles : List Tile) (waves : Both Nat) (bad : List Half) (v : State) (q : Run),
      ((s.atTime t).enter kMatmul ups = .ok (u, r, l, d, some g) →
        let m := d.rowsOf r.rows
        u.sendWide r g 2 0 (maximaBytes (u.ownMaxima r.part d m)) = (v, q) →
        v.collect q.part g 2 (2 * (m + d.n)) peers = some cs → u.matmulRes r.part d r.rows (some g) cs = .ok tiles waves bad →
        exec (.matmul t peers ups) s = .next ((v.endWide q.part g).startOp q d tiles waves bad)) ∧
      ((s.atTime t).enter kExactReduce ups = .ok (u, r, l, d, some g) →
        let len := d.rowsOf r.rows * d.n * 32
        u.sendWide r g 4 0 (u.partRead r.part d.a len) = (v, q) → v.collect q.part g 4 len peers = some cs →
        u.exactReduceRes r.part d r.rows (some g) cs = .ok tiles waves bad →
        exec (.exactReduce t peers ups) s = .next ((v.endWide q.part g).startOp q d tiles waves bad)))

/-- DIGEST_MARK, LOOP and FENCE (R102-R104): the mark record is written at D; the body is entered with its count and stride;
a FENCE completes at once in mode 0, or in mode 1 when the semaphore has reached its value, and waits while it has not. A
FENCE that waits (R103): FENCE_SATISFIED completes it once the semaphore, read good, has reached its value; FENCE_TIMEOUT
ends its run BUSY once its limit has passed. -/
def Obligations.ControlOperations : Prop :=
  (∀ (t : Nat) (s u : State) (r : Run) (l : OpList) (d : Desc),
    (∀ g, (s.atTime t).enter kMark [] = .ok (u, r, l, d, g) →
      exec (.digestMark t) s = .next ((u.partWrite r.part d.d (r.markRecord d)).startOp r d [] noWaves [])) ∧
    ((s.atTime t).turn kLoop = some (r, l, d) → (s.atTime t).fetchDesc r = (u, true) →
      exec (.loop t) s = .next (u.setRun (some { r with
        pc := r.pc + 1,
        loop := some ⟨r.pc + 1, d.par 1, d.par 0, 0, signedOf 64 (d.par 2 + 2 ^ 32 * d.par 3)⟩ }))) ∧
    (∀ g, (s.atTime t).enter kFence [] = .ok (u, r, l, d, g) → d.mode = 0 →
      exec (.fence t) s = .next (u.startOp r d [] noWaves [])) ∧
    ((s.atTime t).enter kFence [] = .ok (u, r, l, d, none) → d.mode = 1 →
      (d.par 0 ≤ ofLe (u.partRead r.part d.x 4) →
        exec (.fence t) s = .next (u.startOp { r with fence := none } d [] noWaves [])) ∧
      (ofLe (u.partRead r.part d.x 4) < d.par 0 →
        exec (.fence t) s = .next (u.setRun (some { r with fence := some ⟨1, d.x, d.par 0, d.group, u.now, d.par 1⟩ }))))) ∧
  (∀ (t : Nat) (s : State) (r : Run) (l : OpList) (d : Desc) (f : FenceWait), (s.atTime t).atFence = some (r, l, d, f) →
    f.mode = 1 →
    (s.canRun = true → s.mem.upset = [] → s.partPoison r.part f.addr 4 = [] → f.value ≤ ofLe (s.partRead r.part f.addr 4) →
      exec (.fenceSatisfied t) s = .next ((s.atTime t).startOp { r with fence := none } d [] noWaves [])) ∧
    (f.limit ≠ 0 → f.since + 1000 * f.limit < max s.now t → ofLe (s.partRead r.part f.addr 4) < f.value →
      exec (.fenceTimeout t) s = .next (((s.atTime t).spend r).stopOp { r with fence := none } l d stBusy)))

/-- VERIFY commits every member's step from its tokens (R126); the drafter section follows, iteration by iteration, one pass
of rows at a time (R131), and may start before the VERIFY does, with the rows that follow if every draft is accepted (R37,
R132). -/
def Obligations.VerifyAndDrafter : Prop :=
  ∀ (t : Nat) (s u : State) (r : Run) (l : OpList) (d : Desc),
    (∀ (ups : List Upset) (g : Option GroupSnap), (s.atTime t).enter kVerify ups = .ok (u, r, l, d, g) →
      d.rowsOf r.rows = r.rows.length →
      let q : Run := { u.runAhead r d with
        truncated := r.truncated || (l.traceAddr != 0 && decide (l.traceLen < r.traceAt + 32)),
        cur := some { desc := d, tiles := [], digest := 0, waves := noWaves, inexact := false, retried := [], slots := [],
                      poison := [], faulted := false, pausedFor := none, order := [] } }
      let x := q.members.foldl (fun x m => x.1.commitMember x.2 (fun i => ofLe (u.partRead r.part (d.a + 4 * i) 4)) m) (u, q)
      let lost := q.members.any fun m => tget [] q.early m.slot != [] && tget [] x.2.early m.slot == []
      exec (.verify t ups) s = .next ((if lost then x.1.dropEarly else x.1).setRun (some x.2)).settleFrees) ∧
    ((s.atTime t).turn kVerify = some (r, l, d) → l.targetLen < l.descs.length →
      exec (.draftEarlyStart t) s = .next ((s.atTime t).setRun (some { r with early := (s.atTime t).earlyRows r d }))) ∧
    (∀ (dr : DraftSt) (got : List Nat) (rows : List RowEnt) (left : List Nat), s.canRun = true → s.eng.run = some r →
      r.draft = some dr → s.list r.part r.list = some l → dr.inPass = false → r.cur = none → dr.left ≠ [] →
      (s.atTime t).passOf dr.iter dr.left [] [] = (got, rows, left) →
      exec (.drafterIteration t) s = .next (((s.atTime t).writeRowMap r.part
        (r.members.map (·.rowmap)) rows 0x100000 0x140000).setRun (some { r with
          rows := rows, pc := l.targetLen, samples := [], loop := none, early := [],
          draft := some { dr with inPass := true, pass := got, left := left } })))

/-- TILE_WRITE and OPERATION_BOUNDARY (R31, R45, R177-R180): a tile that is written leaves the operation, its bytes go to
their destinations and its CRC is added to the operation's digest and its slot's; nothing of a cancelled slot is written any more
(R134); a tile lost once is computed again, its write withheld;
lost again it ends the run FAULTED; an operation without tiles left closes. -/
def Obligations.TilesAndBoundaries : Prop :=
  ∀ (t : Nat) (s : State) (r : Run) (l : OpList) (o : OpFlight), s.runHalves.all s.halfUp = true → s.eng.run = some r →
    r.cur = some o → s.list r.part r.list = some l →
    (∀ (k : Nat) (tile0 tile : Tile), o.tiles[k]? = some tile0 → (s.atTime t).liveTile r o tile0 = some tile →
      let put (u : State) : State := (u.writeTile r.part tile).setRun (some { r with
        cur := some { o with
          tiles := o.tiles.eraseIdx k, digest := o.digest + tile.crc,
          slots := match tile.slot with
            | some i => tmod 0 o.slots i (· + tile.crc)
            | none => o.slots } })
      exec (.tileWrite t k .clean) s = .next (put (s.atTime t)) ∧
      (∀ h, exec (.tileWrite t k (.single h)) s = .next ((put (s.atTime t)).modArr h fun a =>
        { a with tstCorrected := a.tstCorrected + 1 })) ∧
      (∀ h off, exec (.tileWrite t k (.reread h off)) s =
        .next (put ((s.atTime t).report (0x044 + halfNo h) .corrected 1 off))) ∧
      (∀ h off, o.retried.contains (tile.index, tile.slot) = false → exec (.tileWrite t k (.lost h off)) s =
        .next ((((s.atTime t).report (0x044 + halfNo h) .corrected 2 off).countFreeRetry h).setRun (some { r with
          cur := some { o with retried := o.retried ++ [(tile.index, tile.slot)] } }))) ∧
      (∀ h off, o.retried.contains (tile.index, tile.slot) = true → exec (.tileWrite t k (.lost h off)) s =
        .next (((s.atTime t).report (0x044 + halfNo h) .contained 3 off).stopOp { r with cur := none } l o.desc stFaulted))) ∧
    (∀ (k : Nat) (tile : Tile) (e : TstEvent), o.tiles[k]? = some tile → (s.atTime t).liveTile r o tile = none →
      exec (.tileWrite t k e) s = .next ((s.atTime t).setRun (some { r with cur := some { o with tiles := o.tiles.eraseIdx k } }))) ∧
    (∀ tile : Tile,
      (∀ i, tile.slot = some i → s.liveTile r o tile = if r.dead.contains i = true then none else some tile) ∧
      (∀ x, tile.slot = none → tile.mapRow o.desc r.rows = some x → r.dead.contains x.slot = true → s.liveTile r o tile = none) ∧
      (tile.slot = none → r.dead = [] → s.liveTile r o tile = some tile)) ∧
    (o.tiles = [] → exec (.operationBoundary t) s = .next ((s.atTime t).closeOp r l o).retryPool)

/-- The digest of an operation does not depend on the order in which its tiles are written: two tiles written in either order
leave the same run, its digest among it. -/
def Obligations.DigestIgnoresTileOrder : Prop :=
  ∀ (t j k : Nat) (s : State) (r : Run) (l : OpList) (o : OpFlight), s.runHalves.all s.halfUp = true → s.eng.run = some r →
    r.cur = some o → s.list r.part r.list = some l → o.desc.kind ≠ kScatter → (∀ x ∈ o.tiles, x.slot = none) →
    j < k → k < o.tiles.length →
    ∃ u v u' v', exec (.tileWrite t k .clean) s = .next u ∧ exec (.tileWrite t j .clean) u = .next v ∧
      exec (.tileWrite t j .clean) s = .next u' ∧ exec (.tileWrite t (k - 1) .clean) u' = .next v' ∧
      v.eng.run = v'.eng.run

/-! ### The Spire Arrays and HBM on their own (chapters 2, 6, 17) -/

/-- The slabs' checks (R42-R45): with an operation in the arrays and its tile `k` on a bound column, the first check
failure of a row is recorded, counted as a retry, makes the operation's waves inexact and is logged corrected; a second of the
same row within ten seconds, and a stalled slab, take the column out. With no such operation nothing happens. -/
def Obligations.SlabChecks : Prop :=
  ∀ (t : Nat) (h : Half) (col row k : Nat) (s : State) (r : Run) (o : OpFlight),
    s.eng.run = some r → r.cur = some o → k < o.tiles.length → (s.arr.get h).bound.contains col = true →
    let noted := (s.atTime t).modArr h fun a => { a with
      checks := (a.checks.filter fun c => decide (max s.now t ≤ c.2.2 + 10 ^ 10)) ++ [(col, row, max s.now t)] }
    (∀ code : Bool,
      ((∀ c ∈ (s.arr.get h).checks, c.1 = col → c.2.1 = row → c.2.2 + 10 ^ 10 < max s.now t) →
        exec (.slabCheckFail t h col row code k) s = .next (((noted.countFreeRetry h).markInexact h false).report
          (0x042 + halfNo h) .corrected 1 ((if code then 65536 else 0) + col * 256 + row % 32))) ∧
      ((∃ c ∈ (s.arr.get h).checks, c.1 = col ∧ c.2.1 = row ∧ max s.now t ≤ c.2.2 + 10 ^ 10) →
        exec (.slabCheckFail t h col row code k) s = .next (noted.failSlab h col row (if code then 1 else 0)))) ∧
    exec (.slabStallWatchdog t h col row k) s = .next ((s.atTime t).failSlab h col row 2)

/-- The sentinels and the measured rate (R47, R48, R51): each column's slowdown, its fused baseline against what its sentinel
counts, and the rate the meter gives, are kept
up to their widths, a slowdown above 8 % in the ledger too, and the plan is made anew when SENTINEL_WARN sets (R435); a column more than 10 above the median of the good ones for an hour is bound out, with a reserve column to
take its place, when the half's remap is enabled. -/
def Obligations.SentinelsAndRate : Prop :=
  ∀ (t : Nat) (h : Half) (s : State),
    (∀ v, exec (.arrRateUpdate t h v) s = .next ((s.atTime t).modArr h fun a => { a with measured := min 4095 v })) ∧
    (∀ base count, 0 < count → slowdownOf base count = min 65535 ((base - count) * 10000 / count)) ∧
    (∀ (counts : List (Nat × Int)),
      let slow := s.slowdowns h counts
      (∀ i, i < counts.length → slow[i]? = (counts[i]?).map fun c =>
        slowdownOf (Config.sentinelBaseline (halfNo h) i (s.pwr.volts.get h) c.2) c.1) ∧
      let v := ((s.atTime t).modArr h fun a =>
      let cols := (List.range 33).filter fun i => decide (i < slow.length)
      let sent := cols.foldl (fun m i => tset 0 m i (min 65535 (slow.getD i 0))) a.sent
      let m2 := median2 ((a.inState .good).map fun i => tget 0 sent i)
      { a with sent := sent, slowSince := cols.foldl (fun m i =>
          if m2 + 2000 < 2 * tget 0 sent i then
            (if (tget none m i).isSome then m else tset none m i (some (max s.now t)))
          else tset none m i none) a.slowSince }).recordSentinels h fun v => decide (800 < v)
      (exec (.sentinelSample t h counts) s = .next (if (s.arr.get h).sentinelWarn = false ∧
        (v.arr.get h).sentinelWarn = true ∧ s.running = true then v.replan else v)) ∧
      (v.led = s.led ∨ ∃ m, v.led = { s.led with sentinels := m }) ∧
      ∀ i < 33, 800 < tget 0 (v.arr.get h).sent i → tget 0 v.led.sentinels (33 * halfNo h + i) = tget 0 (v.arr.get h).sent i) ∧
    (∀ (col since : Nat), (s.arr.get h).remapEn = true → tget none (s.arr.get h).slowSince col = some since →
      since + 3600 * 10 ^ 9 ≤ max s.now t → (s.arr.get h).col col = .good → col < 32 →
      33 ≤ ((s.arr.get h).inState .good).length → (s.arr.get h).half = .inService → s.eng.run = none →
      exec (.proactiveReserve t h col) s = .next ((((s.atTime t).modArr h fun a =>
        ({ a with cols := tset .good a.cols col .reserve } : Arr).bind).oculusUpdate).report (0x042 + halfNo h) .corrected 5
          (col * 256))) ∧
    (∀ col, (s.arr.get h).remapEn = false → exec (.proactiveReserve t h col) s = .next (s.atTime t))

/-- The half's time base (R315): a block that arrives while one of the half's bundles is up makes it synchronous; with none up
it is not, until one arrives, and counts on its own from a count that the manual does not give. Bundles sleep and wake (R307, R308): an active bundle with nothing to send, nothing unacknowledged and no
credit to report for IDLE_TIME sleeps, in power states P2 and P3 or where its control allows it, light or deep; a flit wakes
it. A UCIe module that is lost (R313) is logged contained, and the Lantern goes on with the others down to four of them;
with three it is fenced; a module that is out already is no loss. -/
def Obligations.BundlesModulesAndTime : Prop :=
  (∀ (t : Nat) (s : State),
    ((s.link 8).st = 1 ∨ (s.link 9).st = 1 → exec (.timeBlock t .west true) s =
      .next ((s.atTime t).modArr .west fun x => { x with unsync := false, unsyncLogged := [] })) ∧
    ((s.link 12).st = 1 ∨ (s.link 13).st = 1 → exec (.timeBlock t .east true) s =
      .next ((s.atTime t).modArr .east fun x => { x with unsync := false, unsyncLogged := [] })) ∧
    ((s.link 8).st = 1 ∨ (s.link 9).st = 1 → exec (.timeBlock t .west false) s = .next (s.atTime t)) ∧
    ((s.link 12).st = 1 ∨ (s.link 13).st = 1 → exec (.timeBlock t .east false) s = .next (s.atTime t)) ∧
    (∀ arrived, (s.link 8).st ≠ 1 → (s.link 9).st ≠ 1 → (s.arr.get .west).unsync = false →
      ∃ n, exec (.timeBlock t .west arrived) s = .next (({ s.atTime t with free := s.free + 1 } : State).modArr .west fun x =>
        { x with unsync := true, ownCount := n })) ∧
    (∀ arrived, (s.link 12).st ≠ 1 → (s.link 13).st ≠ 1 → (s.arr.get .east).unsync = false →
      ∃ n, exec (.timeBlock t .east arrived) s = .next (({ s.atTime t with free := s.free + 1 } : State).modArr .east fun x =>
        { x with unsync := true, ownCount := n })) ∧
    (∀ (h : Half) (arrived : Bool), (s.link (8 + 4 * halfNo h)).st ≠ 1 → (s.link (9 + 4 * halfNo h)).st ≠ 1 →
      (s.arr.get h).unsync = true → exec (.timeBlock t h arrived) s = .next (s.atTime t))) ∧
  (∀ (t : Nat) (b : Fin 16) (s : State),
    (∀ deep, s.sleepDepth b.val = some deep → (s.link b.val).st = 1 → (s.bundle b.val).txAsleep = false →
      (s.link b.val).queue = [] → (s.link b.val).unacked = [] →
      (∀ vc < 4, tget 0 (s.link b.val).freed vc = tget 0 (s.link b.val).reported vc) →
      (s.bundle b.val).idleSince + (s.bundle b.val).idleTime ≤ max s.now t →
      exec (.bundleSleep t b) s = .next ((s.atTime t).modBundle b.val fun x => { x with
        txAsleep := true, rxAsleep := deep }).oculusUpdate) ∧
    (2 ≤ s.pwr.st → s.sleepDepth b.val = some (decide (b.val < 8))) ∧
    ((s.link b.val).queue ≠ [] → exec (.bundleSleep t b) s = .next (s.atTime t)) ∧
    ((s.bundle b.val).txAsleep = true → exec (.bundleWake t b) s = .next ((s.atTime t).modBundle b.val fun x => { x with
      txAsleep := false, rxAsleep := false, idleSince := max s.now t }).oculusUpdate) ∧
    ((s.bundle b.val).txAsleep = false → exec (.bundleWake t b) s = .next (s.atTime t))) ∧
  (∀ (t : Nat) (l : Fin 8) (m : Fin 5) (s : State), (s.lan l.val).fenced = false → twf Lantern.init s.lans = true →
    let left := (s.lan l.val).modules.filter (· ≠ m.val)
    let u := (((s.atTime t).modLan l.val fun x => { x with modules := left }).oculusUpdate).report
      (srcLink (portKey l.val 0)) .contained 0x0B m.val
    ((s.lan l.val).modules.contains m.val = true → 3 < left.length → exec (.ucieModuleLoss t l m) s = .next u) ∧
    ((s.lan l.val).modules.contains m.val = true → left.length ≤ 3 →
      exec (.ucieModuleLoss t l m) s = .next (u.fenceLantern l.val 0x0B)) ∧
    ((s.lan l.val).modules.contains m.val = false → exec (.ucieModuleLoss t l m) s = .next (s.atTime t)))

/-- A scrub pass (R156-R158): every word of the half's locations is read and put right or poisoned, a row whose address
inversion is bad is logged and retired, a pseudo-channel with a parity error is fenced; a half asleep, or with scrub off,
is not scrubbed. A frame that is retired shows in the Oculus table before its fault is logged (R15, R197); the retirements
held back are done once a frame is free. -/
def Obligations.ScrubAndRetire : Prop :=
  ∀ (t : Nat) (h : Half) (s : State),
    (∀ (ups : List Upset) (tags parity : List Nat),
      ((s.hbm.get h).selfRefresh = true → exec (.scrubPass t h ups tags parity) s = .next (s.atTime t)) ∧
      ((s.hbm.get h).selfRefresh = false → (s.hbm.get h).ctrl % 16 ≠ 0 →
        let u := ((s.atTime t).strike ups).settle fun w => dpaHalf (8 * w) == h
        let bad : State → Nat → State := fun u b =>
          ((u.modHbm h fun y => { y with addressErrors := y.addressErrors + 1 }).report (srcStack h (b / 2 ^ 20 / 64))
            .contained 3 (eccAddr (b / 2 ^ 20) (b % 2 ^ 20) 0 0x7F)).retireDue (u.mem.upset.length + 1)
            [(h, b / 2 ^ 20, b % 2 ^ 20, rowFrames (b % 2 ^ 20))]
        exec (.scrubPass t h ups tags parity) s =
          .next (parity.foldl (fun s pc => s.fencePc h pc) (tags.foldl bad u)))) ∧
    ((s.hbm.get h).ctrl % 16 = 0 → ∀ ups tags parity, exec (.scrubPass t h ups tags parity) s = .next (s.atTime t)) ∧
    (∀ e, (s.hbm.get h).retirePending = [e] →
      ((s.hbm.get h).freeSpare ≠ none ∨ (s.hbm.get h).freeFrame ≠ none → exec (.retirePendingResolve t h) s =
        .next (((s.atTime t).settle fun w => w / 2 ^ 18 == dpaFrame h (e % 2 ^ 20)).retireFrame h (e / 2 ^ 20) (e % 2 ^ 20))) ∧
      ((s.hbm.get h).freeSpare = none → (s.hbm.get h).freeFrame = none →
        exec (.retirePendingResolve t h) s = .next (s.atTime t))) ∧
    (∀ stack i, (s.hbm.get h).useOf i = .free → s.retireFrame h stack i = ((((s.setUse h i .retired).modHbm h fun y => { y with
      retired := satTo 65535 (y.retired + 1), retirementCount := y.retirementCount + 1,
      retirePending := y.retirePending.filter (· % 2 ^ 20 ≠ i) }).oculusUpdate).report (srcStack h stack) .corrected 4
        (dpaFrame h i))) ∧
    ((s.hbm.get h).retirePending = [] → exec (.retirePendingResolve t h) s = .next (s.atTime t))

/-- Fencing a pseudo-channel (R159): its lines are given a place at once, also while another copy runs, a slot of the reserve
while one of the four is free, else 512 frames of the pool that leave it; with neither it stays in service, and a contained
fault says so. When its lines are there the channel is fenced and logged, and the channels whose fences are pending are tried
again. -/
def Obligations.ChannelFences : Prop :=
  ∀ (t : Nat) (h : Half) (pc : Nat) (s : State),
    let x := s.hbm.get h
    let out : Bool := x.fences.any (·.1 == pc)
    (out = true → s.fencePc h pc = s) ∧
    (∀ k ks, out = false → x.slotsFree = k :: ks → s.fencePc h pc = (s.modHbm h fun y => { y with
      relocating := y.relocating ++ [(pc, .slot k)], fencePending := y.fencePending.filter (· ≠ pc) }).oculusUpdate) ∧
    (∀ u l, out = false → x.slotsFree = [] → s.takeFenceFrames h = some (u, l) → s.fencePc h pc = (u.modHbm h fun y => { y with
      relocating := y.relocating ++ [(pc, .frames l)], fencePending := y.fencePending.filter (· ≠ pc) }).oculusUpdate) ∧
    (out = false → x.slotsFree = [] → s.takeFenceFrames h = none → x.fencePending.contains pc = false →
      s.fencePc h pc = (s.modHbm h fun y => { y with fencePending := y.fencePending ++ [pc] }).report (srcStack h (pc / 64))
        .contained 7 ((pc % 64) <<< 34)) ∧
    (∀ f rest, x.relocating = f :: rest → x.fencePending = [] → s.mem.upset = [] →
      exec (.pcRelocationDone t h) s = .next ((((s.atTime t).modHbm h fun y => { y with
        relocating := rest, fencedPcs := y.fencedPcs ++ [f] }).oculusUpdate).report (srcStack h (f.1 / 64)) .contained 6
          ((f.1 % 64) <<< 34))) ∧
    (x.relocating = [] → exec (.pcRelocationDone t h) s = .next (s.atTime t)) ∧
    (∀ q, x.fencePending = [q] → exec (.fencePendingResolve t h) s = .next ((s.atTime t).fencePc h q)) ∧
    (x.fencePending = [] → exec (.fencePendingResolve t h) s = .next (s.atTime t))

/-! ### Lanes and modules of the package (chapter 13) -/

/-- Lanes are measured (R309): every millisecond the receiver of an active bundle measures the lanes in service and the
spares, its figure of merit being the width of the open eye times its height, counted for the hour's median (R434); a figure below 40 counts, and at a hundred in a
row the lane is declared failed. LANE_FAILURE declares a lane that has lost its alignment, one with more than 64 invalid
headers in one millisecond of its die's time base (R315, R528), or one with a low figure a hundred times; blocks received are counted. A spare lane is equalised once a second (R302).
LANE_BITSLIP and LANE_FOM_READ (R292, R293): the deserialiser of a lane is slipped by the amount given, modulo 64, or read;
the figure of merit, the equaliser code, the speed and the role of a lane are returned. -/
def Obligations.LanesAreWatched : Prop :=
  (∀ (t : Nat) (b : Fin 16) (s : State),
    (∀ eyes : List Eye, (s.bundle b.val).st = 1 → (s.bundle b.val).rxAsleep = false → (∀ e ∈ eyes, 40 ≤ Eye.fom e) →
      twf Bundle.init s.bundles = true → twf Lane.init (s.bundle b.val).lanes = true →
      let lanes := (List.range (lanesOf b.val)).filter fun i =>
        (((s.bundle b.val).lane i).role == .service || ((s.bundle b.val).lane i).role == .spare) && decide (i < eyes.length)
      exec (.laneFomMeasure t b eyes) s = .next ((s.atTime t).modBundle b.val fun x =>
        lanes.foldl (fun x i => (x.modLane i fun y => { y with fom := (eyes.map Eye.fom).getD i 0, low := 0 }).noteFom i
          ((eyes.map Eye.fom).getD i 0)) x)) ∧
    (∀ (x : Bundle) (i fom : Nat), x.noteFom i fom = { x with foms := tmod [] x.foms i fun m => tmod 0 m fom (· + 1) }) ∧
    (∀ eyes, (s.bundle b.val).st ≠ 1 → exec (.laneFomMeasure t b eyes) s = .next (s.atTime t)) ∧
    (∀ lane : Nat, exec (.laneFailure t b lane .lostAlignment) s = .next ((s.atTime t).declareLane b.val lane)) ∧
    (∀ lane : Nat, 100 ≤ ((s.bundle b.val).lane lane).low →
      exec (.laneFailure t b lane .lowFom) s = .next ((s.atTime t).declareLane b.val lane)) ∧
    (∀ (lane : Nat) (blocks : List RawBlock), twf Bundle.init s.bundles = true →
      twf Lane.init (s.bundle b.val).lanes = true →
      let y := (s.bundle b.val).lane lane
      let r := LaneRx.run y.line blocks
      let w := (s.atTime t).dieNow (rxDie b.val) / 10 ^ 6
      let n := (if y.window = w then y.invalid else 0) + r.invalid
      let v := ((s.atTime t).modBundle b.val fun x => x.modLane lane fun y => { y with
        line := r.line, window := w, invalid := n }).modLink b.val fun x => (x.count 1 r.invalid).count 9 r.badLink
      exec (.laneFailure t b lane (.invalidHeaders blocks)) s = .next (if 64 < n then v.declareLane b.val lane else v)) ∧
    (∀ lane : Nat, ((s.bundle b.val).lane lane).low < 100 →
      exec (.laneFailure t b lane .lowFom) s = .next (s.atTime t)) ∧
    (∀ (lane : Nat), ((s.bundle b.val).lane lane).role = .spare →
      s.declareLane b.val lane = ((s.modBundle b.val fun x =>
        x.modLane lane fun y => { y with role := .failed, low := 0 }).oculusUpdate).report (srcLink b.val) .corrected 4 lane) ∧
    (∀ (lane c : Nat) (cs : List Nat) (eyes : List Eye), ((s.bundle b.val).lane lane).role = .spare →
      byFom ((eyes.take 16).map Eye.fom) = c :: cs → exec (.spareEqSweep t b lane eyes) s = .next ((s.atTime t).modBundle b.val fun x =>
        x.modLane lane fun y => { y with ctle := c, fom := ((eyes.take 16).map Eye.fom).getD c 0 }))) ∧
  (∀ (t id : Nat) (s u : State) (a : Acc),
    (s.Ready t id 0x0A10 a u → a.par 18 1 = 0 → exec (.laneBitslip t id) s =
      .next (u.reply a stOK ((u.bundle (a.par 16 1)).lane (a.par 17 1)).slip 0 0)) ∧
    (s.Ready t id 0x0A10 a u → a.par 18 1 = 1 → twf Bundle.init u.bundles = true →
      twf Lane.init (u.bundle (a.par 16 1)).lanes = true → exec (.laneBitslip t id) s =
      .next ((u.modBundle (a.par 16 1) fun x => x.modLane (a.par 17 1) fun y => { y with
        slip := (y.slip + a.par 19 1) % 64 }).reply a stOK
        ((((u.bundle (a.par 16 1)).lane (a.par 17 1)).slip + a.par 19 1) % 64) 0 0)) ∧
    (s.Taken t id 0x0A20 a u →
      let x := u.bundle (a.par 16 1)
      let y := x.lane (a.par 17 1)
      let b (c : Bool) (n : Nat) : Nat := if c then 2 ^ n else 0
      y.role = .service → x.fomOf (a.par 17 1) < 256 → y.ctle < 16 → x.speed < 16 →
      exec (.laneFomRead t id) s = .next (u.reply a stOK (x.fomOf (a.par 17 1) + y.ctle * 2 ^ 8 + x.speed * 2 ^ 12 + 2 ^ 16 +
        b x.txAsleep 19 + b x.rxAsleep 20) 0 0)))


/-! ### The reliable link layer (chapter 14) -/

/-- FLIT_TRANSMIT (R324, R325, R332): an up link that is not asleep sends the flit its replay has come to, or else, while
fewer than 1,536 flits are unacknowledged, the next flit of the channel chosen (management, then response, then request and
collective in turn), numbered NEXT_TX, and spends a credit; without a credit it sends nothing. A bundle's idle time begins
anew when something is sent (R307). Towards a half whose orderly reset waits for its links, replays alone go on (R336). -/
def Obligations.FlitsAreSent : Prop :=
  ∀ (t : Nat) (link : LinkId) (s : State),
    let k := linkKey link
    let u := s.linkEvent t link
    let x := u.link k
    let v := u.modLink k Link.transmit
    (u.carries k = true → x.waitsReset u k = false → exec (.flitTransmit t link) s = .next (if k < 16 ∧ (v.link k).wire ≠ []
      then v.modBundle k fun b => { b with idleSince := max s.now t } else v)) ∧
    (u.carries k = false ∨ x.waitsReset u k = true → exec (.flitTransmit t link) s = .next u) ∧
    (∀ i, x.replayAt = some i → x.waitsReset u k = false) ∧
    (∀ i f, x.replayAt = some i → x.unacked[i]? = some f → x.transmit =
      (({ x with replayAt := if i + 1 < x.unacked.length then some (i + 1) else none } : Link).emit
        (.flit f true x.gen)).count 4 1) ∧
    (∀ e f fs rest, x.replayAt = none → x.unacked.length < 1536 → x.queue = e :: rest → e.flits = f :: fs → e.vc = 3 →
      0 < tget 0 x.credits 3 → x.transmit = (({ x with
        queue := (if fs.isEmpty then rest else { e with flits := fs, started := true } :: rest),
        unacked := x.unacked ++ [{ f with seq := x.nextTx }], nextTx := (x.nextTx + 1) % 4096,
        credits := tmod 0 x.credits 3 (· - 1) } : Link).emit (.flit { f with seq := x.nextTx } false x.gen)).count 3 1) ∧
    (x.replayAt = none → (∀ vc, tget 0 x.credits vc = 0) → x.transmit = x) ∧
    (x.replayAt = none → 1536 ≤ x.unacked.length → x.transmit = x)

/-- FLIT_RECEIVE on an up link (R323, R328, R329): a flit with a bad CHECK is discarded and asks for a NAK; one with a bad
field breaks the protocol; one of another LINK_GEN is discarded; the next in order is delivered; a duplicate is acknowledged
again; one beyond asks for a NAK. A link that is not up discards it. A message that has come whole is there to be taken; one
that crosses between dies goes on from the die it has reached (R321). -/
def Obligations.FlitsAreReceived : Prop :=
  ∀ (t : Nat) (link : LinkId) (b : List Byte) (s : State),
    let k := linkKey link
    let u := s.linkEvent t link
    let x := u.link k
    let good := (crc32c (slice b 0 252)).toNat = le b 252 4
    let d := (le b 1 2 + 4096 - x.nextRx) % 4096
    let vc := bitsOf (le b 0 1) 5 4
    (x.st ≠ 1 → exec (.flitReceive t link b) s = .next u) ∧
    (x.st = 1 → ¬ good → exec (.flitReceive t link b) s = .next (u.modLink k fun x => (x.count 5 1).nak k u.now)) ∧
    (x.st = 1 → good → flitFieldsOk b = false → exec (.flitReceive t link b) s = .next (u.violation k 3)) ∧
    (x.st = 1 → good → flitFieldsOk b = true → le b 6 2 ≠ x.gen →
      exec (.flitReceive t link b) s = .next (u.modLink k fun x => x.count 9 1)) ∧
    (x.st = 1 → good → flitFieldsOk b = true → le b 6 2 = x.gen →
      (d = 0 → x.inUse vc < buffersOf k vc →
        exec (.flitReceive t link b) s = .next ((u.modLink k fun x => x.deliver k b).takeCrossing k)) ∧
      (d = 0 → buffersOf k vc ≤ x.inUse vc → exec (.flitReceive t link b) s = .next (u.violation k 0)) ∧
      (2048 ≤ d → exec (.flitReceive t link b) s = .next (u.modLink k fun x => (x.count 6 1).ack k)) ∧
      (0 < d → d < 2048 → exec (.flitReceive t link b) s = .next (u.modLink k fun x => x.nak k u.now))) ∧
    ((x.deliver k b).nextRx = (x.nextRx + 1) % 4096 ∧ (x.deliver k b).unacked = x.unacked ∧
      (x.deliver k b).queue = x.queue ∧ (x.deliver k b).taken = tmod 0 x.taken vc (· + 1) ∧
      (bitOf (le b 4 1) 0 = true → bitOf (le b 4 1) 1 = true →
        (x.deliver k b).rxDone = x.rxDone ++ [(vc, slice b 12 (le b 3 1))]) ∧
      (bitOf (le b 4 1) 1 = false → (x.deliver k b).rxDone = x.rxDone))

/-- Acknowledgement (R328, R330): an ACK of a flit in the window frees it and those before it, one beyond NEXT_TX breaks the
protocol, an old one is ignored; a NAK frees the flits before the one it names and starts the replay there; the coalescing
timer sends the ACK that is owed; a link in training or down goes on as it is. Credits (R326, R327, R336): INIT advertises a channel's credits; a CREDIT block gives back
the difference of FREED, and one that would give back more than was advertised breaks the protocol; a receiver reports the
buffers it has freed (R327): every channel's each microsecond, a channel's 32 ns after any advance or once 16 are unreported. An
orderly reset that waited for the flits acknowledged goes on (R336). -/
def Obligations.AcksNaksAndCredits : Prop :=
  (∀ (t : Nat) (link : LinkId) (s : State),
    let k := linkKey link
    let u := s.linkEvent t link
    let x := u.link k
    (∀ seq : BitVec 12,
      let n := (seq.toNat + 4097 - x.oldest) % 4096
      (n ≤ x.unacked.length → exec (.ackReceive t link seq) s = .next (u.modLink k fun x => x.acked n).settleOrderly) ∧
      (x.unacked.length < n → (seq.toNat + 4096 - x.nextTx) % 4096 < 2048 →
        exec (.ackReceive t link seq) s = .next (u.violation k 2)) ∧
      (x.unacked.length < n → 2048 ≤ (seq.toNat + 4096 - x.nextTx) % 4096 →
        exec (.ackReceive t link seq) s = .next u)) ∧
    (∀ seq : BitVec 12,
      let n := (seq.toNat + 4096 - x.oldest) % 4096
      let v := (u.modLink k fun x => x.acked n).settleOrderly
      (n ≤ x.unacked.length → (v.link k).st = 1 → (v.link k).unacked ≠ [] → (v.link k).replayAt ≠ some 0 →
        exec (.nakReceive t link seq) s = .next (v.beginReplay k true)) ∧
      (n ≤ x.unacked.length → (v.link k).unacked = [] ∨ (v.link k).st ≠ 1 → exec (.nakReceive t link seq) s = .next v) ∧
      (x.unacked.length < n → exec (.nakReceive t link seq) s = .next u)) ∧
    (∀ v : State, (∀ h, (v.arr.get h).preparing = false) → v.settleOrderly = v) ∧
    (∀ rule, ((u.report (srcLink k) .contained 9 rule).link k).st ≠ 1 →
      u.violation k rule = u.report (srcLink k) .contained 9 rule) ∧
    (0 < x.toAck → exec (.ackCoalesceTimer t link) s = .next (u.modLink k fun x => x.ack k)) ∧
    (∀ n, 0 < n → n < x.unacked.length → (x.acked n).unacked = x.unacked.drop n ∧ (x.acked n).fails = 0 ∧
      (x.acked n).queue = x.queue ∧ (x.acked n).nextTx = x.nextTx)) ∧
  (∀ (t : Nat) (link : LinkId) (vc : Fin 4) (s : State),
    let k := linkKey link
    let u := s.linkEvent t link
    let x := u.link k
    (∀ c : BitVec 12, exec (.initReceive t link vc c) s = .next (u.modLink k fun x => { x with
      credits := tset 0 x.credits vc.val c.toNat, advert := tset 0 x.advert vc.val c.toNat,
      lastFreed := tset 0 x.lastFreed vc.val 0 })) ∧
    (∀ freed : BitVec 12,
      let n := (freed.toNat + 4096 - tget 0 x.lastFreed vc.val) % 4096
      (n ≤ tget 0 x.advert vc.val → exec (.creditReceive t link vc freed) s = .next (u.modLink k fun x => { x with
        credits := tmod 0 x.credits vc.val (· + n), lastFreed := tset 0 x.lastFreed vc.val freed.toNat })) ∧
      (tget 0 x.advert vc.val < n → exec (.creditReceive t link vc freed) s = .next (u.violation k 1))) ∧
    (∀ n, exec (.creditReport t link vc n) s =
      .next (u.modLink k fun x => (x.free vc.val n u.now).reportDue k u.now)) ∧
    (∀ (y : Link) (n now : Nat),
      (0 < n → n + y.stuck vc.val ≤ y.inUse vc.val → (y.free vc.val n now).freed = tmod 0 y.freed vc.val (· + n)) ∧
      (y.free vc.val n now).taken = y.taken ∧ (y.free vc.val n now).unacked = y.unacked ∧
      (y.reportAt + 1000 ≤ now → (y.reportDue k now).wire =
        y.wire ++ (List.range 4).map fun c => .block 3 (targetOf k) c (tget 0 y.freed c % 4096) 0) ∧
      (now < y.reportAt + 1000 → (∀ c < 4, tget 0 y.freed c < tget 0 y.reported c + 16) →
        (∀ c < 4, ∀ f, tget none y.freedAt c = some f → now < f + 32) → y.reportDue k now = y)))

/-- Replays and retrains (R330, R333-R335, R344): a timeout with flits unacknowledged replays; at REPLAY_LIMIT failures the
link retrains once, and after that goes down, holding its traffic; a retrain that completes settles the width commands (R343), finds
each lane's slip and hands on the lanes that fail (R309, R310), greets again and is logged; one
that does not puts the link down; more than a thousand replays in a second are logged once a minute. A link that is down
keeps what it holds, its queue and its unacknowledged flits, and stays so (R335, R337), until it is tried again: a bundle
trains, a port whose light is full greets. -/
def Obligations.ReplaysRetrainsAndDownLinks : Prop :=
  (∀ (t : Nat) (link : LinkId) (s : State),
    let k := linkKey link
    let u := s.linkEvent t link
    let x := u.link k
    let own := u.dieNow (txDie k)
    (x.st = 1 → x.unacked ≠ [] → x.fails < x.replayLimit → exec (.replayTimeout t link) s = .next (u.modLink k fun x => { x with
      fails := x.fails + 1, replayAt := some 0, window := own / 10 ^ 9,
      inWindow := if x.window = own / 10 ^ 9 then x.inWindow + 1 else 1 })) ∧
    (own = u.now ∨ ∃ h, txDie k = some h ∧ (u.arr.get h).unsync = true ∧ own = u.now + (u.arr.get h).ownCount) ∧
    (x.st = 1 → x.unacked ≠ [] → x.replayLimit ≤ x.fails → x.afterRetrain = false →
      exec (.replayTimeout t link) s =
        .next ((u.modLink k fun x => { x with fails := 0, afterRetrain := true }).retrain k)) ∧
    (x.st = 1 → x.unacked ≠ [] → x.replayLimit ≤ x.fails → x.afterRetrain = true →
      exec (.replayTimeout t link) s = .next (u.linkDown k true)) ∧
    (x.unacked = [] → exec (.replayTimeout t link) s = .next u) ∧
    (∀ found v, Retrained.link found = link → v = (u.settleWidths link).checkLanes found →
      (x.st = 2 → (v.link k).st = 2 → exec (.retrainComplete t found) s =
        .next ((v.modLink k fun x => x.sendHello k).report (srcLink k) .corrected 6 (v.link k).oldest)) ∧
      (x.st = 2 → (v.link k).st ≠ 2 → exec (.retrainComplete t found) s = .next v) ∧
      (x.st ≠ 2 → exec (.retrainComplete t found) s = .next u)) ∧
    (∀ (v : State) (l : Fin 8) (p : Fin 16), v.checkLanes (.port l p) = v) ∧
    (∀ (v : State) (b : Fin 16) (found : List LaneCheck),
      let y := (v.bundle b.val).slipLanes found
      (∀ i, i ∈ y.failing b.val found ↔ i < lanesOf b.val ∧ ((y.lane i).role = .service ∨ (y.lane i).role = .spare) ∧
        ∃ c ∈ found, c.lane = i ∧ (slipFound c.word 0 = none ∨ 8 < c.skew ∨ c.invalid ≠ 0)) ∧
      ((∀ c ∈ found, (slipFound c.word 0).isSome = true ∧ c.skew ≤ 8 ∧ c.invalid = 0) →
        v.checkLanes (.bundle b found) = v.modBundle b.val fun _ => y)) ∧
    (∀ (l : Fin 8) (p : Fin 16) (w : WidthCmd), link = .port l p → x.rxWidth = some w → x.rxWait = [] → x.waitWidth = [] →
      (((u.modLink k Link.noWidths).lan l.val).port p.val).light = lightFull →
      u.settleWidths link = ((u.modLink k Link.noWidths).modLPort l.val p.val fun y =>
        y.afterRx w.action w.lane w.spare).countDrop k w.action) ∧
    (∀ (y : LPort) (a : WidthAction) (lane spare : Nat), (y.afterRx a lane spare).rx = maskAfter a y.rx lane spare ∧
      (y.afterRx a lane spare).tx = y.tx ∧ (a ≠ .replace → (y.afterRx a lane spare).rxOrder = []) ∧
      (a = .replace → y.rxOrder ≠ [] → (y.afterRx a lane spare).rxOrder = y.rxOrder.map fun k => if k = lane then spare else k)) ∧
    (x.noWidths.width = none ∧ x.noWidths.rxWidth = none ∧ x.noWidths.waitWidth = [] ∧ x.noWidths.unacked = x.unacked ∧
      ∀ w, x.width = some w → x.noWidths.lastCmd = some w.cmd) ∧
    (x.st = 2 → exec (.retrainTimeout t link) s = .next (u.linkDown k true)) ∧
    (x.st ≠ 2 → exec (.retrainTimeout t link) s = .next u) ∧
    (x.window = own / 10 ^ 9 → 1000 < x.inWindow → (∀ l, x.rateLogged = some l → l + 60 * 10 ^ 9 ≤ u.now) → exec (.replayRateFault t link) s =
      .next ((u.modLink k fun x => { x with rateLogged := some u.now }).report (srcLink k) .corrected 5 x.inWindow)) ∧
    (x.inWindow ≤ 1000 ∨ x.window ≠ own / 10 ^ 9 → exec (.replayRateFault t link) s = .next u)) ∧
  (∀ (t : Nat) (link : LinkId) (s : State),
    let k := linkKey link
    let u := s.linkEvent t link
    ((s.link k).st < 3 → s.linkDown k false = (if k < 16 then (s.setLink k (({ s.link k with
        st := 3, replayAt := none, hello := false, width := none, waitWidth := [], rxWidth := none, rxWait := [] }
          : Link).count 8 1)).modBundle k fun b => { b with st := 0 }
      else s.setLink k (({ s.link k with
        st := 3, replayAt := none, hello := false, width := none, waitWidth := [], rxWidth := none, rxWait := [] }
          : Link).count 8 1)).oculusUpdate) ∧
    ((u.link k).st ≠ 3 → ∀ tr, exec (.downRetry t link tr) s = .next u) ∧
    ((u.link k).st = 3 → exec (.downRetry t link none) s = .next u) ∧
    (∀ (b : Fin 16) (tr : BundleTrain), link = .bundle b → (u.link k).st = 3 →
      exec (.downRetry t link (some tr)) s = .next (u.trainBundle b.val tr)) ∧
    (∀ (l : Fin 8) (p : Fin 16) (tr : BundleTrain), link = .port l p → (u.link k).st = 3 →
      ((u.lan l.val).port p.val).light = lightFull → exec (.downRetry t link (some tr)) s =
        .next (u.modLink k fun x => ({ x with st := 2 } : Link).sendHello k).oculusUpdate))

/-- Greeting (R334, R336, R338, R395): a training link's end whose HELLO comes with an equal LINK_GEN starts both ends afresh when
either is fresh, else resumes with the flits from NEXT_RX, and is up; a NEXT_RX past what was sent breaks the protocol (R330,
R340); a different LINK_GEN leaves the link in training, noted, but that a fresh end of a port takes over a later one from a
fresh end. A link that is up, down or fenced, or has no role, notes the HELLO alone. What waits for a port is settled. -/
def Obligations.Greetings : Prop :=
  ∀ (t : Nat) (link : LinkId) (fresh : Bool) (nextRx : BitVec 12) (gen : BitVec 16) (s : State),
    let k := linkKey link
    let u := (s.linkEvent t link).modLink k fun x => { x with farGen := gen.toNat, hello := true }
    let x := u.link k
    let adopts : Bool := decide (16 ≤ k) && fresh && x.fresh && genLater gen.toNat x.gen
    let done (v : State) : State := match link with
      | .bundle _ => v.settleOrderly.settlePorts
      | .port l _ => v.settleOrderly.settlePorts.settleRestore l.val
    let n := (nextRx.toNat + 4096 - x.oldest) % 4096
    let past := x.unacked.length < n ∧ (nextRx.toNat + 4096 - x.nextTx) % 4096 < 2048
    (x.gen = 0 ∨ x.st = 1 ∨ x.st = 3 ∨ x.st = 4 → exec (.helloReceive t link fresh nextRx gen) s = .next (done u)) ∧
    (x.gen ≠ 0 → x.st = 0 ∨ x.st = 2 → adopts = false →
      (x.gen ≠ gen.toNat → exec (.helloReceive t link fresh nextRx gen) s = .next (done u)) ∧
      (x.gen = gen.toNat → (fresh || x.fresh) = true →
        exec (.helloReceive t link fresh nextRx gen) s = .next (done ((u.freshStart k).linkUp k))) ∧
      (x.gen = gen.toNat → (fresh || x.fresh) = false → past →
        exec (.helloReceive t link fresh nextRx gen) s = .next (done (u.violation k 2))) ∧
      (x.gen = gen.toNat → (fresh || x.fresh) = false → ¬ past →
        let y := if n ≤ x.unacked.length then x.acked n else x
        exec (.helloReceive t link fresh nextRx gen) s =
          .next (done ((u.modLink k fun _ => { y with replayAt := if y.unacked.isEmpty then none else some 0 }).linkUp k)))) ∧
    (x.gen ≠ 0 → x.st = 0 ∨ x.st = 2 → adopts = true → twf none s.links = true →
      let v := u.modLink k fun x => ({ x with gen := gen.toNat, adopted := true } : Link).sendHello k
      exec (.helloReceive t link fresh nextRx gen) s = .next (done ((v.freshStart k).linkUp k))) ∧
    (k < 16 → u.linkUp k = ((u.setLink k { x with st := 1, everUp := true, fresh := false, adopted := false }).modBundle k
      fun y => { y with st := 1 }).oculusUpdate)

/-- The note of a fenced bundle's receiver (R337): the flits that did not arrive go, ahead of the messages not begun, to the
first sibling that is up, the messages not begun to siblings, and what had come of a message that goes on there; the fenced bundle
holds nothing any more. Width changes (R341, R343): a request is taken once,
switched at once when no other is in progress and queued otherwise; the receiver that sees the switch rebinds its lanes and
answers done, when it has seen the switch on at least half the lanes of the old set; a done ends the change in progress and starts the next that waits. -/
def Obligations.FencedBundlesAndWidths : Prop :=
  (∀ (t : Nat) (b : Fin 16) (nextRx : BitVec 12) (s : State),
    let u := s.linkEvent t (.bundle b)
    let x := u.link b.val
    (∀ sib more, u.siblings b.val = sib :: more → x.st = 4 →
      let n := (nextRx.toNat + 4096 - x.oldest) % 4096
      n ≤ x.unacked.length →
      let moved := (x.unacked.drop n).map fun f => ({ no := f.msg, vc := f.vc, flits := [f], started := true, msg := none } : QEnt)
      let begun := (((List.range 4).filter fun vc => !(tget [] x.rxPart vc).isEmpty).map fun vc => (vc, tget [] x.rxPart vc)) ++ x.rxMoved
      exec (.fenceNoteReceive t b nextRx) s = .next (((x.queue.filter (!·.started)).foldl (fun v e =>
          v.moveEntry (sib :: more) e) ((u.modLink sib fun y => { y with
        queue := y.queue.filter (·.started) ++ moved ++ x.queue.filter (·.started) ++ y.queue.filter (!·.started) }).modLink sib
          fun y => { y with rxMoved := y.rxMoved ++ begun })).modLink
          b.val fun x => { x with
          queue := [], unacked := [], replayAt := none, fails := 0, afterRetrain := false, rxPart := [], rxMoved := [] }).settleOrderly ∧
      ∀ (v : State) (e : QEnt), ∃ y ∈ sib :: more, v.moveEntry (sib :: more) e =
        ({ v with free := v.free + 1 } : State).modLink y fun z => { z with queue := z.queue ++ [e] }) ∧
    (x.st ≠ 4 → exec (.fenceNoteReceive t b nextRx) s = .next u)) ∧
  (∀ (t : Nat) (link : LinkId) (cmd : BitVec 8) (a : WidthAction) (lane spare seen : Nat) (s : State),
    let k := linkKey link
    let u := s.linkEvent t link
    let x := u.link k
    let w : WidthCmd := ⟨cmd.toNat, a, lane, spare, false⟩
    (x.st = 1 → x.lastCmd ≠ some cmd.toNat → x.width = none → a ≠ .add ∨ k < 16 →
      exec (.widthReq t link cmd a lane spare) s = .next (u.switchTx k w)) ∧
    (∀ (l : Fin 8) (p : Fin 16), link = .port l p → x.st = 1 → x.lastCmd ≠ some cmd.toNat → x.width = none → a = .add →
      exec (.widthReq t link cmd a lane spare) s =
        .next (((u.switchTx k w).reAdded l.val p.val lane).portSettled l.val p.val lane)) ∧
    (∀ v, x.st = 1 → x.lastCmd ≠ some cmd.toNat → x.width = some v → v.cmd ≠ cmd.toNat →
      exec (.widthReq t link cmd a lane spare) s = .next (u.modLink k fun x => { x with waitWidth := x.waitWidth ++ [w] })) ∧
    (x.st = 1 → x.lastCmd = some cmd.toNat → exec (.widthReq t link cmd a lane spare) s = .next u) ∧
    (∀ v, x.st = 1 → x.width = some v → v.cmd = cmd.toNat → x.waitWidth = [] → exec (.widthDone t link cmd) s =
      .next (u.modLink k fun x => { x with width := none, lastCmd := some cmd.toNat })) ∧
    (∀ v y ys, x.st = 1 → x.width = some v → v.cmd = cmd.toNat → x.waitWidth = y :: ys →
      let w := (u.modLink k fun x => { x with width := none, lastCmd := some cmd.toNat }).modLink k fun x =>
        { x with waitWidth := ys }
      exec (.widthDone t link cmd) s = .next (w.takeTx k y) ∧ (y.action ≠ .add → w.takeTx k y = w.switchTx k y)) ∧
    (x.st ≠ 1 → exec (.widthDone t link cmd) s = .next u) ∧
    (∀ v, x.width = some v → v.cmd ≠ cmd.toNat → exec (.widthDone t link cmd) s = .next u) ∧
    (∀ (l : Fin 8) (p : Fin 16), link = .port l p → x.st = 1 → u.rxWidthOf link ≤ 2 * seen → x.rxWidth = none →
      exec (.widthSwitch t link cmd a lane ⟨spare, seen⟩) s =
        .next (((u.modLPort l.val p.val fun y => (y.afterRx a lane spare).gapSeen a lane).countDrop k a).oculusUpdate.modLink k fun x =>
          ({ x with rxLastCmd := some cmd.toNat } : Link).block k 6 cmd.toNat 0 0)) ∧
    (∀ b : Fin 16, link = .bundle b → x.st = 1 → u.rxWidthOf link ≤ 2 * seen → ((u.bundle b.val).lane lane).role = .service ∨ a = .add →
      let v := (u.laneChanged b.val a lane spare).setLink k (({ (u.laneChanged b.val a lane spare).link k with
        rxLastCmd := some cmd.toNat } : Link).block k 6 cmd.toNat 0 0)
      ((u.laneChanged b.val a lane spare).link k).rxWidth = none → (v.link k).rxWidth = none → (v.bundle b.val).wait = [] →
      exec (.widthSwitch t link cmd a lane ⟨spare, seen⟩) s = .next v) ∧
    (x.st ≠ 1 ∨ 2 * seen < u.rxWidthOf link → exec (.widthSwitch t link cmd a lane ⟨spare, seen⟩) s = .next u))


/-! ### Lanterns (chapter 15) -/

/-- Lasers and their spares (R347, R348, R367-R370, R385, R281): a check of a laser in use keeps its readings, its bias no
higher than its ceiling, which is the lower of its fused limit, 1.5 times its fused bias, and what R435 has lowered it to; a first warning is logged
corrected, and with AUTO_SWAP_EN a swap to a free spare begins; past the forced threshold, or when it fades suddenly, the
wavelength is swapped at once, or retired when no spare is free. A locked spare of a swap at warning waits for a gap, or, with
no port up, is switched in, unless a drain or an open shell holds it (R371); when no spare can be locked a forced swap
retires the wavelength, another is carried again; LASER_SWAP waits for the swap it starts, at once with the wavelength
dropped first, and with no spare free retires it. A laser's output is judged against the baseline of commissioning, before
that the fused one (R385). A ring's heater code moves by at most three steps at an update, which is 0.2 GHz (R349, R350): a
modulator ring's or a laser's towards its set point, a drop ring's towards the side of the larger current, no other code. -/
def Obligations.LasersAndSpares : Prop :=
  ∀ (t id : Nat) (l : Fin 8) (i : Fin 18) (s : State),
    let y := (s.lan l.val).laser i.val
    let k := (s.lan l.val).waveOf i.val
    (∀ (bias : Nat) (output freq : Int) (off : Bool),
      let delta := output - s.outputBase l.val i.val k
      let read (w : Bool) : State := (s.atTime t).modLan l.val fun x => x.modLaser i.val fun y => { y with
        bias := min (s.ceiling l.val i.val) bias, delta := delta, freq := freq, warn := w }
      let note (v : State) : State := if y.warn then v else (v.oculusUpdate).report (0x0A0 + l.val) .corrected 4 i.val
      (y.st = 1 → -100 < delta → 10 * bias < 9 * s.ceiling l.val i.val → off = false →
        exec (.laserCheck t l i bias output freq off) s = .next (read false)) ∧
      (y.st = 1 → -200 < delta → off = false → delta ≤ -100 ∨ 9 * s.ceiling l.val i.val ≤ 10 * bias →
        exec (.laserCheck t l i bias output freq off) s = .next ((note (read true)).warnSwap l.val k)) ∧
      (y.st = 1 → delta ≤ -200 ∨ off = true →
        exec (.laserCheck t l i bias output freq off) s = .next ((note (read true)).forceWave l.val k)) ∧
      (y.st ≠ 1 → exec (.laserCheck t l i bias output freq off) s = .next ((s.atTime t).modLan l.val fun x =>
        x.modLaser i.val fun y => { y with bias := bias, delta := delta, freq := freq }))) ∧
    (y.st = 1 → y.warn = true →
      let v := (s.atTime t).modLan l.val fun x => x.modLaser i.val fun y => { y with warn := true }
      exec (.laserSuddenFade t l i) s = .next (v.forceWave l.val ((v.lan l.val).waveOf i.val))) ∧
    (∀ k, (s.lan l.val).swap = none →
      ((s.lan l.val).freeSpare none = none → s.forceWave l.val k = s.retireWave l.val k) ∧
      (bitOf (s.lan l.val).ctrl 0 = true → ∀ j, (s.lan l.val).freeSpare none = some j →
        s.warnSwap l.val k = s.modLan l.val fun x => { x.modLaser (16 + j) fun y => { y with
          st := 3, target := k, warn := false } with swap := some ⟨k, j, false, false, false, false, false, []⟩ })) ∧
    (∀ (w : Swap) (j : Fin 2), (s.lan l.val).swap = some w → w.spare = j.val → w.locked = false →
      let v := ((s.atTime t).modLan l.val fun x => { x.modLaser (16 + j.val) fun y => { y with st := 2 } with
        swap := some { w with locked := true } }).oculusUpdate
      (w.atOnce = true → exec (.spareLocked t l j) s = .next (v.runSwap l.val)) ∧
      (w.atOnce = false → v.upPorts l.val ≠ [] ∨ (v.lan l.val).swapHeld = true → exec (.spareLocked t l j) s = .next v) ∧
      (w.atOnce = false → v.upPorts l.val = [] → (v.lan l.val).swapHeld = false → exec (.spareLocked t l j) s = .next (v.switchSpare l.val []))) ∧
    (∀ (w : Swap) (j : Fin 2), (s.lan l.val).swap = some w → w.spare = j.val → w.locked = false →
      let v := (((s.atTime t).modLan l.val fun x => { x.modLaser (16 + j.val) fun y => { y with st := 4 } with
        swap := none }).oculusUpdate).report (0x0A0 + l.val) .corrected 7 (256 * j.val)
      (∀ u, v.beginSwap l.val w.wave w.atOnce w.dropped w.forced none = some u → exec (.spareLockFail t l j) s = .next u) ∧
      (v.beginSwap l.val w.wave w.atOnce w.dropped w.forced none = none → w.forced = true → exec (.spareLockFail t l j) s =
        .next (((v.retireWave l.val w.wave).replySwap l.val w.wave 0xFF stDegraded).nextSwap l.val)) ∧
      (v.beginSwap l.val w.wave w.atOnce w.dropped w.forced none = none → w.forced = false → v.gal.waiters = [] →
        exec (.spareLockFail t l j) s = .next (((if w.dropped then v.eachPort l.val allPorts .add w.wave else v).replySwap l.val
          w.wave 0xFF stNoResource).nextSwap l.val))) ∧
    (∀ (u : State) (a : Acc), s.Ready t id 0x0610 a u → (u.lan (a.par 16 1)).swap = none →
      (u.lan (a.par 16 1)).swapQ = [] → (u.lan (a.par 16 1)).sourceOf (a.par 17 1) ≠ 3 → a.par 19 1 = 0xFF →
      (∀ v, u.beginSwap (a.par 16 1) (a.par 17 1) (decide (a.par 18 1 = 1)) false false none = some v →
        exec (.laserSwap t id) s = .next ((v.releaseSwap (a.par 16 1)).wait a (.swap (a.par 16 1) (a.par 17 1)))) ∧
      (∀ (v : State) (l : Nat) (w : Swap), (v.lan l).swap = some w → w.switched = false → w.dropped = false →
        w.locked = false → (w.atOnce = false → v.releaseSwap l = v) ∧ (w.atOnce = true → v.releaseSwap l =
          (v.dropWave l w.wave).modLan l fun x => { x with swap := some { w with dropped := true } })) ∧
      (u.beginSwap (a.par 16 1) (a.par 17 1) (decide (a.par 18 1 = 1)) false false none = none → exec (.laserSwap t id) s =
        .next ((u.retireWave (a.par 16 1) (a.par 17 1)).reply a stDegraded (255 + 256 * a.par 17 1) 0 0))) ∧
    (s.ceiling l.val i.val =
      let f := tget (0, 0, 0) s.fuses.lasers (18 * l.val + i.val)
      match y.lowered with
      | some d => min (min f.2.1 (3 * f.1 / 2)) d
      | none => min f.2.1 (3 * f.1 / 2)) ∧
    (s.outputBase l.val i.val k = match tget none s.led.outputs (laserKey l.val i.val k) with
      | some o => o
      | none => (tget (0, 0, 0) s.fuses.lasers (18 * l.val + i.val)).2.2) ∧
    (∀ (r : RingId) (seen : RingReading) (old : Nat), twf Lantern.init s.lans = true → twf 0 (s.lan l.val).rings = true →
      tget 0 (s.lan l.val).rings (ringKey r) = old → old ≤ 65535 →
      ∃ v, exec (.ringLockUpdate t l r seen) s = .next v ∧ s.KeepsBut [.now, .free, .lans] v ∧
        (∀ j, j ≠ ringKey r → tget 0 (v.lan l.val).rings j = tget 0 (s.lan l.val).rings j) ∧
        let new := tget 0 (v.lan l.val).rings (ringKey r)
        let goal := tget 0 s.led.setPoints (1024 * l.val + ringKey r)
        new ≤ old + 3 ∧ old ≤ new + 3 ∧ new ≤ 65535 ∧
        (∀ d, seen = .detuning d → (d < goal → old ≤ new) ∧ ((goal : Int) < d → new ≤ old) ∧ (d = goal → new = old)) ∧
        (∀ a b c, seen = .currents a b c → b < c → a ≤ c → old ≤ new ∧ (old < 65535 → old < new)) ∧
        (∀ a b c, seen = .currents a b c → b < a → c < a → new ≤ old ∧ (0 < old → new < old)) ∧
        (∀ a b c, seen = .currents a b c → a ≤ b → c ≤ b → new = old))

/-- Calibration gaps (R282, R364-R366): a gap starts when the Lantern is free for one and its period has passed, never
otherwise; a wavelength that stays away for 5 ms counts as dropped on its port; a hold ends when its time has come.
CAL_GAP_POLICY sets the mode, the period and the hold of the Lanterns it names and returns the period that was; a gap that it
asks for starts at once, or when the Lantern is free for one again. -/
def Obligations.CalibrationGaps : Prop :=
  ∀ (t id : Nat) (l : Fin 8) (s : State),
    ((s.atTime t).gapFree l.val = true → (s.atTime t).gapDue l.val = true →
      exec (.calGapStart t l) s = .next (((s.atTime t).startGap l.val).oculusUpdate)) ∧
    ((s.atTime t).gapFree l.val = false → exec (.calGapStart t l) s = .next (s.atTime t)) ∧
    ((s.lan l.val).gap ≠ none ∨ (s.lan l.val).drain ≠ none ∨ (s.lan l.val).fenced = true ∨ 2 < s.pwr.st →
      s.gapFree l.val = false) ∧
    (∀ (p : Fin 16) (g : Gap), (s.lan l.val).gap = some g → g.ports.contains p.val = true → g.since + 5 * 10 ^ 6 ≤ max s.now t →
      exec (.calGapTimeout t l p) s = .next (((s.atTime t).modLPort l.val p.val fun y => { y with
        txDropped := tset none y.txDropped g.wave (some (max s.now t)) }).portSettled l.val p.val g.wave)) ∧
    (∀ h, (s.lan l.val).holdUntil = some h → max s.now t < h → exec (.calGapHoldEnd t l) s = .next (s.atTime t)) ∧
    (∀ h, (s.lan l.val).holdUntil = some h → h ≤ max s.now t →
      let v := (s.atTime t).modLan l.val fun x => { x with gapMode := 0, holdUntil := none }
      (v.gapFree l.val = true → v.gapDue l.val = true →
        exec (.calGapHoldEnd t l) s = .next (v.startGap l.val).oculusUpdate) ∧
      (v.gapFree l.val = false → exec (.calGapHoldEnd t l) s = .next v)) ∧
    (∀ period hold,
      let v := if period = 0 then s else s.modLan l.val fun x => { x with gapPeriod := period }
      s.gapPolicy l.val 1 period hold =
        (v.modLan l.val fun x => { x with gapMode := 1, holdUntil := some (v.now + hold * 10 ^ 6) }) ∧
      (v.gapFree l.val = true → s.gapPolicy l.val 2 period hold = (v.startGap l.val).oculusUpdate) ∧
      (v.gapFree l.val = false → s.gapPolicy l.val 2 period hold = v.modLan l.val fun x => { x with gapAsked := true }) ∧
      ((v.lan l.val).gapMode ≠ 1 → s.gapPolicy l.val 0 period hold =
        v.modLan l.val fun x => { x with gapMode := 0, holdUntil := none })) ∧
    (∀ (u : State) (a : Acc), s.Ready t id 0x0620 a u →
      (a.par 16 1 ≠ 0xFF → exec (.calGapPolicy t id) s = .next ((u.gapPolicy (a.par 16 1) (a.par 17 1) (a.par 20 4)
        (a.par 24 4)).reply a stOK (u.lan (a.par 16 1)).gapPeriod 0 0)) ∧
      (a.par 16 1 = 0xFF → exec (.calGapPolicy t id) s = .next (((List.range 8).foldl (fun v l =>
        v.gapPolicy l (a.par 17 1) (a.par 20 4) (a.par 24 4)) u).reply a stOK (u.lan 0).gapPeriod 0 0)))

/-- Wavelengths drop and come back (R357, R359-R361): codewords received on a lit wavelength are counted when they cannot be
corrected; a wavelength whose decoder has lost its lock, that has seen more than 16 of them in one millisecond, or whose ring
its receiver or its transmitter loses, is noted dropped from now on and taken off the width; a clean lock again, with a skew that
can be removed, adds it, logged when it was away for a second at most; one that the far end's gap took off is asked for again
once it has locked; a second away is logged contained once; a symbol error ratio above 1e-6 is logged corrected once a minute. -/
def Obligations.Wavelengths : Prop :=
  ∀ (t : Nat) (l : Fin 8) (p k : Fin 16) (s : State),
    let y := (s.lan l.val).port p.val
    let key := 16 + 16 * l.val + p.val
    (y.light = lightFull → bitOf y.rx k.val = true → tget none y.rxDropped k.val = none →
      exec (.lambdaFail t l p ⟨k, .ringLost⟩) s = .next ((s.atTime t).lambdaLost l.val p.val k.val) ∧
      ∀ words,
        let v := (s.atTime t).receiveWords l.val p.val k.val words
        let w := ((v.lan l.val).port p.val).wave k.val
        exec (.lambdaFail t l p ⟨k, .codewords words⟩) s = .next (if w.lock.locked = false ∨ 16 < w.bad
          then v.lambdaLost l.val p.val k.val else v)) ∧
    (∀ v : State, v.lambdaLost l.val p.val k.val = (v.modLPort l.val p.val fun y => { y with
      rxDropped := tset none y.rxDropped k.val (some v.now) }).requestWidth key .drop k.val 0xFF) ∧
    (∀ words, (y.wave k.val).lock.held words = words → twf Lantern.init s.lans = true →
      twf LPort.init (s.lan l.val).ports = true → twf WaveRx.init y.fec = true → twf 0 (s.lan l.val).counts = true →
      let v := s.receiveWords l.val p.val k.val words
      let w := ((v.lan l.val).port p.val).wave k.val
      w.bad = (if (y.wave k.val).window = s.dieNow (rxDie key) / 10 ^ 6 then (y.wave k.val).bad else 0) +
        uncorrectable words ∧
      w.lock = words.foldl FecLock.take (y.wave k.val).lock ∧
      tget 0 (v.lan l.val).counts 2 = tget 0 (s.lan l.val).counts 2 + uncorrectable words ∧
      tget 0 (v.lan l.val).counts (0x20 + p.val) = tget 0 (s.lan l.val).counts (0x20 + p.val) + uncorrectable words) ∧
    (y.light = lightFull → bitOf y.tx k.val = true → tget none y.txDropped k.val = none →
      exec (.modRingLockLoss t l p k) s = .next (((s.atTime t).modLPort l.val p.val fun y => { y with
        txDropped := tset none y.txDropped k.val (some (max s.now t)) }).startWidth key .drop k.val 0xFF)) ∧
    (y.light ≠ lightFull → (∀ c, exec (.lambdaFail t l p ⟨k, c⟩) s = .next (s.atTime t)) ∧
      exec (.modRingLockLoss t l p k) s = .next (s.atTime t)) ∧
    (∀ since words, tget none y.rxDropped k.val = some since → y.light = lightFull → (FecLock.search words).locked = true →
      ∀ skew ≤ maxSkew,
      let v := (((s.atTime t).modLPort l.val p.val fun y => y.modWave k.val fun x =>
        { x with lock := FecLock.search words, bad := 0 }).modLPort l.val p.val fun y => { y with
          dropLogged := y.dropLogged.filter (· ≠ 2 * k.val), rxDropped := tset none y.rxDropped k.val none }).requestWidth key
            .add k.val 0xFF
      (v.now ≤ since + 10 ^ 9 → exec (.lambdaRelockAttempt t l p k false ⟨words, skew, true⟩) s =
        .next (v.report (0x0A0 + l.val) .corrected 2 (k.val * 256 + p.val))) ∧
      (since + 10 ^ 9 < v.now → exec (.lambdaRelockAttempt t l p k false ⟨words, skew, true⟩) s = .next v)) ∧
    (∀ words clean skew, (FecLock.search words).locked = false ∨ maxSkew < skew →
      exec (.lambdaRelockAttempt t l p k false ⟨words, skew, clean⟩) s = .next (s.atTime t)) ∧
    (∀ words clean skew, tget none y.rxDropped k.val = none → y.rxGap.contains k.val = true → y.light = lightFull →
      (FecLock.search words).locked = true → skew ≤ maxSkew → exec (.lambdaRelockAttempt t l p k false ⟨words, skew, clean⟩) s =
        .next ((((s.atTime t).modLPort l.val p.val fun y => y.modWave k.val fun x =>
          { x with lock := FecLock.search words, bad := 0 }).modLPort l.val p.val fun y => { y with
            rxGap := y.rxGap.filter (· ≠ k.val) }).requestWidth key .add k.val 0xFF)) ∧
    (∀ words skew, tget none y.txDropped k.val ≠ none → y.light = lightFull →
      exec (.lambdaRelockAttempt t l p k true ⟨words, skew, true⟩) s =
        .next (((s.atTime t).reAdded l.val p.val k.val).startWidth key .add k.val 0xFF)) ∧
    (∀ since, tget none y.txDropped k.val = some since →
      let v := s.modLPort l.val p.val fun y => { y with
        txDropped := tset none y.txDropped k.val none, dropLogged := y.dropLogged.filter (· ≠ 2 * k.val + 1) }
      (s.now ≤ since + 10 ^ 9 →
        s.reAdded l.val p.val k.val = v.report (0x0A0 + l.val) .corrected 2 (4096 + k.val * 256 + p.val)) ∧
      (since + 10 ^ 9 < s.now → s.reAdded l.val p.val k.val = v)) ∧
    (∀ words skew, exec (.lambdaRelockAttempt t l p k true ⟨words, skew, false⟩) s = .next (s.atTime t)) ∧
    (∀ words skew, y.rxGap.contains k.val = false →
      exec (.lambdaRelockAttempt t l p k false ⟨words, skew, false⟩) s = .next (s.atTime t)) ∧
    (∀ since, tget none y.rxDropped k.val = some since → since + 10 ^ 9 ≤ max s.now t →
      y.dropLogged.contains (2 * k.val) = false → exec (.lambdaDropTimeout t l p k false) s =
        .next (((s.atTime t).modLPort l.val p.val fun y => { y with dropLogged := y.dropLogged ++ [2 * k.val] }).report
          (0x0A0 + l.val) .contained 3 (k.val * 256 + p.val))) ∧
    (∀ tx since, tget none (if tx then y.txDropped else y.rxDropped) k.val = some since → max s.now t < since + 10 ^ 9 →
      exec (.lambdaDropTimeout t l p k tx) s = .next (s.atTime t)) ∧
    (∀ e n,
      let v := ((s.atTime t).modLPort l.val p.val fun y => { y with corrected := tset 0 y.corrected k.val e }).modLan l.val
        fun x => x.count 1 e
      (e * 10 ^ 6 ≤ n → exec (.serCheck t l p k e n) s = .next v) ∧
      (n < e * 10 ^ 6 → tget none (v.lan l.val).serLogged (16 * p.val + k.val) = none → exec (.serCheck t l p k e n) s =
        .next ((v.modLan l.val fun x => { x with
          serLogged := tset none x.serLogged (16 * p.val + k.val) (some (max s.now t)) }).report (0x0A0 + l.val) .corrected 1
            (k.val * 256 + p.val))))

/-- Shells, light and beacons (R374-R378): an opened shell darkens every fibre, and with no drain in effect is logged once; a
closed one lights them again when none is; a port that loses its light falls back; a READY port back in a far end's third
READY frame ramps; a ramp or a beacon that stays away backs the port off for 100 ms; full light brings the link up again. -/
def Obligations.ShellsAndBeacons : Prop :=
  ∀ (t : Nat) (l : Fin 8) (p : Fin 16) (s : State),
    let y := (s.lan l.val).port p.val
    let u := (s.atTime t).modLan l.val fun x => { x with present := false }
    (∀ found : List Nat,
      ((s.lan l.val).drain = none → (s.lan l.val).shell ≠ 1 → exec (.shellOpen t ⟨l, found⟩) s =
        .next (((((u.dropAll l.val lightDark true).modLan l.val fun x => { x with shell := 1 }).oculusUpdate).report
          (0x0A0 + l.val) .contained 10 0).testShutters l.val found)) ∧
      ((s.lan l.val).drain = none → (s.lan l.val).shell = 1 →
        exec (.shellOpen t ⟨l, found⟩) s = .next ((u.dropAll l.val lightDark true).testShutters l.val found)) ∧
      ((s.lan l.val).drain ≠ none → (s.lan l.val).drainDone = true → exec (.shellOpen t ⟨l, found⟩) s =
        .next ((((u.modLan l.val fun x => { x with shell := 1, restoring := false }).dropAll l.val lightDark
          false).oculusUpdate).testShutters l.val found)) ∧
      ((s.lan l.val).drain ≠ none → (s.lan l.val).drainDone = false → exec (.shellOpen t ⟨l, found⟩) s =
        .next (((u.modLan l.val fun x => { x with shell := 1, restoring := false }).completeDrain l.val).testShutters
          l.val found)) ∧
      ((∀ a ∈ found.take 16, 350 ≤ a) → s.testShutters l.val found = s) ∧
      (∀ f, (∀ a ∈ (found.take 16).take f, 350 ≤ a) → (∃ a, (found.take 16)[f]? = some a ∧ a < 350) →
        badFibre found = some f ∧ ((s.lan l.val).fenced = false → s.testShutters l.val found = (s.report (0x0A0 + l.val) .contained 8 f).fenceLantern l.val 8))) ∧
    (∀ v : State, v = ((s.atTime t).modLan l.val fun x => { x with
        present := true, shell := if x.drain.isSome then 2 else 0 }).oculusUpdate →
      ((v.lan l.val).drain ≠ none → exec (.shellClosed t l) s = .next v) ∧
      ((v.lan l.val).drain = none → exec (.shellClosed t l) s = .next ((v.relight l.val).dueGap l.val))) ∧
    (((s.gapFree l.val && s.gapDue l.val) = true → s.dueGap l.val = (s.startGap l.val).oculusUpdate) ∧
      ((s.gapFree l.val && s.gapDue l.val) = false → s.dueGap l.val = s)) ∧
    (y.light = lightFull ∨ y.light = lightRamp → exec (.rxLightLoss t l p) s =
      .next (((s.atTime t).dropPort l.val p.val lightKeep true).oculusUpdate)) ∧
    (y.light = lightKeep ∨ y.light = lightDark → exec (.rxLightLoss t l p) s = .next (s.atTime t)) ∧
    (∀ f : BitVec 64, (beaconOk f = false → exec (.beaconReceive t l p f) s = .next (s.atTime t)) ∧
      (beaconOk f = true → y.light = lightFull →
        let n := if bitsOf f.toNat 17 16 = 1 ∨ bitsOf f.toNat 17 16 = 2 then y.frames + 1 else 0
        let v := (s.atTime t).modLPort l.val p.val fun y => { y with
          frames := n, lastFrame := some (max s.now t), farSeen := true,
          farId := if bitOf f.toNat 33 then some (bitsOf f.toNat 32 18) else none,
          farLantern := bitsOf f.toNat 36 34, farPort := bitsOf f.toNat 40 37 }
        ((v.lan l.val).port p.val).light = lightFull → exec (.beaconReceive t l p f) s = .next v) ∧
      (beaconOk f = true → y.light = lightKeep → y.retryAt = none → bitsOf f.toNat 17 16 = 0 →
        let v := (s.atTime t).modLPort l.val p.val fun y => { y with
          frames := 0, lastFrame := some (max s.now t), farSeen := true,
          farId := if bitOf f.toNat 33 then some (bitsOf f.toNat 32 18) else none,
          farLantern := bitsOf f.toNat 36 34, farPort := bitsOf f.toNat 40 37 }
        v.ready l.val p.val = true → exec (.beaconReceive t l p f) s = .next (v.sendReady l.val p.val 0)) ∧
      (beaconOk f = true → y.light = lightReady →
        let n := if bitsOf f.toNat 17 16 = 1 ∨ bitsOf f.toNat 17 16 = 2 then y.frames + 1 else 0
        let v := (s.atTime t).modLPort l.val p.val fun y => { y with
          frames := n, lastFrame := some (max s.now t), farSeen := true,
          farId := if bitOf f.toNat 33 then some (bitsOf f.toNat 32 18) else none,
          farLantern := bitsOf f.toNat 36 34, farPort := bitsOf f.toNat 40 37 }
        ((v.lan l.val).port p.val).light = lightReady →
        (n < 3 → exec (.beaconReceive t l p f) s = .next v) ∧
        (3 ≤ n → exec (.beaconReceive t l p f) s = .next ((v.setLight l.val p.val lightRamp).modLPort l.val p.val fun y =>
          { y with rampAt := some (max s.now t) }).oculusUpdate))) ∧
    (∀ r, y.rampAt = some r → y.light = lightRamp → r + 10 ^ 7 ≤ max s.now t →
      exec (.rampTimeout t l p) s = .next ((s.atTime t).backOff l.val p.val)) ∧
    (y.rampAt = none → exec (.rampTimeout t l p) s = .next (s.atTime t)) ∧
    (∀ f, y.lastFrame = some f → f + 5 * 10 ^ 6 ≤ max s.now t →
      (y.light = lightReady → exec (.beaconTimeout t l p) s = .next ((s.atTime t).backOff l.val p.val)) ∧
      (y.light = lightKeep → exec (.beaconTimeout t l p) s = .next ((s.atTime t).modLPort l.val p.val fun y =>
        { y with farSeen := false }))) ∧
    (∀ f, y.lastFrame = some f → max s.now t < f + 5 * 10 ^ 6 → exec (.beaconTimeout t l p) s = .next (s.atTime t)) ∧
    (∀ r, y.retryAt = some r → max s.now t < r → exec (.readyRetry t l p) s = .next (s.atTime t)) ∧
    (∀ r, y.retryAt = some r → r ≤ max s.now t →
      let v := (s.atTime t).modLPort l.val p.val fun y => { y with retryAt := none }
      (y.light = lightKeep → v.ready l.val p.val = true → exec (.readyRetry t l p) s = .next (v.sendReady l.val p.val 0)) ∧
      (y.light ≠ lightKeep → exec (.readyRetry t l p) s = .next v)) ∧
    (∀ found, y.light ≠ lightRamp → exec (.portRampComplete t l p found) s = .next (s.atTime t)) ∧
    (∀ found : RampFound, y.light = lightRamp →
      let m := found.locked
      let v := (((s.atTime t).setLight l.val p.val lightFull).resumeSwap l.val).baseLanes l.val p.val found
      let w := v.modLPort l.val p.val fun y => { y with
        tx := maskOf (v.lan l.val).litWaves, rx := m.toNat, txDropped := [], rxDropped := [], dropLogged := [], retryAt := none,
        fec := (wavesOf m.toNat).map fun k => (k, { WaveRx.init with lock := ⟨true, 0, 0⟩ }) }
      exec (.portRampComplete t l p found) s = .next ((w.modLink (portKey l.val p.val) fun x => { x with
        wire := [], st := if x.st = 3 then 2 else x.st }).modLink (portKey l.val p.val) fun x =>
          if x.st = 0 ∨ x.st = 2 then x.sendHello (portKey l.val p.val) else x).oculusUpdate)

/-- Service and resets of a Lantern (R280, R283, R363, R381, R431, R495, R496): SERVICE_DRAIN, or the button where it is
enabled, drains, restores or abandons; the drain is done when the ports are empty or its time has passed, and light returns
when the shell is back; LANTERN_STATUS is written to its buffer; a lost clock resets the Lantern, which comes back, each module
not repaired logged contained (R313), or is fenced when it does not, or comes back with three modules, with fewer than 8
wavelengths in service or with a shutter that fails its test (R362, R378); a fenced one comes back dark, its registers up again
(R219); its thermal stop ends a second after it has cooled. -/
def Obligations.LanternServiceAndResets : Prop :=
  ∀ (t id : Nat) (l : Fin 8) (s : State),
    let x := s.lan l.val
    (∀ (u : State) (a : Acc), s.Ready t id 0x0630 a u →
      (a.par 17 1 = 0 → ((u.askDrain (a.par 16 1)).lan (a.par 16 1)).drainDone = false → exec (.serviceDrain t id) s =
        .next ((u.askDrain (a.par 16 1)).wait a (.drain (a.par 16 1) 0))) ∧
      (a.par 17 1 = 1 → (u.lan (a.par 16 1)).restoring = false → exec (.serviceDrain t id) s =
        .next (((u.startRestore (a.par 16 1)).wait a (.drain (a.par 16 1) 1)).settleRestore (a.par 16 1))) ∧
      (a.par 17 1 = 2 → exec (.serviceDrain t id) s = .next ((u.abandonDrain (a.par 16 1)).reply a stOK
        ((u.abandonDrain (a.par 16 1)).drainDetail (a.par 16 1)) 0 0))) ∧
    (∀ (u : State) (a : Acc), s.Taken t id 0x0601 a u → exec (.lanternStatus t id) s = .next (u.lanternRead a)) ∧
    (let v := (s.atTime t).modLan l.val fun x => { x with button := true };
      (bitOf x.ctrl 1 = true → x.fenced = false → x.drain = none → x.shell = 0 →
        exec (.svcButtonPress t ⟨l, true⟩) s = .next (v.startDrain l.val)) ∧
      (bitOf x.ctrl 1 = false → exec (.svcButtonPress t ⟨l, true⟩) s = .next v) ∧
      (bitOf x.ctrl 1 = true → x.fenced = false → x.drain ≠ none → x.drainDone = true → x.present = true →
        x.restoring = false → exec (.svcButtonPress t ⟨l, true⟩) s = .next ((v.startRestore l.val).settleRestore l.val)) ∧
      exec (.svcButtonPress t ⟨l, false⟩) s = .next ((s.atTime t).modLan l.val fun x => ({ x with button := false } : Lantern))) ∧
    (x.drain ≠ none → x.drainDone = false → ∀ found,
      ((∀ p < 16, (s.link (portKey l.val p)).queue = [] ∧ (s.link (portKey l.val p)).unacked = []) →
        exec (.drainPortsEmpty t ⟨l, found⟩) s = .next (((s.atTime t).completeDrain l.val).testShutters l.val found)) ∧
      ((s.link (portKey l.val 0)).queue ≠ [] → exec (.drainPortsEmpty t ⟨l, found⟩) s = .next (s.atTime t))) ∧
    (∀ since lim found, x.drain = some since → x.drainLimit = some lim → x.drainDone = false →
      (since + lim ≤ max s.now t → exec (.drainTimeout t ⟨l, found⟩) s =
        .next (((s.atTime t).completeDrain l.val).testShutters l.val found)) ∧
      (max s.now t < since + lim → exec (.drainTimeout t ⟨l, found⟩) s = .next (s.atTime t))) ∧
    (∀ found, x.drainLimit = none → exec (.drainTimeout t ⟨l, found⟩) s = .next (s.atTime t)) ∧
    (bitOf x.ctrl 2 = true → x.drain ≠ none → x.drainDone = true → x.present = true → x.restoring = false →
      exec (.autoRestore t l) s = .next (((s.atTime t).startRestore l.val).settleRestore l.val)) ∧
    (bitOf x.ctrl 2 = false → exec (.autoRestore t l) s = .next (s.atTime t)) ∧
    (x.fenced = true → exec (.lanternPllUnlock t l) s = .next (s.atTime t)) ∧
    (x.fenced = false →
      let v := ((s.atTime t).holdLantern l.val true)
      let w := (v.modLan l.val fun x => { x with
        resetSince := some v.now,
        resetTimes := (x.resetTimes.filter fun r => decide (v.now < r + 60 * 10 ^ 9)) ++ [v.now] }).oculusUpdate
      ((w.lan l.val).resetTimes.length < 3 → exec (.lanternPllUnlock t l) s = .next w) ∧
      (3 ≤ (w.lan l.val).resetTimes.length → exec (.lanternPllUnlock t l) s = .next (w.fenceLantern l.val 0))) ∧
    (x.resetSince ≠ none → x.fenced = false →
      let out (bad : List (Fin 5)) := (List.range 5).filter fun m => (bad.map (·.val)).contains m
      let v (bad : List (Fin 5)) := (out bad).foldl (fun v m => v.report (0x100 + 16 * l.val) .contained 11 m)
        ((((s.atTime t).modLan l.val fun x => { x with
          held := false, resetSince := none, modules := (List.range 5).filter fun m => !(out bad).contains m }).restoreDomain
            (4 + l.val)).oculusUpdate)
      (∀ bad found, ((v bad).lan l.val).fenced = false →
        (badFibre found = none → (out bad).length < 2 → 8 ≤ ((v bad).lan l.val).waves.length →
          exec (.lanternReturn t l bad found) s = .next ((v bad).relight l.val)) ∧
        (badFibre found = none → (out bad).length < 2 → ((v bad).lan l.val).waves.length < 8 →
          exec (.lanternReturn t l bad found) s = .next ((v bad).fenceLantern l.val 6)) ∧
        (badFibre found = none → 2 ≤ (out bad).length →
          exec (.lanternReturn t l bad found) s = .next ((v bad).fenceLantern l.val 11)) ∧
        (∀ f, badFibre found = some f →
          ((((v bad).report (0x0A0 + l.val) .contained 8 f).fenceLantern l.val 8).lan l.val).fenced = true →
          exec (.lanternReturn t l bad found) s =
            .next (((v bad).report (0x0A0 + l.val) .contained 8 f).fenceLantern l.val 8))) ∧
      exec (.lanternReturnTimeout t l) s = .next ((s.atTime t).fenceLantern l.val 0)) ∧
    (x.fenced = true → x.held = true → x.resetSince ≠ none → ∀ bad found, exec (.lanternReturn t l bad found) s =
      .next ((((s.atTime t).modLan l.val fun x => { x with held := false, resetSince := none }).restoreDomain
        (4 + l.val)).oculusUpdate)) ∧
    (x.resetSince = none → (∀ n b, exec (.lanternReturn t l n b) s = .next (s.atTime t)) ∧
      exec (.lanternReturnTimeout t l) s = .next (s.atTime t)) ∧
    (∀ c, (s.die (3 + l.val)).coolSince = some c → x.stop = true →
      (c + 10 ^ 9 ≤ max s.now t → exec (.lanternStopExit t l) s = .next ((((s.atTime t).modLan l.val fun x => { x with
        stop := false }).modDie (3 + l.val) fun d => { d with stop := false }).relight l.val)) ∧
      (max s.now t < c + 10 ^ 9 → exec (.lanternStopExit t l) s = .next (s.atTime t)))

/-! ### The fabric, power and heat (chapters 16, 17) -/

/-- The fabric's router (R100, R278, R279, R386-R390, R399, R407): a message taken from a port for this device goes to its
pool, or, without room there or behind one of its channel, stays in the port's receive buffers; one that its
partition, its sender's role or its group's epoch has left behind is counted and dropped; another's message goes on from its half
to the port its route gives, or is counted, without a route, or after 31 hops; a message held is routed again; a role's end
removes what it sent. FAB_ROUTE_SET sets the device's number or its routes; FAB_PORT_STATE queries a port, brings it up or takes it down. -/
def Obligations.FabricRoutes : Prop :=
  ∀ (t id : Nat) (l : Fin 8) (p : Fin 16) (bytes : List Byte) (s : State),
    let m := FMsg.ofBytes bytes
    let k := 16 + 16 * l.val + p.val
    let u := (s.atTime t).modLink k fun x => { x with rxDone := x.rxDone.erase (vcOf m.type, bytes) }
    let blocked := (u.link k).rxHeld.any fun n => vcOf n.type == vcOf m.type
    (∀ own, s.fab.devId = some own → (u.link k).gen ≠ 0 →
      (m.dstDev = own → blocked = false → ∀ v, u.deliver m = some v →
        exec (.fabricMessageReceive t l p bytes) s = .next (if m.type = 6 then v.retryPool else v)) ∧
      (m.dstDev = own → blocked = true ∨ u.deliver m = none → exec (.fabricMessageReceive t l p bytes) s =
        .next (u.modLink k fun x => { x with rxHeld := x.rxHeld ++ [m] })) ∧
      (m.dstDev ≠ own → 31 ≤ m.hops → exec (.fabricMessageReceive t l p bytes) s = .next (u.countFab 5 1)) ∧
      (m.dstDev ≠ own → m.hops < 31 → bitOf (tget 0 s.fab.routes m.dstDev) 7 = true →
        exec (.fabricMessageReceive t l p bytes) s =
          .next ((u.countFab 2 1).onward (halfOf (l.val / 4)) { m with hops := m.hops + 1 })) ∧
      (m.dstDev ≠ own → m.hops < 31 → bitOf (tget 0 s.fab.routes m.dstDev) 7 = false → s.fab.lastUnroutable = none → m.srcDev ≠ own →
        exec (.fabricMessageReceive t l p bytes) s = .next
          (({ u.countFab 4 1 with fab := { (u.countFab 4 1).fab with lastUnroutable := some u.now } } : State).report
            0x008 .contained 1 m.dstDev))) ∧
    (s.fab.devId = none → exec (.fabricMessageReceive t l p bytes) s = .next u) ∧
    (1 ≤ m.type → m.type ≤ 5 → (s.part (Fin.ofNat 4 m.dstPart)).gen.toNat ≠ m.dstGen →
      s.deliver m = some (s.countFab 3 1)) ∧
    (∀ k x, s.fab.held[k]? = some x → exec (.routerRelease t k) s =
      .next (({ s.atTime t with fab := { s.fab with held := s.fab.held.eraseIdx k } } : State).route x)) ∧
    (∀ k, s.fab.held.length ≤ k → exec (.routerRelease t k) s = .next (s.atTime t)) ∧
    (∀ (dev : Nat) (q : Fin 4) (g : BitVec 16), s.fab.ended.contains (dev, q.val, g.toNat) = false →
      let gone : FMsg → Bool := fun m => m.srcDev == dev && m.srcPart == q.val && m.srcGen == g.toNat &&
        s.fab.devId == some m.dstDev
      let v := (s.atTime t).endRole dev q.val g.toNat
      exec (.roleNotice t dev q g) s = .next v.retryPool ∧ v.fab.pool = s.fab.pool.filter (fun m => !gone m) ∧
      v.fab.held = s.fab.held.filter (fun m => !gone m) ∧ v.fab.ended = s.fab.ended ++ [(dev, q.val, g.toNat)]) ∧
    (∀ (v : State) (a : Acc), s.Ready t id 0x0501 a v →
      (a.par 16 1 = 1 → exec (.fabRouteSet t id) s =
        .next (((v.modFab fun x => { x with devId := some (a.par 18 2) }).oculusUpdate).reply a stOK 0 0 0)) ∧
      (a.par 16 1 ≠ 1 → exec (.fabRouteSet t id) s = .next ((v.modFab fun x => { x with
        routes := (List.range (a.par 22 2)).foldl (fun (m : Tbl Nat) i => tset 0 m (a.par 20 2 + i) (le a.ext (4 * i) 2))
          x.routes }).reply a stOK (a.par 22 2) 0 0))) ∧
    (∀ (v : State) (a : Acc), s.Ready t id 0x0510 a v →
      (a.par 18 1 = 0 → exec (.fabPortState t id) s =
        .next (v.reply a stOK (v.portEntry (a.par 16 1) (a.par 17 1)) 0 0)) ∧
      (a.par 18 1 = 1 → ((v.portRole (a.par 16 1) (a.par 17 1)).link (portKey (a.par 16 1) (a.par 17 1))).st ≠ 1 →
        exec (.fabPortState t id) s = .next ((v.portRole (a.par 16 1) (a.par 17 1)).wait a
          (.portUp (a.par 16 1) (a.par 17 1)))) ∧
      (a.par 18 1 = 2 → exec (.fabPortState t id) s = .next ((v.portDown (a.par 16 1) (a.par 17 1)).reply a stOK
        ((v.portDown (a.par 16 1) (a.par 17 1)).portEntry (a.par 16 1) (a.par 17 1)) 0 0)))

/-- Power states and the cap (R263, R284, R410-R418): a state that is already in force, or reached at once, is replied to with
the state before; one that must wait for a run, or for quiet, waits; the cap is in force at once when the power measured is
below it. IDLE_ENTRY enters P1 when the block is quiet and due for it; P2_SUSPEND descends when no run is left; after an orderly
stop P0 and P1 are refused until all has been cool for a second (R429). A sample's power is that of its rails and the conversion
losses, the cap is held against the average of the last millisecond, and 10 per cent over it each array loses 40 mV (R416,
R417). A half that hears no telemetry, or is told to slow down, lowers its rate; a set point moves by no more than its step,
within 550 to 800 mV (R418). -/
def Obligations.PowerStates : Prop :=
  ∀ (t id : Nat) (s : State),
    (∀ (u : State) (a : Acc), s.Ready t id 0x0110 a u → u.sec.st ≠ .terminated →
      (a.par 16 1 = u.pwr.st → 2 ≤ u.pwr.st → u.pwr.goal = none → u.start.safe = false →
        exec (.setPowerState t id) s = .next (u.reply a stOK u.pwr.st 0 0)) ∧
      (u.pwr.goal ≠ none → exec (.setPowerState t id) s = .next (u.reply a stBusy u.pwr.st 0 0)) ∧
      (u.pwr.goal = none → u.start.safe = false → u.pwr.stop = true → a.par 16 1 ≤ 1 → u.cooled = false →
        exec (.setPowerState t id) s = .next (u.reply a stBusy u.pwr.st 0 0)) ∧
      (u.pwr.goal = none → u.start.safe = false → u.pwr.stop = true → a.par 16 1 = 0 → u.cooled = true → u.pwr.st = 2 →
        exec (.setPowerState t id) s = .next ((u.resume.modPwr fun x => { x with stop := false, sticky := false }).reply a stOK
          2 0 0)) ∧
      (2 ≤ a.par 16 1 → a.par 16 1 ≠ u.pwr.st → u.pwr.goal = none → u.start.safe = false → u.pwr.stop = false →
        u.eng.run ≠ none → exec (.setPowerState t id) s = .next ((u.modPwr fun x => { x with
          goal := some (a.par 16 1) }).wait a (.power (a.par 16 1) u.pwr.st 0 0))) ∧
      (2 ≤ a.par 16 1 → a.par 16 1 ≠ u.pwr.st → u.pwr.goal = none → u.start.safe = false → u.pwr.stop = false →
        u.eng.run = none → exec (.setPowerState t id) s = .next ((u.descend (a.par 16 1)).1.reply a stOK u.pwr.st
          (u.descend (a.par 16 1)).2.1 (u.descend (a.par 16 1)).2.2))) ∧
    (∀ (u : State) (a : Acc), s.Ready t id 0x0701 a u →
      let v := u.modPwr fun x => { x with cap := a.par 16 2 }
      (u.pwr.measured ≤ a.par 16 2 → exec (.pwrCapSet t id) s = .next (v.reply a stOK u.pwr.cap u.pwr.measured 0)) ∧
      (a.par 16 2 < u.pwr.measured → u.pwr.st ≤ 1 → u.start.safe = false →
        exec (.pwrCapSet t id) s = .next (v.wait a (.cap u.pwr.cap)))) ∧
    (s.start.phase = .running → s.start.safe = false → s.pwr.st = 0 → s.quiet = true → s.pwr.sticky = true →
      s.pwr.goal = none → exec (.idleEntry t) s = .next ((s.atTime t).noTargets.modPwr fun x => { x with st := 1 })) ∧
    (s.quiet = false → exec (.idleEntry t) s = .next (s.atTime t)) ∧
    (∀ g, s.pwr.goal = some g → 2 ≤ g → s.eng.run = none → s.start.safe = false → exec (.p2Suspend t) s =
      .next (((s.atTime t).descend g).1.replyPower stOK ((s.atTime t).descend g).2.1 ((s.atTime t).descend g).2.2)) ∧
    (s.pwr.goal = none ∨ s.eng.run ≠ none ∨ s.start.safe = true → exec (.p2Suspend t) s = .next (s.atTime t)) ∧
    (∀ (losses : Nat) (volts amps : List Nat) (risen : List (Fin 14 × Nat)),
      let u := (s.atTime t).sampleRails volts amps risen
      let mw := ((List.zipWith (· * ·) volts amps).foldl (· + ·) 0) / 10 + losses
      let v := u.modPwr fun x => { x with
        samples := (max s.now t, mw) :: x.samples.filter fun e => decide (max s.now t < e.1 + 10 ^ 6),
        energy := x.energy + mw * 10000, lastSample := max s.now t }
      let avg := ((v.pwr.samples.map (·.2)).foldl (· + ·) 0) / v.pwr.samples.length
      let w := v.modPwr fun x => { x with measured := min 4095 (avg / 1000) }
      let low := w.modPwr fun x => { x with volts := ⟨max 550 (x.volts.west - 40), max 550 (x.volts.east - 40)⟩ }
      let tight (w : State) : State := if s.pwr.st ≤ 1 then w.tighten else w
      (avg ≤ s.pwr.cap * 1000 → mw ≤ s.pwr.cap * 1100 →
        exec (.powerSample t losses volts amps risen) s = .next w.loosen.replyCap) ∧
      (s.pwr.cap * 1000 < avg → mw ≤ s.pwr.cap * 1100 → exec (.powerSample t losses volts amps risen) s =
        .next (if (tight w).pwr.capLimited = true then (tight w).replyCap else tight w)) ∧
      (s.pwr.cap * 1000 < avg → s.pwr.cap * 1100 < mw → s.pwr.st = 0 → exec (.powerSample t losses volts amps risen) s =
        .next (if (tight low).pwr.capLimited = true then (tight low).replyCap else tight low))) ∧
    (∀ (h : Half) (m : Nat) (q : Int),
      let v := (s.atTime t).modArr h fun a => { a with
        target := if s.pwr.st = 0 ∧ s.halfUp h = true then s.targetOf h ((s.arr.get h).rateAt h 800 q) else 0 }
      (s.start.safe = true → exec (.voltageAdjust t h m q) s = .next v) ∧
      (s.start.safe = false → v.silent h = true →
        exec (.voltageAdjust t h m q) s = .next (v.modPwr fun x => { x with volts := x.volts.set h 550 })) ∧
      (s.start.safe = false → v.silent h = false → s.eng.run = none → exec (.voltageAdjust t h m q) s = .next v)) ∧
    (∀ (h : Half) (m pace step : Nat),
      let old := s.pwr.volts.get h
      let new := s.nextVolts h m pace step
      550 ≤ new ∧ new ≤ 800 ∧ (550 ≤ old → new ≤ old + step) ∧
      (s.pwr.riseCap.get h = none → old ≤ 800 → old ≤ new + step) ∧
      (∀ c, s.pwr.riseCap.get h = some c → 550 ≤ c → new ≤ c)) ∧
    (∀ (h : Half) (q : Nat), s.targetOf h q ≤ s.pwr.rateTarget ∧ s.targetOf h q ≤ q ∧ s.targetOf h q ≤ s.pwr.capRate) ∧
    (∀ d : Fin 11, exec (.telemetryTimeout t d true) s = .next ((s.atTime t).modDie d.val fun x => { x with lost := false })) ∧
    ((s.die 2).lost = false → s.reports 2 = true → exec (.telemetryTimeout t 2 false) s = .next
      (((s.atTime t).modDie 2 fun x => { x with lost := true }).report 0x004 .contained 1 (srcDieUnit 2))) ∧
    (∀ h : Half, (s.die (halfNo h)).lost = false → s.reports (halfNo h) = true →
      exec (.telemetryTimeout t (Fin.ofNat 11 (halfNo h)) false) s = .next
        ((((s.atTime t).modDie (halfNo h) fun x => { x with lost := true }).modPwr fun x => { x with
          volts := x.volts.set h 550 }).report 0x004 .contained 1 (0x040 + halfNo h))) ∧
    (∀ d : Fin 11, s.reports d.val = false → exec (.telemetryTimeout t d false) s = .next (s.atTime t))

/-- Supply rails (R419-R422): a watched rail below its warning level counts a droop and, for the rails 0 to 7, holds new
operations, until every one has been above for 50 us; more than sixteen droops in a second are logged once a minute; below its
reset level the rail resets what it supplies and is logged contained. A sample shows the rails and ends the dip of one that has
risen. A level that the rail does not fall below changes nothing. -/
def Obligations.SupplyRails : Prop :=
  ∀ (t : Nat) (r : Fin 14) (mv : Nat) (s : State),
    let sec := max s.now t / 10 ^ 9
    (s.watched r.val = false → exec (.railBelowWarning t r mv) s = .next (s.atTime t) ∧
      exec (.railBelowReset t r mv) s = .next (s.atTime t)) ∧
    (railWarn r.val ≤ mv → exec (.railBelowWarning t r mv) s = .next (s.atTime t)) ∧
    (railReset r.val ≤ mv → exec (.railBelowReset t r mv) s = .next (s.atTime t)) ∧
    (s.watched r.val = true → mv < railWarn r.val →
      let v := (s.atTime t).modRail r.val fun x => { x with
        mv := min 4095 mv, below := true, aboveSince := none, droops := x.droops + 1, window := sec,
        inWindow := if x.window = sec then x.inWindow + 1 else 1 }
      exec (.railBelowWarning t r mv) s = .next (if r.val < 8 then v.modEng fun e => { e with hold := true } else v)) ∧
    (s.watched r.val = true → mv < railReset r.val → s.start.phase = .running →
      let v := (s.atTime t).modRail r.val fun x => { x with mv := min 4095 mv, below := true, aboveSince := none }
      let w := if r.val < 8 then v.modEng fun e => { e with hold := true } else v
      exec (.railBelowReset t r mv) s = .next ((w.report (0x0C0 + r.val) .contained 2 (mv % 2 ^ 12)).railReset r.val)) ∧
    (∀ (volts amps : List Nat) (risen : List (Fin 14 × Nat)), r.val < volts.length → twf Rail.init s.pwr.rails = true →
      let x := (s.sampleRails volts amps risen).rail r.val
      x.mv = min 4095 (volts.getD r.val 0) ∧ x.deciAmps = min 65535 (amps.getD r.val 0) ∧
      (railWarn r.val ≤ volts.getD r.val 0 → x.below = false) ∧
      (volts.getD r.val 0 < railWarn r.val → (∀ e ∈ risen, e.1 ≠ r) → x.below = (s.rail r.val).below)) ∧
    (s.eng.hold = true → (∀ k < 8, s.watched k = true → (s.rail k).below = false ∧
        ∀ a, (s.rail k).aboveSince = some a → a + 50000 ≤ max s.now t) →
      exec (.droopHoldRelease t) s = .next (((List.range 8).foldl (fun v k => v.modRail k fun x => { x with
        aboveSince := none }) (s.atTime t)).modEng fun e => { e with hold := false })) ∧
    (∀ k < 8, s.watched k = true → (s.rail k).below = true → exec (.droopHoldRelease t) s = .next (s.atTime t)) ∧
    (s.eng.hold = false → exec (.droopHoldRelease t) s = .next (s.atTime t)) ∧
    (16 < (s.rail r.val).inWindow → (s.rail r.val).window = sec →
      (∀ x, (s.rail r.val).lastLogged = some x → x + 60 * 10 ^ 9 ≤ max s.now t) → exec (.droopRate t r) s =
        .next (((s.atTime t).modRail r.val fun x => { x with lastLogged := some (max s.now t) }).report (0x0C0 + r.val)
          .corrected 1 (min 65535 (s.rail r.val).inWindow))) ∧
    ((s.rail r.val).inWindow ≤ 16 → exec (.droopRate t r) s = .next (s.atTime t))

/-- Heat and the margin ledger (R160, R285, R286, R425-R435): a die's samples are kept and judged; a hard trip of a core die
makes its fault fatal and takes the package to the safe state, once; a half that throttles, or is silent (R412), gives up two per cent each
millisecond and takes back one each ten; a stack at its limit stops the block in order. THERM_STATUS and MARGIN_REPORT write
their records; the ledger grows once an hour in P0 and P1. -/
def Obligations.HeatAndLedger : Prop :=
  ∀ (t id : Nat) (s : State),
    (∀ (u : State) (a : Acc), s.Taken t id 0x0710 a u → a.par 24 8 = 0 → exec (.thermStatus t id) s =
      .next (u.reply a stOK (temp16? (u.dieHottest (a.par 16 1)) + 2 ^ 16 * u.dieLevel (a.par 16 1))
        (temp16 (u.dieRise (a.par 16 1)) + 2 ^ 16 * ((u.die (a.par 16 1)).broken.length % 256) +
          2 ^ 24 * b2n (u.die (a.par 16 1)).conservative) 0)) ∧
    (∀ (u : State) (a : Acc), s.Taken t id 0x0710 a u → a.par 24 8 ≠ 0 →
      let v := u.dma a (a.par 24 8) (u.thermRecord (a.par 16 1))
      exec (.thermStatus t id) s =
        .next (v.reply a stOK (temp16? (u.dieHottest (a.par 16 1)) + 2 ^ 16 * u.dieLevel (a.par 16 1))
          (temp16 (u.dieRise (a.par 16 1)) + 2 ^ 16 * ((u.die (a.par 16 1)).broken.length % 256) +
            2 ^ 24 * b2n (u.die (a.par 16 1)).conservative) 0)) ∧
    (∀ (u : State) (a : Acc), s.Taken t id 0x0720 a u →
      (a.par 24 4 < 256 → exec (.marginReport t id) s = .next (u.reply a stBadParam 0 256 0)) ∧
      (256 ≤ a.par 24 4 → exec (.marginReport t id) s = .next (({ u.dma a (a.par 16 8) u.marginSummary with
        free := u.free + 16 } : State).reply a stOK 256 (max ((u.arr.west.sent.map (·.2)).foldl max 0)
          ((u.arr.east.sent.map (·.2)).foldl max 0)) 0))) ∧
    (∀ (d : Fin 11) (temps : List Int) (found : List Nat),
      let v := (s.atTime t).modDie d.val fun x => { x with
        temps := temps.take (sensorsOf d.val),
        history := ((max s.now t, temps.take (sensorsOf d.val)) :: x.history).take 128 }
      (d.val < 3 → exec (.thermalSample t d ⟨temps, found⟩) s =
        .next (((v.checkSensors d.val).checkCore d.val).noteCool.noteThrottle)) ∧
      (3 ≤ d.val →
        let w := (v.checkSensors d.val).checkLantern (d.val - 3)
        exec (.thermalSample t d ⟨temps, found⟩) s = .next ((if (w.lan (d.val - 3)).dark = true
          then w.testShutters (d.val - 3) found else w).noteCool.noteThrottle))) ∧
    (∀ (d : Fin 11) (temp : Int),
      ((s.die d.val).trip = true → exec (.hardTrip t d temp) s = .next (s.atTime t)) ∧
      (3 ≤ d.val → exec (.hardTrip t d temp) s = .next (s.atTime t)) ∧
      ((if (s.die d.val).conservative = true then temp + 160 else temp) < tripAt d.val →
        exec (.hardTrip t d temp) s = .next (s.atTime t)) ∧
      (d.val < 3 → (s.die d.val).trip = false → tripAt d.val ≤ (if (s.die d.val).conservative = true then temp + 160 else temp) →
        let v := allLans.foldl (fun v l => v.modLan l fun x => { x with
          lasers := (List.range 18).foldl (fun t i => tmod Laser.init t i fun y =>
            if y.st = 4 then y else { y with st := 0, warn := false }) x.lasers })
          (((s.atTime t).report (srcThermal d.val) .fatal 5 (temp16 temp)).modDie d.val fun x => { x with trip := true })
        exec (.hardTrip t d temp) s = .next (v.safeState false))) ∧
    (∀ h : Half,
      let d := s.die (halfNo h)
      (∀ x, d.throttle = true → d.limit = some x → d.lastStep + 10 ^ 6 ≤ max s.now t → exec (.throttleAdjust t h) s =
        .next ((s.atTime t).modDie (halfNo h) fun d => { d with limit := some (x * 98 / 100), lastStep := max s.now t })) ∧
      (∀ x, d.lost = true → d.limit = some x → d.lastStep + 10 ^ 6 ≤ max s.now t → exec (.throttleAdjust t h) s =
        .next ((s.atTime t).modDie (halfNo h) fun d => { d with limit := some (x * 98 / 100), lastStep := max s.now t })) ∧
      (d.throttle = false → d.lost = false → d.limit = none → exec (.throttleAdjust t h) s = .next (s.atTime t)) ∧
      (∀ x, d.throttle = false → d.lost = false → d.limit = some x → d.lastStep + 10 ^ 7 ≤ max s.now t → exec (.throttleAdjust t h) s =
        .next ((s.atTime t).modDie (halfNo h) fun d => { d with
          limit := if s.pwr.rateTarget ≤ ceilDiv (x * 101) 100 then none else some (ceilDiv (x * 101) 100),
          lastStep := max s.now t }))) ∧
    (∀ (k : Fin 32) (temp : Int) (lim : StackLimits), temp < lim.maxTemp - 160 → temp < lim.trip → temp ≤ 1360 →
      (s.hbm.get (halfOf (k.val / 16))).temp (k.val % 16) ≤ 1360 →
      (s.hbm.get (halfOf (k.val / 16))).warm = [] → (s.hbm.get (halfOf (k.val / 16))).atLimit = [] →
      exec (.hbmTempSample t k temp lim) s = .next ((s.atTime t).modHbm (halfOf (k.val / 16)) fun y => { y with
        temps := tset none y.temps (k.val % 16) (some temp) }).noteCool) ∧
    (∀ powers, s.start.phase = .running → s.start.safe = false → s.pwr.st ≤ 1 → s.led.st = 1 →
      let v := (((s.atTime t).recordSentinels .west fun _ => true).recordSentinels .east fun _ => true).appendRecord powers
      exec (.ledgerRecord t powers) s = .next ({ v with led := { v.led with hours := v.led.hours + 1 } } : State).replan) ∧
    (∀ powers, 2 ≤ s.pwr.st → exec (.ledgerRecord t powers) s = .next (s.atTime t)) ∧
    (∀ powers,
      let r := s.ledgerNow powers
      let v := s.appendRecord powers
      v.led.log.getLast? = some r ∧ r.stamp = s.led.before + s.now ∧
      (∀ c l, s.led.log = c :: l → v.led.log.head? = some c ∧
        ∀ x ∈ l, r.stamp ≤ x.stamp + 30 * 24 * 3600 * 10 ^ 9 → x ∈ v.led.log) ∧
      (∀ x ∈ v.led.log, x = r ∨ x ∈ s.led.log) ∧ { v.led with log := s.led.log } = s.led)

/-! ### Halves, faults, registers and partitions (chapters 8 to 10, 18, 20) -/

/-- The halves (R234, R495-R502): a reset commanded by the steward with its key puts the half under orderly reset, a lost lock,
or an orderly reset that takes 5 ms, under an abrupt one; the half comes back as its report finds it, is declared lost at its
second failed start or by command, and single-half operation goes on with the one left. A command without the key sets
BAD_VALUE, one from another port is dropped. -/
def Obligations.HalvesResetAndReturn : Prop :=
  ∀ (t : Nat) (q : Fin 4) (h : Half) (key : Nat) (s : State),
    let u := s.atTime t
    let cmd : Nat → Instr → Prop := fun n c =>
      (s.pagesOpen q = true → s.isSteward q = false → exec c s = .next (u.goard q false)) ∧
      (s.pagesOpen q = true → s.isSteward q = true → key % 2 ^ 16 ≠ 0x5253 → exec c s = .next (u.badValue 0)) ∧
      (s.pagesOpen q = true → s.isSteward q = true → key % 2 ^ 16 = 0x5253 → exec c s = .next (u.resetAction (.host q) n)) ∧
      (s.pagesOpen q = false → exec c s = .next u)
    cmd (1 + halfNo h) (.orderlyHalfReset t (.host q) h key) ∧
    cmd (3 + halfNo h) (.declareHalfLost t (.host q) h key) ∧
    cmd 5 (.singleHalfOperation t (.host q) key) ∧
    (s.halfUp h = true → s.underReset (other h) = false → s.running = true →
      s.resetAction (.host q) (1 + halfNo h) = s.orderlyHalf h (0x010 + q.val)) ∧
    ((s.arr.get h).half ≠ .lost → (s.arr.get (other h)).half ≠ .lost →
      s.resetAction (.host q) (3 + halfNo h) = s.loseHalf h (0x010 + q.val)) ∧
    (s.running = true → exec (.halfPllUnlock t h) s = .next (u.abruptHalf h (0x040 + halfNo h))) ∧
    (s.running = false → exec (.halfPllUnlock t h) s = .next u) ∧
    ((s.arr.get h).half = .orderly → s.running = true → (s.arr.get h).resetSince + 5000000 ≤ max s.now t →
      exec (.orderlyResetTimeout t h) s = .next (u.abruptHalf h (s.arr.get h).resetCause)) ∧
    ((s.arr.get h).half ≠ .orderly → exec (.orderlyResetTimeout t h) s = .next u) ∧
    (∀ r : HalfReport,
      let bad := s.identityFaults r.identity (halfNo h :: (lansOf h).map (· + 3))
      ((s.arr.get h).preparing = true → exec (.halfReturn t h r) s = .next u) ∧
      (s.underReset h = true → (s.arr.get h).preparing = false → bad = [] → exec (.halfReturn t h r) s = .next (u.halfBack h r)) ∧
      (∀ d ds, s.underReset h = true → (s.arr.get h).preparing = false → bad = d :: ds → exec (.halfReturn t h r) s =
        .next (((d :: ds).foldl (fun v x => v.report 0x002 .fatal 2 x) u).safeState false)) ∧
      (s.underReset h = false → exec (.halfReturn t h r) s = .next u)) ∧
    (s.underReset h = true → (s.arr.get h).preparing = false → (s.arr.get h).failedStarts = 0 →
      exec (.halfStartFailure t h) s = .next (u.modArr h fun a => { a with failedStarts := 1 })) ∧
    (s.underReset h = true → (s.arr.get h).preparing = false → (s.arr.get h).failedStarts = 1 →
      exec (.halfStartFailure t h) s =
        .next ((u.modArr h fun a => { a with failedStarts := 2 }).loseHalf h (s.arr.get h).resetCause)) ∧
    (s.underReset h = false ∨ (s.arr.get h).preparing = true → exec (.halfStartFailure t h) s = .next u)

/-- The Belfry (R287, R288, R294, R447-R455): a message that arrives waits in the window in the order of its stamp, or is logged
at once when it is late, and bits that spell no message a unit issues are none; what has waited 50 us is logged; FAULT_READ writes the entries that its port sees and its filter
passes; the steward's FAULT_ACK, FAULT_CLEAR and FLT_ENTRY acknowledge an entry, and clear one whose cause has ended;
FAULT_INJECT adds a message, stamped with its acceptance; a parity error of the log is fatal, logged or counted where it only
repeats an entry (R446), and leads to the safe state. -/
def Obligations.BelfryLogs : Prop :=
  ∀ (t id : Nat) (s : State),
    let v := s.atTime t
    (∀ (code : BitVec 64) (m : Msg) (stamp : Nat), bitsOf code.toNat 49 48 = 0 → Msg.ofCode code.toNat = some m →
      m.issued = true → halfOfSource m.src = none → ¬ (m.src = 0 ∧ m.kind = 1) →
      (max s.now t ≤ stamp + 50000 → exec (.belfryMessageArrival t code stamp) s =
        .next (v.modBel fun b => { b with waiting := insertHeld ⟨m, stamp, false, true, none⟩ b.waiting })) ∧
      (stamp + 50000 < max s.now t → exec (.belfryMessageArrival t code stamp) s =
        .next (v.logOne ⟨m, stamp, false, true, none⟩ true))) ∧
    (∀ (code : BitVec 64) (stamp : Nat), bitsOf code.toNat 49 48 ≠ 0 ∨ Msg.ofCode code.toNat = none ∨
        (∃ m, Msg.ofCode code.toNat = some m ∧ m.issued = false) →
      exec (.belfryMessageArrival t code stamp) s = .next v) ∧
    ((∀ x ∈ s.bel.waiting, max s.now t < x.stamp + 50000) → exec (.belfryLog t) s = .next v) ∧
    (∀ x, s.bel.waiting = [x] → x.stamp + 50000 ≤ max s.now t →
      exec (.belfryLog t) s = .next ((v.modBel fun b => { b with waiting := [] }).logOne x true)) ∧
    (∀ loc : BitVec 16,
      (v.repeated ⟨0x000, .fatal, 1, loc.toNat⟩ = none → exec (.belfryParity t loc) s =
        .next ((v.putEntry ⟨0x000, .fatal, 1, loc.toNat⟩ v.now false false).safeState false)) ∧
      (∀ e, v.repeated ⟨0x000, .fatal, 1, loc.toNat⟩ = some e → exec (.belfryParity t loc) s =
        .next ((v.modBel fun b => { b with log := b.log.map fun x => if x.index = e.index
          then { x with repeats := min 0x7FFFFFFF (x.repeats + 1) } else x }).safeState false))) ∧
    (∀ (u : State) (a : Acc), s.Taken t id 0x0801 a u →
      let first := BitVec.ofNat 32 (a.par 16 4)
      let r := takeEntries (fun e => u.sees a.part e.msg && !(bitOf (a.par 32 1) 0 && e.acked) &&
        !(bitOf (a.par 32 1) 1 && e.cleared)) (a.par 20 4) first (u.bel.log.filter fun e => indexFrom first e.index)
      exec (.faultRead t id) s = .next (((u.modPart a.part fun x => { x with faultIrq := true }).dma a (a.par 24 8)
        (r.1.flatMap (·.bytes))).reply a stOK r.1.length r.2.toNat 0)) ∧
    (∀ (u : State) (a : Acc) (e : LogEntry), s.Taken t id 0x0802 a u → u.namedEntry a = .ok e → exec (.faultAck t id) s =
      .next ((u.modBel fun b => { b with log := b.log.map fun x => if x.index = e.index then { x with acked := true } else x
        }).reply a stOK 0 0 0)) ∧
    (∀ (u : State) (a : Acc) (c : Nat), s.Taken t id 0x0802 a u → u.namedEntry a = .error c →
      exec (.faultAck t id) s = .next (u.reply a c 0 0 0)) ∧
    (∀ (u : State) (a : Acc) (e : LogEntry), s.Taken t id 0x0803 a u → u.namedEntry a = .ok e →
      (u.persists e = true → exec (.faultClear t id) s = .next (u.reply a stBusy 0 0 0)) ∧
      (u.persists e = false → exec (.faultClear t id) s = .next ((u.modBel fun b => { b with
        log := b.log.map fun x => if x.index = e.index then { x with acked := true, cleared := true } else x }).reply a
          stOK 0 0 0))) ∧
    (∀ (u : State) (a : Acc) (m : Msg), s.Taken t id 0x0A30 a u → Msg.ofCode (a.par 16 8) = some m →
      exec (.faultInject t id) s = .next ((u.modBel fun b => { b with
        waiting := insertHeld ⟨m, a.mark, true, bitOf (a.par 40 1) 0, none⟩ b.waiting }).reply a stOK 0 0 0)) ∧
    (∀ (q : Fin 4) (e : LogEntry), s.pagesOpen q = true → s.entryAt s.bel.sel = some e →
      (s.isSteward q = true → exec (.fltEntryAck t (.host q)) s = .next (v.ackEntry s.bel.sel)) ∧
      (s.isSteward q = true → s.persists e = false → exec (.fltEntryClear t (.host q)) s = .next (v.clearEntry s.bel.sel)) ∧
      (s.isSteward q = true → s.persists e = true → exec (.fltEntryClear t (.host q)) s = .next v) ∧
      (s.isSteward q = false → exec (.fltEntryAck t (.host q)) s = .next (v.goard q false) ∧
        exec (.fltEntryClear t (.host q)) s = .next (v.goard q false)))

/-- Registers and configuration (R5, R203-R218): the steward opens and commits a configuration domain; a commit takes the
shadow's value for reference; a scan finds a domain whose live value has left its reference, disarms it and logs it; a read
answers the register's bits, ones where the domain is down, zero where there is none; a write narrower than 32 bits is an
access error; one of another port is dropped; wide values are captured one at a time. -/
def Obligations.RegistersAndDomains : Prop :=
  ∀ (t : Nat) (q : Fin 4) (s : State), s.pagesOpen q = true →
    let u := s.atTime t
    (∀ d, s.isSteward q = true → knownDomain d = true → d ≠ 1 → (s.dom d).commitBusy = false →
      exec (.cfgOpen t (.host q) d) s = .next (u.modDom d fun x => { x with armed := false }) ∧
      exec (.cfgCommit t (.host q) d) s = .next (u.modDom d fun x => { x with commitBusy := true })) ∧
    (∀ d, s.isSteward q = false → exec (.cfgOpen t (.host q) d) s = .next (u.goard q false) ∧
      exec (.cfgCommit t (.host q) d) s = .next (u.goard q false)) ∧
    (s.isSteward q = true → exec (.cfgOpen t (.host q) 1) s = .next u.keepLocked) ∧
    (∀ d, (s.dom d).commitBusy = true → exec (.cfgCommitComplete t d) s = .next (u.modDom d fun x => { x with
      live := u.liveOf d, ref := u.liveOf d, armed := true, commitBusy := false })) ∧
    (∀ d, (s.dom d).commitBusy = false → exec (.cfgCommitComplete t d) s = .next u) ∧
    exec (.cfgScan t none) s =
      .next { (List.range 12).foldl (fun v d => v.scanDomain false d) u with
        free := ((List.range 12).foldl (fun v d => v.scanDomain false d) u).free + 1 } ∧
    (∀ (b : Block) (i off width : Nat) (v : Dword) (c : Crossing),
      let d := domainOf b i
      (s.isSteward q = false → ¬ (b = .drm ∧ 0x100 ≤ off ∧ off < 0x118) → width ≠ 64 →
        exec (.registerWrite t (.host q) (.block b i off) width v c) s = .next (u.goard q false)) ∧
      (s.isSteward q = true → b ≠ .sec → (u.regValue 0 b i (off / 4 * 4)).isSome = true → width < 32 →
        exec (.registerWrite t (.host q) (.block b i off) width v c) s = .next (u.accessErr d)) ∧
      (s.isSteward q = true → b ≠ .sec → (u.regValue 0 b i (off / 4 * 4)).isSome = true → 32 ≤ width → width ≠ 64 →
        u.domainDown d = false → d = 0 ∨ c = .inTime →
        exec (.registerWrite t (.host q) (.block b i off) width v c) s = .next (u.writeReg (.host q) b i off (v.toNat % 2 ^ 32))) ∧
      (s.isSteward q = true → b ≠ .sec → (u.regValue 0 b i (off / 4 * 4)).isSome = true → 32 ≤ width → width ≠ 64 →
        u.domainDown d = true → exec (.registerWrite t (.host q) (.block b i off) width v c) s =
          .next (u.modDom d fun x => { x with down := true }))) ∧
    ((s.port q).d3 = false → s.running = true →
      (∀ (b : Block) (i off width : Nat), width ≠ 64 → s.isSteward q = true → b ≠ .drm →
        (∀ v, u.regValue q b i (off / 4 * 4) = some v → u.domainDown (domainOf b i) = false →
          exec (.registerRead t q (.block b i off) width .inTime) s =
            .next (({ u with free := s.free + 2 } : State).answerReg v off width)) ∧
        (∀ v, u.regValue q b i (off / 4 * 4) = some v → u.domainDown (domainOf b i) = true →
          exec (.registerRead t q (.block b i off) width .inTime) s =
            .next ((u.modDom (domainOf b i) fun x => { x with down := true }).answerReg 0xFFFFFFFF off width)) ∧
        (u.regValue q b i (off / 4 * 4) = none →
          exec (.registerRead t q (.block b i off) width .inTime) s = .next (u.answerReg 0 off width))) ∧
      exec (.drmMbxD3Read t (.host q)) s = .next (u.readBlock q .drm 0 0x114 32 .inTime)) ∧
    (∀ (w : Writer) (k : Nat), mailboxOf w = some k → s.writerOpen w = true →
      exec (.drmMbxSel t w none) s = .next (u.modMbx k fun x => { x with
      seq := (x.seq + 1) % 16, selErr := true, valid := true, data := 0 })) ∧
    (∀ (w : Writer) (k : Nat) (x : WideRef), mailboxOf w = some k → s.writerOpen w = true → (u.widesOf k).contains x = true →
      (u.domainDown (domainOf x.block x.inst) = false → exec (.drmMbxSel t w (some x)) s = .next (u.modMbx k fun y => { y with
        seq := (y.seq + 1) % 16, selErr := false, valid := true, data := u.wideValue x % 2 ^ 64 })) ∧
      (u.domainDown (domainOf x.block x.inst) = true → exec (.drmMbxSel t w (some x)) s =
        .next ((u.modDom (domainOf x.block x.inst) fun y => { y with down := true }).modMbx k fun y => { y with
          seq := (y.seq + 1) % 16, selErr := false, valid := true, data := 2 ^ 64 - 1 })))

/-- Partitions, ports and the Oculus table (R190, R222-R235, R262): a partition reset, asked for with its key by its own host
or the steward, or brought by a function-level reset or a lost link, ends the partition's commands, frees what it holds, raises
its generation and resets its registers, and configuration requests get Request Retry Status while it is in progress; a link
that trains to four lanes and its lowest rate is served; the steward's role moves; GET_OCULUS writes the table of its port into a buffer that holds it. -/
def Obligations.PartitionsAndPorts : Prop :=
  ∀ (t id : Nat) (p q : Fin 4) (v : Word) (s : State),
    let u := s.atTime t
    (s.pagesOpen q = true → q = p ∨ s.isSteward q = true → bitsOf v.toNat 31 16 = 0x5245 → (s.part p).resetting = false →
      exec (.hstPartReset t (.host q) p v) s = .next ((u.partReset p).modPart p fun x => { x with resetting := false })) ∧
    (s.pagesOpen q = true → q = p ∨ s.isSteward q = true → bitsOf v.toNat 31 16 ≠ 0x5245 →
      exec (.hstPartReset t (.host q) p v) s = .next (u.badValue 0)) ∧
    (s.pagesOpen q = true → q ≠ p → s.isSteward q = false →
      exec (.hstPartReset t (.host q) p v) s = .next (u.goard q false)) ∧
    ((s.part p).resetting = false → s.partReset p =
      let w := s.modPart p fun x => { x with resetting := true }
      let w := ((w.killCommands p).killRun p).freePartition p
      ((({ w with barHeld := w.barHeld.filter fun x => x.port ≠ p } : State).killTraffic p (s.part p).gen.toNat).resetPartRegs
        p).oculusUpdate) ∧
    (s.running = true → (s.part p).resetting = false → exec (.functionLevelReset t p) s =
      .next (((u.partReset p).modPort p fun x => { Port.init with width := x.width, rate := x.rate, slow := x.slow }).modPart p
        fun x => { x with resetting := false })) ∧
    (s.running = true → exec (.hotReset t p) s = .next ((u.partReset p).modPort p fun _ => Port.init).oculusUpdate ∧
      exec (.perstNAssert t p) s = .next ((u.partReset p).modPort p fun _ => Port.init).oculusUpdate) ∧
    (s.running = false → exec (.hotReset t p) s = .next (u.modPort p fun _ => Port.init).oculusUpdate ∧
      exec (.perstNAssert t p) s = .next (u.modPort p fun _ => Port.init).oculusUpdate) ∧
    ((s.part p).resetting = false →
      exec (.d3hotEntry t p) s = .next (u.modPort p fun x => { x with d3 := true }) ∧
      exec (.d3hotExit t p) s = .next (u.modPort p fun x => { x with d3 := false })) ∧
    ((s.part p).resetting = true → exec (.d3hotEntry t p) s = .next { u with bus := ⟨0, [], false, false, true⟩ } ∧
      exec (.d3hotExit t p) s = .next { u with bus := ⟨0, [], false, false, true⟩ }) ∧
    (∀ w r,
      let x := u.modPart p fun x => { x with resetting := false }
      (4 ≤ w → 5 ≤ r → exec (.hostLinkUp t p w r) s =
        .next (x.modPort p fun y => { y with width := w, rate := r, slow := false }).oculusUpdate) ∧
      (w < 4 ∨ r < 5 → exec (.hostLinkUp t p w r) s =
        .next (((x.modPort p fun y => { y with width := 0, rate := 0, slow := true }).oculusUpdate).report (0x010 + p.val)
          .contained 1 (w % 32 + 2 ^ 8 * (r % 8))))) ∧
    (s.pagesOpen q = true → s.isSteward q = true →
      exec (.drmSteward t (.host q) v) s = .next (u.moveSteward (Fin.ofNat 4 v.toNat))) ∧
    (s.pagesOpen q = true → s.isSteward q = false → exec (.drmSteward t (.host q) v) s = .next (u.goard q false)) ∧
    (s.pagesOpen p = true → (s.part p).offer = none → exec (.ocuGenOffer t p v) s =
      .next (u.modPart p fun x => { x with offer := some (v.toNat % 256) })) ∧
    (s.pagesOpen p = true → (s.part p).offer ≠ none → exec (.ocuGenOffer t p v) s =
      .next ((u.modDom 0 fun x => { x with lockViol := true }).report (0x010 + p.val) .contained 3 0)) ∧
    (∀ (w : State) (a : Acc), s.Taken t id 0x0101 a w →
      ((w.oculus a.part).length ≤ a.par 24 4 → exec (.getOculus t id) s =
        .next ((w.dma a (a.par 16 8) (w.oculus a.part)).reply a stOK (w.oculus a.part).length w.drm.change 0)) ∧
      (a.par 24 4 < (w.oculus a.part).length →
        exec (.getOculus t id) s = .next (w.reply a stBadParam 0 (w.oculus a.part).length 0)))

/-! ### Security, management, the test port and starts (chapters 13, 19, 20) -/

/-- Keep's commands (R223, R289-R291, R464, R470-R472): ATTEST writes its evidence to a buffer that holds it; DEBUG_UNLOCK
gives a challenge, takes its signed answer, and locks again; FW_UPDATE opens the one session, receives its chunks, and verifies
or gives up the image; a session unused for 60 s ends. SPDM on a reached mailbox answers in the order version, capabilities,
algorithms, and then its digests, certificates, challenge and measurements, what the security state serves; anything out of
order, another certificate slot than 0 or another request is an error; a challenge is signed over the certificate requests, a
measurement over the measurements, since the last signature. DOE discovery names the two protocols. While the partition resets, a configuration request gets Request Retry
Status (R235). (The error codes are SPDM's, not the manual's.) -/
def Obligations.KeepCommands : Prop :=
  ∀ (t id : Nat) (p : Fin 4) (s : State),
    (∀ (u : State) (a : Acc), s.KeepReady t id 0x0901 a u →
      let b := u.transcript (a.par 48 4) (slice a.pkt 16 32)
      exec (.attest t id) s = .next (if b.length ≤ a.par 60 4 then (u.dma a (a.par 52 8) b).reply a stOK b.length 0 0
        else u.reply a stBadParam 0 b.length 0)) ∧
    (∀ (u : State) (a : Acc), s.KeepReady t id 0x0910 a u →
      (a.par 16 1 = 0 → exec (.debugUnlock t id) s = .next ((({ u with sec := { u.sec with
        challenge := some (u.newChallenge (a.par 17 1)), nonces := u.sec.nonces + 1 } } : State).dma a (a.par 24 8)
          (u.newChallenge (a.par 17 1))).reply a stOK (16 * u.sec.st.code) 0 0)) ∧
      (a.par 16 1 = 1 → u.unlockKey (a.ext.take 245) (a.par 17 1) = none → exec (.debugUnlock t id) s =
        .next (({ u with sec := { u.sec with challenge := none } } : State).reply a stDenied (16 * u.sec.st.code) 0 0)) ∧
      (a.par 16 1 = 1 → a.par 17 1 = 1 → u.sec.st = .locked → exec (.debugUnlock t id) s =
        .next (match u.unlockKey (a.ext.take 245) 1 with
          | none => ({ u with sec := { u.sec with challenge := none } } : State).reply a stDenied (16 * SecState.locked.code) 0 0
          | some k => (({ u with sec := { u.sec with challenge := none, debugKey := k } } :
              State).moveSecurity .observe).reply a stOK (16 * SecState.observe.code) 0 0)) ∧
      (a.par 16 1 = 2 → u.sec.st = .control → exec (.debugUnlock t id) s = .next (u.deviceReset 5))) ∧
    (∀ (u : State) (a : Acc), s.KeepReady t id 0x0920 a u →
      (u.sec.session = none → exec (.fwUpdate t id) s = .next (({ u with sec := { u.sec with
        session := some ⟨1 - u.sec.runSlot, a.par 20 4, 0, u.now, false⟩ } } : State).reply a stOK (1 - u.sec.runSlot) 0 0)) ∧
      (∀ x, u.sec.session = some x → a.par 16 1 = 1 → u.hostBad a.part (a.par 32 8) (a.par 24 4) = false →
        exec (.fwUpdate t id) s = .next ((u.writeImage (a.par 28 4) (u.hostRead a.part (a.par 32 8) (a.par 24 4))).reply a stOK
          x.slot (min x.len (x.received + a.par 24 4)) 0)) ∧
      (∀ x, u.sec.session = some x → a.par 16 1 = 2 → u.imageGood x.slot x.len = true →
        exec (.fwUpdate t id) s = .next ((u.markSlot x.slot).endSession.reply a stOK x.slot x.received 0) ∧
        (u.markSlot x.slot).sec.nextSlot = x.slot) ∧
      (∀ x, u.sec.session = some x → a.par 16 1 = 2 → u.imageGood x.slot x.len = false →
        exec (.fwUpdate t id) s = .next (u.endSession.reply a stDenied x.slot x.received 0))) ∧
    (∀ x, s.sec.session = some x → x.lastUse + 60 * 10 ^ 9 ≤ max s.now t →
      exec (.updateSessionTimeout t) s = .next (s.atTime t).endSession) ∧
    (s.sec.session = none → exec (.updateSessionTimeout t) s = .next (s.atTime t)) ∧
    (s.doeOpen p = true → (s.part p).resetting = true →
      exec (.spdmGetVersion t p) s = .next { s.atTime t with bus := ⟨0, [], false, false, true⟩ } ∧
      ∀ i, exec (.doeDiscovery t p i) s = .next { s.atTime t with bus := ⟨0, [], false, false, true⟩ }) ∧
    (s.doeOpen p = true → (s.part p).resetting = false →
      let u := s.atTime t
      let put : (Port → Port) → State := fun f => u.modPort p f
      let quiet : (Port → Port) → State := fun f => (u.modPort p fun x => { x with measures := [] }).modPort p f
      let served : List Byte → List Byte → State := fun req resp => (quiet fun x => { x with
        certs := x.certs ++ req ++ resp }).modPort p fun x => { x with doe := .bytes resp, deferred := none }
      (exec (.spdmGetVersion t p) s = .next (put fun x => { x with
        spdm := .version, deferred := none, certs := [], measures := [],
        transcript := spdmMessage 0 0 [] ++ spdmMessage 1 0 [], doe := .bytes (spdmMessage 1 0 []) })) ∧
      ((s.port p).spdm ≠ .none → exec (.spdmGetCapabilities t p) s = .next (quiet fun x => { x with
        spdm := .caps, transcript := x.transcript ++ spdmMessage 2 0 [] ++ spdmMessage 3 0 [],
        doe := .bytes (spdmMessage 3 0 []) })) ∧
      ((s.port p).spdm = .none → exec (.spdmGetCapabilities t p) s = .next (put fun x => { x with doe := .error 4 })) ∧
      ((s.port p).spdm = .caps → s.sec.st ≠ .terminated → exec (.spdmNegotiateAlgorithms t p) s = .next (quiet fun x => { x with
        spdm := .algos, transcript := x.transcript ++ spdmMessage 4 0 [] ++ spdmMessage 5 0 [],
        doe := .bytes (spdmMessage 5 0 []) })) ∧
      (s.sec.st = .terminated → exec (.spdmNegotiateAlgorithms t p) s = .next (put fun x => { x with doe := .error 7 })) ∧
      (∀ code : BitVec 8, code ≠ 0xFF →
        exec (.spdmRespondIfReady t ⟨p, code⟩) s = .next (quiet fun x => { x with doe := .error 7 })) ∧
      ((s.port p).spdm = .algos → 3 ≤ s.spdmLevel →
        (s.sec.chainServed = true → exec (.spdmGetDigests t p) s = .next (served (spdmMessage 12 0 [])
          (spdmMessage 8 0 (digest Config.certChain)))) ∧
        (s.sec.chainServed = false → exec (.spdmGetDigests t p) s = .next (quiet fun x => { x with doe := .error 7 })) ∧
        (∀ off len, s.sec.chainServed = true →
          let b := (Config.certChain.drop off).take len
          exec (.spdmGetCertificate t ⟨p, 0⟩ off len) s = .next (if off < Config.certChain.length
            then served (spdmMessage 13 0 (leBytes 2 off ++ leBytes 2 len)) (spdmMessage 9 0
              (leBytes 2 b.length ++ leBytes 2 (Config.certChain.length - off - b.length) ++ b))
            else quiet fun x => { x with doe := .error 1 })) ∧
        (∀ k off len, k ≠ 0 → s.sec.chainServed = true →
          exec (.spdmGetCertificate t ⟨p, k⟩ off len) s = .next (quiet fun x => { x with doe := .error 1 })) ∧
        (∀ nonce,
          let body := spdmMessage 11 0 (digest Config.certChain)
          let answer := body ++ s.signed ((s.port p).transcript ++ (s.port p).certs ++ spdmMessage 10 0 nonce ++ body)
          exec (.spdmChallenge t ⟨p, 0⟩ nonce false) s = .next ((quiet fun x => { x with certs := [] }).modPort p fun x =>
            { x with doe := .bytes answer, deferred := none }) ∧
          exec (.spdmChallenge t ⟨p, 0⟩ nonce true) s = .next ((quiet fun x => { x with certs := [] }).modPort p fun x =>
            { x with doe := .error 0x42, deferred := some (.bytes answer) })) ∧
        (∀ k nonce slow, k ≠ 0 → exec (.spdmChallenge t ⟨p, k⟩ nonce slow) s = .next (quiet fun x => { x with doe := .error 1 })) ∧
        (∀ k (i : BitVec 8) sign nonce slow, 10 ≤ i.toNat → i.toNat ≠ 255 →
          exec (.spdmGetMeasurements t ⟨p, k⟩ i sign nonce slow) s = .next (put fun x => { x with doe := .error 1 })) ∧
        (∀ k nonce, exec (.spdmGetMeasurements t ⟨p, k⟩ 0 false nonce false) s = .next ((put fun x => { x with
          measures := (s.port p).measures ++ spdmMessage 6 0 [] ++ spdmMessage 7 0 [9] }).modPort p fun x => { x with
            doe := .bytes (spdmMessage 7 0 [9]), deferred := none })) ∧
        (∀ (i : BitVec 8) nonce, 1 ≤ i.toNat → i.toNat ≤ 9 →
          let body := spdmMessage 7 i.toNat ([1, BitVec.ofNat 8 i.toNat] ++ digest (s.measured i.toNat))
          let m := (s.port p).measures ++ spdmMessage 6 i.toNat nonce ++ body
          exec (.spdmGetMeasurements t ⟨p, 0⟩ i true nonce false) s = .next ((put fun x => { x with
            measures := [] }).modPort p fun x => { x with
              doe := .bytes (body ++ s.signed ((s.port p).transcript ++ m)), deferred := none })) ∧
        (∀ d, (s.port p).deferred = some d →
          exec (.spdmRespondIfReady t ⟨p, 0xFF⟩) s = .next (quiet fun x => { x with doe := d, deferred := none })) ∧
        ((s.port p).deferred = none →
          exec (.spdmRespondIfReady t ⟨p, 0xFF⟩) s = .next (quiet fun x => { x with doe := .error 4 }))) ∧
      (exec (.doeDiscovery t p 0) s = .next (put fun x => { x with doe := .discovery 1 0 1 }) ∧
        exec (.doeDiscovery t p 1) s = .next (put fun x => { x with doe := .discovery 1 1 0 }))) ∧
    (s.doeOpen p = false → exec (.spdmGetVersion t p) s = .next (s.atTime t) ∧
      ∀ i, exec (.doeDiscovery t p i) s = .next (s.atTime t))

/-- The management port (R470, R482, R518), open and with the block running and LOCKED: it answers its types and commands, reads
sensors, does what the matching command or register does, hands out fault entries, and takes an image in its stages, each only
in turn. (The completion codes are PLDM's, not the manual's.) -/
def Obligations.ManagementPort : Prop :=
  ∀ (t : Nat) (s : State), s.mgmtOpen = true → s.start.phase = .running → s.sec.st = .locked →
    let u := s.atTime t
    (exec (.pldmGetTid t) s = .next (u.tell (.number Config.pldmTid.toNat)) ∧
      exec (.pldmGetTypes t) s = .next (u.tell (.list [0, 2, 5])) ∧
      exec (.pldmGetVersion t 2) s = .next (u.tell (.number (Config.pldmVersion 2).toNat)) ∧
      exec (.pldmGetVersion t 1) s = .next (u.tell (.done pldmBadType)) ∧
      exec (.pldmGetCommands t 0) s = .next (u.tell (.list [2, 3, 4, 5]))) ∧
    (exec (.pldmReadSensor t .cap) s = .next (u.tell (.number s.pwr.cap)) ∧
      exec (.pldmReadSensor t .powerState) s = .next (u.tell (.number s.pwr.st))) ∧
    (∀ w, (600 ≤ w → w ≤ 2400 → exec (.pldmSetPowerCap t w) s =
        .next ((u.modPwr fun x => { x with cap := w }).tell (.done pldmOk))) ∧
      (w < 600 ∨ 2400 < w → exec (.pldmSetPowerCap t w) s = .next (u.tell (.done pldmInvalid)))) ∧
    (s.pwr.goal = none → s.start.safe = false → s.pwr.stop = false → s.eng.run = none → s.pwr.st ≠ 2 →
      exec (.pldmSetPowerState t 2) s = .next ((u.descend 2).1.tell (.done pldmOk))) ∧
    (∀ n, 3 < n → exec (.pldmSetPowerState t n) s = .next (u.tell (.done pldmInvalid)) ∧
      exec (.pldmSetSteward t n) s = .next (u.tell (.done pldmInvalid)) ∧
      exec (.pldmPartitionReset t n) s = .next (u.tell (.done pldmInvalid))) ∧
    (∀ p : Fin 4, exec (.pldmSetSteward t p.val) s = .next ((u.moveSteward p).tell (.done pldmOk)) ∧
      ((s.part p).resetting = false → exec (.pldmPartitionReset t p.val) s =
        .next (((u.partReset p).partBack p).tell (.done pldmOk)))) ∧
    (∀ (p : Fin 4) (k : QuotaKind) (n : Nat), (u.setQuota p k n = none → exec (.pldmSetQuota t p k n) s =
        .next (u.tell (.done pldmInvalid))) ∧
      (u.setQuota p k n ≠ none → exec (.pldmSetQuota t p k n) s =
        .next ((u.galleryCommit 0 fun s => (s.setQuota p k n).getD s).tell (.done pldmOk)))) ∧
    (∀ l : Fin 8, s.pwr.st < 3 → exec (.pldmLanternService t (4 * l.val)) s = .next ((u.askDrain l.val).tell (.done pldmOk)) ∧
      exec (.pldmLanternService t (4 * l.val + 2)) s = .next ((u.abandonDrain l.val).tell (.done pldmOk)) ∧
      ((s.lan l.val).drainDone = false →
        exec (.pldmLanternService t (4 * l.val + 1)) s = .next (u.tell (.done pldmNotReady)))) ∧
    (∀ e, (s.bel.log.find? fun e => indexFrom s.mgmt.event e.index) = some e →
      exec (.pldmPollEvent t none) s = .next (u.tell (.event e.bytes))) ∧
    (s.bel.log = [] → exec (.pldmPollEvent t none) s = .next (u.tell (.event []))) ∧
    (∀ (i : BitVec 32) (e : LogEntry), s.entryAt i = some e → s.persists e = false →
      exec (.pldmFaultClear t i) s = .next ((u.clearEntry i).tell (.done pldmOk))) ∧
    (∀ n, 0 < n → n ≤ 2 ^ 23 → s.sec.session = none → exec (.pldmRequestUpdate t n) s = .next (({ u with
      sec := { s.sec with session := some ⟨1 - s.sec.runSlot, n, 0, max s.now t, true⟩ } } : State).stage 1)) ∧
    (∀ x, s.sec.session = some x → exec (.pldmRequestUpdate t 1) s = .next (u.tell (.done pldmInUpdate)) ∧
      exec (.pldmGetStatus t) s = .next (u.tell (.list [s.mgmt.fdStage, x.received])) ∧
      (x.pldm = true →
        (s.mgmt.fdStage = 1 → exec (.pldmPassComponentTable t 1) s =
          .next (({ u with mgmt := { s.mgmt with components := 1 } } : State).stage 2)) ∧
        (s.mgmt.fdStage = 2 → exec (.pldmUpdateComponent t) s = .next (u.stage 3)) ∧
        (∀ off chunk, s.mgmt.fdStage = 3 → chunk ≠ [] → off + chunk.length ≤ x.len →
          exec (.pldmRequestFirmwareData t off chunk) s = .next ((u.writeImage off chunk).tell (.done pldmOk))) ∧
        (s.mgmt.fdStage = 3 → x.len ≤ x.received → exec (.pldmTransferComplete t) s = .next (u.stage 4)) ∧
        (s.mgmt.fdStage = 4 → exec (.pldmVerifyComplete t) s =
          .next (if u.imageGood x.slot x.len = true then u.stage 5 else (u.stage 2).tell (.done pldmError))) ∧
        (s.mgmt.fdStage = 5 → exec (.pldmApplyComplete t) s = .next (u.stage 6)) ∧
        (s.mgmt.fdStage = 6 → exec (.pldmActivateFirmware t) s =
          .next ((u.markSlot x.slot).endSession.tell (.done pldmOk))) ∧
        (s.mgmt.fdStage ≠ 2 → exec (.pldmUpdateComponent t) s = .next (u.tell (.done pldmBadState))) ∧
        (s.mgmt.fdStage ≠ 6 → exec (.pldmActivateFirmware t) s = .next (u.tell (.done pldmBadState))) ∧
        exec (.pldmCancelUpdate t) s = .next (u.endSession.tell (.done pldmOk)))) ∧
    (s.sec.session = none → exec (.pldmCancelUpdate t) s = .next (u.tell (.done pldmNoUpdate))) ∧
    (∀ e a, exec (.endpointIdAssignment t e) s = .next { u with mgmt := { s.mgmt with eid := e } } ∧
      exec (.dynamicAddressAssignment t a) s = .next { u with mgmt := { s.mgmt with dynamic := some a.toNat } })

/-- The test access port (R318, R319, R520), with no test instruction to leave: each instruction, and any opcode not listed as
BYPASS, is selected with what it captures, the die path only in the security states that open it; leaving EXTEST, CLAMP or HIGHZ takes a device reset, whose
cause is 6; at Off nothing happens. -/
def Obligations.TestAccessPort : Prop :=
  ∀ (t : Nat) (s : State),
    let u := s.atTime t
    let sel : Nat → Bool → (Jtag → Jtag) → State := fun n test f =>
      { u with jtag := f { s.jtag with instr := n, path := false, testMode := test } }
    (s.start.phase ≠ .off → s.jtag.testMode = false →
      (∀ op : BitVec 8, 4 < op.toNat → op ≠ 0x20 →
        exec (.jtagBypass ⟨t, op⟩) s = .next (sel op.toNat false fun x => { x with captured := 0 })) ∧
      exec (.jtagIdcode t) s = .next (sel 1 false fun x => { x with captured := BitVec.ofNat 46 s.idcode }) ∧
      (∀ l b, exec (.jtagSamplePreload t l b) s = .next (sel 2 false fun x => { x with captured := b, bsr := l.getD x.bsr })) ∧
      exec (.jtagExtest t) s = .next (sel 0 true id) ∧
      exec (.jtagClamp t) s = .next (sel 3 true fun x => { x with captured := 0 }) ∧
      exec (.jtagHighz t) s = .next (sel 4 true id) ∧
      (s.sec.st = .locked ∨ s.sec.st = .terminated → exec (.jtagDieSelect t) s =
        .next (sel 0xFF false fun x => { x with captured := 0 })) ∧
      (s.sec.st = .factory ∨ s.sec.st = .observe ∨ s.sec.st = .control → exec (.jtagDieSelect t) s =
        .next (sel 0x20 false fun x => { x with path := true })) ∧
      exec (.tapLeaveTestInstruction t) s = .next u) ∧
    (s.start.phase ≠ .off → s.jtag.testMode = true → s.jtag.instr ≠ 1 →
      exec (.tapLeaveTestInstruction t) s =
        .next ((sel 1 false fun x => { x with captured := BitVec.ofNat 46 s.idcode }).deviceReset 6) ∧
      exec (.jtagIdcode t) s = exec (.tapLeaveTestInstruction t) s) ∧
    (s.start.phase = .off → (∀ op, exec (.jtagBypass ⟨t, op⟩) s = .next u) ∧ exec (.jtagExtest t) s = .next u ∧
      exec (.jtagClamp t) s = .next u)

/-- Starts and resets (R484-R494, R512-R516): the steward's key commands a device reset, with the cold start asked for, taken
back or taken at once; a start goes on only when its kind is due, once a reset; a failed start has had its
image released, is marked, and stays in the safe state until the automatic reset, which gives up after four; power on holds the package in reset, from which its release starts
it; a package reset or a power off keeps of the block only what they keep; a lost reference falls back to the internal one. -/
def Obligations.StartsAndResets : Prop :=
  ∀ (t : Nat) (q : Fin 4) (key : Nat) (s : State),
    let u := s.atTime t
    (s.pagesOpen q = true → s.isSteward q = true → key % 2 ^ 16 = 0x5253 →
      exec (.deviceReset t (.host q) key) s = .next (u.deviceReset 2) ∧
      exec (.deviceResetCold t (.host q) key) s =
        .next (({ u with start := { s.start with coldRequested := true } } : State).deviceReset 2) ∧
      exec (.requestColdStart t (.host q) key) s = .next { u with start := { s.start with coldRequested := true } } ∧
      exec (.withdrawColdRequest t (.host q) key) s = .next { u with start := { s.start with coldRequested := false } }) ∧
    (s.pagesOpen q = true → s.isSteward q = false →
      exec (.deviceReset t (.host q) key) s = .next (u.goard q false) ∧
      exec (.deviceResetCold t (.host q) key) s = .next (u.goard q false) ∧
      exec (.requestColdStart t (.host q) key) s = .next (u.goard q false) ∧
      exec (.withdrawColdRequest t (.host q) key) s = .next (u.goard q false)) ∧
    (∀ r : StartReport,
      (u.startKind r ≠ .warm → exec (.coldStart t r) s = .next (u.runStart r true) ∧ exec (.warmStart t r) s = .next u) ∧
      (u.startKind r = .warm → exec (.warmStart t r) s = .next (u.runStart r false) ∧ exec (.coldStart t r) s = .next u) ∧
      (∀ cold, s.start.phase = .starting → s.start.safe = false → s.sec.codeLocked = false → (s.keepSteps r).2 = none →
        s.runStart r cold = { (s.keepSteps r).1 with mgmt := { (s.keepSteps r).1.mgmt with silent := false } }) ∧
      (∀ cold, s.start.phase ≠ .starting ∨ s.start.safe = true ∨ s.sec.codeLocked = true → s.runStart r cold = s)) ∧
    (∀ c : Fin 4, s.start.phase = .starting → s.start.safe = false →
      let v : State := { u with
        start := { s.start with
          markSet := true, lastWarm := s.warmDue, coldRequested := s.start.coldRequested && s.warmDue },
        mgmt := { s.mgmt with silent := false } }
      (s.sec.codeLocked = true → exec (.startFailure t c) s = .next ((v.report 0x003 .fatal 2 c.val).safeState true)) ∧
      (s.sec.codeLocked = false → exec (.startFailure t c) s =
        .next (((v.releaseGallery s.sec.firstSlot).report 0x003 .fatal 2 c.val).safeState true))) ∧
    (∀ slot, (s.releaseGallery slot).sec = { s.sec with codeLocked := true, starts := tmod 0 s.sec.starts slot (· + 1) } ∧
      s.KeepsBut [.sec, .drm] (s.releaseGallery slot)) ∧
    (∀ c : Fin 4, s.start.phase ≠ .starting → exec (.startFailure t c) s = .next u) ∧
    (s.start.phase = .starting → s.start.markSet = true → s.start.safeAt + 10 ^ 8 ≤ max s.now t →
      (s.start.failedRun < 3 → exec (.autoDeviceReset t) s = .next (u.deviceReset 4)) ∧
      (3 ≤ s.start.failedRun → exec (.autoDeviceReset t) s = .next u)) ∧
    (s.running = true → exec (.trainingParamsWrite t) s = .next { u with start := { s.start with stored := u.capture } }) ∧
    (s.running = false → exec (.trainingParamsWrite t) s = .next u) ∧
    (s.start.phase = .off → exec (.powerOn t) s =
      .next { s with start := { s.start with phase := .held, cause := 0 }, now := 0 }) ∧
    (s.start.phase ≠ .off → exec (.powerOn t) s = .next u) ∧
    (∀ c, (s.start.phase = .off ∨ s.start.phase = .held → exec (.packageReset t c) s = .next u) ∧
      (s.start.phase = .starting ∨ s.start.phase = .running → exec (.packageReset t c) s = .next (u.resetTo 1 .held))) ∧
    (∀ tb (a : BitVec 3), s.start.phase = .held → exec (.packageResetRelease t tb a) s = .next { u with
      start := { s.start with phase := .starting, startedAt := max s.now t },
      drm := { s.drm with tbPresent := tb, tbLost := false, tbSource := tb }, mgmt := { s.mgmt with addr := 0x60 + a.toNat } }) ∧
    (∀ tb a, s.start.phase ≠ .held → exec (.packageResetRelease t tb a) s = .next u) ∧
    (s.start.phase = .off → exec (.powerOff t) s = .next u) ∧
    (s.start.phase ≠ .off → exec (.powerOff t) s = .next { u.resetTo 0 .off with
      now := 0, bel := State.reset.bel, pwr := State.reset.pwr, jtag := State.reset.jtag, mgmt := State.reset.mgmt,
      start := { (u.resetTo 0 .off).start with startedAt := 0 },
      led := { (u.resetTo 0 .off).led with before := (u.resetTo 0 .off).led.before + max s.now t } }) ∧
    (exec (.tbrefLoss t) s = .next { u with drm := { s.drm with
      tbPresent := false, tbLost := s.drm.tbLost || s.drm.tbSource, tbSource := false } }) ∧
    (∀ c, s.start.phase = .running → s.deviceReset c = s.resetTo c .starting)

/-- A reset of the package or of the block (R483, R511): what `resetTo` keeps, fuses, log, counts of faults, generations of the
partitions and slots, host memory, and nothing of the commands accepted, of device memory, of the runs and of the ports; the
fuses and the log's entries are as they were. -/
def Obligations.ResetKeepsTheLog : Prop :=
  ∀ (s : State) (c : Nat) (ph : Phase),
    (s.resetTo c ph).pending = s.pending ∧ (s.resetTo c ph).hmem = s.flushBelfry.hmem ∧
    (s.resetTo c ph).bel.log = s.flushBelfry.bel.log ∧ (s.resetTo c ph).bel.waiting = [] ∧
    (s.resetTo c ph).fuses = s.flushBelfry.fuses ∧ (s.resetTo c ph).mem = State.reset.mem ∧ (s.resetTo c ph).eng = State.reset.eng ∧ (s.resetTo c ph).ports = [] ∧
    (s.resetTo c ph).gal.accepted = [] ∧ (s.resetTo c ph).pwr.cap = s.flushBelfry.pwr.cap ∧
    s.sec.svnMin ≤ (s.resetTo c ph).sec.svnMin ∧ (s.sec.terminated = true → (s.resetTo c ph).sec.terminated = true)

/-- No word of the table spells a command: the table gives its rows no bits, and a command put in front of the queue by a word
is none. -/
def Obligations.NoWordSpellsACommand : Prop :=
  ∀ (nbits w : Nat) (s : State), decodeTableWord nbits w = none ∧ s.withFetchWord nbits w = s

/-! ### Hops -/

/-- HOPS and loops (R393): every message that a device sends starts with HOPS 0; a device that a message crosses passes it on
with one hop more; a message that is not for the device and has 31 hops is discarded, and counted as a loop. -/
def Obligations.HopsBoundLoops : Prop :=
  (∀ (s : State) (p : Fin 4) (g : GroupSnap) (rank type tag seq : Nat) (bytes : List Byte) (bad : List Nat),
    ∃ sent : List FMsg, (∀ m ∈ sent, m.hops = 0) ∧
      s.sendTo p g rank type tag seq bytes bad = sent.foldl (fun v m => v.onward s.runHalf m) s) ∧
  (∀ (s : State) (p : Fin 4) (gen own : Nat), s.fab.devId = some own →
    let u := ((s.modFab fun x => { x with
      held := x.held.filter fun m => !(s.fab.devId == some m.srcDev && m.srcPart == p.val),
      pool := x.pool.filter fun m => m.dstPart != p.val,
      groups := tclear x.groups (256 * p.val) (256 * p.val + 256) }).countFab 3
        (s.fab.pool.filter fun m => m.dstPart == p.val).length).retryPool
    s.killTraffic p gen = ((s.partners p).map fun d => roleNotice own d p.val gen).foldl State.route u ∧
      ∀ d, (roleNotice own d p.val gen).hops = 0) ∧
  (∀ (t : Nat) (l : Fin 8) (p : Fin 16) (bytes : List Byte) (s : State) (own : Nat),
    let m := FMsg.ofBytes bytes
    let k := 16 + 16 * l.val + p.val
    let u := (s.atTime t).modLink k fun x => { x with rxDone := x.rxDone.erase (vcOf m.type, bytes) }
    s.fab.devId = some own → (u.link k).gen ≠ 0 → m.dstDev ≠ own →
      (m.hops = 31 → exec (.fabricMessageReceive t l p bytes) s = .next {
        u with fab := { s.fab with counts := tset 0 s.fab.counts 5 (tget 0 s.fab.counts 5 + 1) } }) ∧
      (m.hops ≠ 31 → bitOf (tget 0 s.fab.routes m.dstDev) 7 = true →
        exec (.fabricMessageReceive t l p bytes) s =
          .next ((u.countFab 2 1).onward (halfOf (l.val / 4)) { m with hops := m.hops + 1 })))
end

