-- ==== Sys2Proof/Machine/Coding.lean ====
section
/-! DEFINITION. What leaves the package as bits: flits and LINK blocks as bytes, 66-bit blocks, scrambling and striping over
lanes, the wavelengths' Reed-Solomon code, beacon frames (R296-R301, R322-R324, R355, R356, R375). The `wire` of a link holds
flits and blocks in order; these functions say which bits each of them is. -/

namespace Sys2Proof.Machine

/-! ### Flits and LINK blocks (Tables 14-2, 14-3) -/

/-- Bytes filled up with zeros. -/
def padTo (n : Nat) (bs : List Byte) : List Byte := (List.range n).map fun i => bs.getD i 0

/-- Bytes 0-251 of a flit. -/
def Flit.body (f : Flit) (replay : Bool) (gen : Nat) : List Byte :=
  leBytes 1 (1 + 16 * f.vc + 64 * b2n replay) ++ leBytes 2 f.seq ++ leBytes 1 f.payload.length ++
    leBytes 1 (b2n f.first + 2 * b2n f.last) ++ leBytes 1 0 ++ leBytes 2 gen ++ leBytes 4 0 ++ padTo 240 f.payload

/-- A flit with its CHECK (R322, R323). -/
def Flit.bytes (f : Flit) (replay : Bool) (gen : Nat) : List Byte :=
  f.body replay gen ++ leBytes 4 (crc32c (f.body replay gen)).toNat

/-- Bytes 2-6 of a LINK block by OP: TARGET with what shares its byte, then the fields (Table 14-3). -/
def linkFields (op target a b c : Nat) : List Byte :=
  if op = 3 ∨ op = 8 then leBytes 1 (target + 16 * a) ++ leBytes 2 b ++ leBytes 2 0
  else if op = 4 ∨ op = 5 then leBytes 1 target ++ leBytes 1 a ++ leBytes 1 b ++ leBytes 2 c
  else if op = 6 then leBytes 1 target ++ leBytes 1 a ++ leBytes 3 0
  else if op = 7 then leBytes 1 (target + 128 * a) ++ leBytes 2 b ++ leBytes 2 c
  else leBytes 1 target ++ leBytes 2 a ++ leBytes 2 0

/-- A LINK block with its CHECK (R324). -/
def linkBlock (op target a b c : Nat) : List Byte :=
  let bs := leBytes 1 0x4B ++ leBytes 1 op ++ linkFields op target a b c
  bs ++ [crc8 bs]

/-! ### Blocks (R296, R299, R322) -/

/-- What a link puts on the wire, as blocks: 32 data blocks for a flit, one control block for a LINK block, and a WIDTH_SWITCH
once for each lane of the old set. -/
def Wire.blocks : Wire → List Block66
  | .flit f replay gen => (List.range 32).map fun i => ⟨true, payloadOf (slice (f.bytes replay gen) (8 * i) 8)⟩
  | .block op target a b c => [⟨false, payloadOf (linkBlock op target a b c)⟩]
  | .switch lanes target a b c => List.replicate lanes.length ⟨false, payloadOf (linkBlock 5 target a b c)⟩

/-! ### Streams over lanes (R298, R355) -/

/-- How often every lane in service and every spare sends ALIGN, in block periods. -/
def alignPeriods : Nat := 16384

/-- IDLE blocks that fill a stream up to a whole block period of `w` lanes. -/
def fillPeriod (w : Nat) (bs : List Block66) : List Block66 := bs ++ List.replicate ((w - bs.length % w) % w) idleBlock

/-- What each lane in service sends in `periods` block periods, the first of them number `n`: in every 16,384th the ALIGN of
its physical lane, else the next block of the stream, block j on logical lane j mod W, with IDLE when there is none. `lanes`
are the physical lanes in logical order. -/
def lanePeriods (lanes : List Nat) (bundle : Nat) : Nat → Nat → List Block66 → List (List Block66)
  | 0, _, _ => []
  | periods + 1, n, bs =>
    if n % alignPeriods = 0 then lanes.map (alignBlock · bundle) :: lanePeriods lanes bundle periods (n + 1) bs
    else ((List.range lanes.length).map fun i => bs.getD i idleBlock) ::
      lanePeriods lanes bundle periods (n + 1) (bs.drop lanes.length)

/-- What a spare sends in a block period. -/
def sparePeriod (lane bundle n : Nat) : Block66 := if n % alignPeriods = 0 then alignBlock lane bundle else idleBlock

/-- What a set of lanes sends from block period `n` on until `bs` is sent, within a number of periods; the period after. -/
def lanesUntil (lanes : List Nat) (bundle : Nat) : Nat → Nat → List Block66 → List (List Block66) × Nat
  | 0, n, _ => ([], n)
  | _ + 1, n, [] => ([], n)
  | fuel + 1, n, b :: bs =>
    if n % alignPeriods = 0 then
      let r := lanesUntil lanes bundle fuel (n + 1) (b :: bs)
      (lanes.map (alignBlock · bundle) :: r.1, r.2)
    else
      let r := lanesUntil lanes bundle fuel (n + 1) ((b :: bs).drop lanes.length)
      (((List.range lanes.length).map fun i => (b :: bs).getD i idleBlock) :: r.1, r.2)

/-- What a link's lanes send of a stream from block period `n` on: blocks before a WIDTH_SWITCH, and the switch in a block period
of its own, travel over the old set, what comes after over the new one (Table 14-7). `bs` are the blocks not yet sent. -/
def streamPeriods (lanes : List Nat) (bundle periods : Nat) : Nat → List Block66 → List Wire → List (List Block66)
  | n, bs, [] => lanePeriods lanes bundle periods n bs
  | n, bs, .switch old target a b c :: ws =>
    let r := lanesUntil old bundle periods n
      (fillPeriod old.length (fillPeriod old.length bs ++ (Wire.switch old target a b c).blocks))
    r.1 ++ streamPeriods lanes bundle (periods - r.1.length) r.2 [] ws
  | n, bs, w :: ws => streamPeriods lanes bundle periods n (bs ++ w.blocks) ws

/-- The lanes that carry a link's stream after what its transmitter has switched: a bundle's receiver has not followed yet while
the lane that the command takes out, or puts in, still has its old role (Table 14-7). -/
def State.txLanes (s : State) (k : Nat) : List Nat :=
  match (s.link k).width with
  | none => s.streamLanes k
  | some w =>
    let on : Bool := ((s.bundle k).lane w.lane).role == .service
    if k < 16 ∧ w.switched = true ∧ on = decide (w.action ≠ .add) then
      ({ s with bundles := tset Bundle.init s.bundles k ((s.bundle k).apply w.action w.lane w.spare) } : State).streamLanes k
    else s.streamLanes k

/-- What an event of link `e` puts on the lanes of link `k`, in order (R320, R324, R339). -/
def State.wireOn (s : State) (e k : Nat) : List Wire := (s.link e).wire.filter fun w => s.carrier e w == k

/-- What the lanes of link `k` send from block period `n` on after an event of link `e`. The ALIGN blocks of a bundle carry its
number, those of a port 0 (notes/assumptions, row 90). -/
def State.laneStream (s : State) (e k periods n : Nat) : List (List Block66) :=
  streamPeriods (s.txLanes k) (if k < 16 then k else 0) periods n [] (s.wireOn e k)

/-- A lane's blocks as they leave it, scrambled (R296, R297). -/
def lineBits (r : LineState) (bs : List Block66) : List Bool :=
  (bs.foldl (fun (a : List Bool × LineState) b => (a.1 ++ (b.line a.2).1, (b.line a.2).2)) ([], r)).1

/-- A wavelength's codewords: its bits in groups of 1,280, each coded (R355, R356). -/
def waveWords (bits : List Bool) : List (List Sym) :=
  (List.range (bits.length / 1280)).map fun i => rsEncode (symbolsOf ((bits.drop (1280 * i)).take 1280))

/-- The blocks of lanes or wavelengths whose skew has been removed by their ALIGN blocks; none when a lane's skew exceeds what can be
removed. A lane's skew is the number of blocks by which it is late. -/
def deskew (skews : List Nat) (lanes : List (List Block66)) : Option (List (List Block66)) :=
  if skews.any (maxSkew < ·) then none else some (List.zipWith (fun n bs => bs.drop n) skews lanes)

/-! ### Beacons (R375) -/

/-- STATE of the beacon that a fibre's light carries; full and dark fibres carry none. -/
def beaconState (light : Nat) : Option Nat :=
  if light = lightKeep then some 0 else if light = lightReady then some 1 else if light = lightRamp then some 2 else none

/-- The frame that a port's beacon repeats (Table 15-11). -/
def State.beaconFrame (s : State) (l p : Nat) : Option (BitVec 64) :=
  (beaconState ((s.lan l).port p).light).map fun st =>
    let n := 0xB38E + 2 ^ 16 * st + 2 ^ 18 * s.fab.devId.getD 0 + 2 ^ 33 * b2n s.fab.devId.isSome + 2 ^ 34 * l + 2 ^ 37 * p
    BitVec.ofNat 64 (n + 2 ^ 56 * (crc8 (leBytes 7 n)).toNat)

end Sys2Proof.Machine
end

