-- ==== Sys2Proof/Laws/Coding.lean ====
section
/-! SUPPORT. What the receiver's descrambler gives back. -/

namespace Sys2Proof.Machine

/-- A descrambler in step with the scrambler gives back what was sent, and stays in step. -/
theorem descramble_scramble (bits : List Bool) : ∀ r : LineState,
    descramble r (scramble r bits).1 = (bits, (scramble r bits).2) := by
  induction bits with
  | nil => intro r; rfl
  | cons b rest ih =>
    intro r
    have h : ((b != r.tap) != r.tap) = b := by cases b <;> cases r.tap <;> rfl
    simp only [scramble, descramble, ih, h]

end Sys2Proof.Machine
end

