-- ==== Sys2Proof/Laws/Table.lean ====
section
/-! SUPPORT. Sparse tables: what a read gives after a write, that every operation keeps the canonical form, and that
tables in that form that read the same are the same. -/

namespace Sys2Proof.Machine

variable {α : Type} [DecidableEq α]

/-! ### The canonical form -/

theorem twfFrom_iff (d : α) (m : Tbl α) : ∀ lo : Option Nat, twfFrom d lo m = true ↔
    (∀ l ∈ lo, ∀ e ∈ m, l < e.1) ∧ m.Pairwise (fun a b => a.1 < b.1) ∧ ∀ e ∈ m, e.2 ≠ d := by
  induction m with
  | nil => intro lo; simp [twfFrom]
  | cons e r ih =>
    intro lo
    simp only [twfFrom, Bool.and_eq_true, ih, List.pairwise_cons, List.mem_cons, forall_eq_or_imp, decide_eq_true_eq]
    cases lo with
    | none =>
      simp only [Option.mem_def, reduceCtorEq, false_implies, implies_true, true_and]
      exact ⟨fun ⟨h2, h3, h4, h5⟩ => ⟨⟨fun a ha => h3 _ rfl a ha, h4⟩, h2, h5⟩,
        fun ⟨⟨h3, h4⟩, h2, h5⟩ => ⟨h2, fun l hl a ha => by cases hl; exact h3 a ha, h4, h5⟩⟩
    | some l =>
      simp only [Option.mem_def, Option.some.injEq, forall_eq', decide_eq_true_eq]
      constructor
      · rintro ⟨⟨h1, h2⟩, h3, h4, h5⟩
        exact ⟨⟨h1, fun a ha => Nat.lt_trans h1 (h3 a ha)⟩, ⟨h3, h4⟩, h2, h5⟩
      · rintro ⟨⟨h1, _⟩, ⟨h3, h4⟩, h2, h5⟩
        exact ⟨⟨h1, h2⟩, h3, h4, h5⟩

/-- The canonical form says that keys rise and that no entry holds the default. -/
theorem twf_iff (d : α) (m : Tbl α) :
    twf d m = true ↔ m.Pairwise (fun a b => a.1 < b.1) ∧ ∀ e ∈ m, e.2 ≠ d := by
  simp [twf, twfFrom_iff]

theorem twf_nil (d : α) : twf d ([] : Tbl α) = true := rfl

theorem twf_sublist (d : α) {m m' : Tbl α} (h : twf d m = true) (hs : m'.Sublist m) : twf d m' = true := by
  rw [twf_iff] at *
  exact ⟨h.1.sublist hs, fun e he => h.2 e (hs.subset he)⟩

theorem twf_filter (d : α) {m : Tbl α} (p : Nat × α → Bool) (h : twf d m = true) : twf d (m.filter p) = true :=
  twf_sublist d h List.filter_sublist

theorem twf_tclear (d : α) {m : Tbl α} (lo hi : Nat) (h : twf d m = true) : twf d (tclear m lo hi) = true :=
  twf_filter d _ h

/-- The entries of a table after a write. -/
theorem mem_tset (d : α) (m : Tbl α) (k : Nat) (v : α) :
    ∀ e ∈ tset d m k v, e ∈ m ∨ (e = (k, v) ∧ v ≠ d) := by
  induction m with
  | nil => intro e he; by_cases hv : v = d <;> simp_all [tset]
  | cons x r ih =>
    intro e he
    simp only [tset] at he
    split at he
    · split at he
      · exact .inl he
      · rcases List.mem_cons.1 he with rfl | h
        · exact .inr ⟨rfl, by assumption⟩
        · exact .inl h
    · split at he
      · split at he
        · exact .inl (List.mem_cons_of_mem _ he)
        · rcases List.mem_cons.1 he with rfl | h
          · exact .inr ⟨rfl, by assumption⟩
          · exact .inl (List.mem_cons_of_mem _ h)
      · rcases List.mem_cons.1 he with rfl | h
        · simp
        · rcases ih e h with h | h
          · exact .inl (List.mem_cons_of_mem _ h)
          · exact .inr h

theorem twf_tset (d : α) {m : Tbl α} (k : Nat) (v : α) (h : twf d m = true) : twf d (tset d m k v) = true := by
  rw [twf_iff] at *
  refine ⟨?_, fun e he => (mem_tset d m k v e he).elim (h.2 e) fun h' => by rw [h'.1]; exact h'.2⟩
  have h1 := h.1
  clear h
  induction m with
  | nil => by_cases hv : v = d <;> simp [tset, hv]
  | cons x r ih =>
    have hx := List.pairwise_cons.1 h1
    simp only [tset]
    split
    · split
      · exact h1
      · exact List.pairwise_cons.2 ⟨fun e he => by
          rcases List.mem_cons.1 he with rfl | he
          · assumption
          · have := hx.1 e he; show k < e.1; omega, h1⟩
    · split
      · split
        · exact hx.2
        · exact List.pairwise_cons.2 ⟨fun e he => by have := hx.1 e he; show k < e.1; omega, hx.2⟩
      · refine List.pairwise_cons.2 ⟨fun e he => ?_, ih hx.2⟩
        rcases mem_tset d r k v e he with h' | ⟨rfl, _⟩
        · exact hx.1 e h'
        · show x.1 < k; omega

theorem twf_tmod (d : α) {m : Tbl α} (k : Nat) (f : α → α) (h : twf d m = true) : twf d (tmod d m k f) = true :=
  twf_tset d k _ h

theorem twf_writeBytes (d : Byte) (bs : List Byte) : ∀ {m : Tbl Byte} (a : Nat), twf d m = true →
    twf d (writeBytes d m a bs) = true := by
  induction bs with
  | nil => intro m a h; exact h
  | cons b bs ih => intro m a h; exact ih (a + 1) (twf_tset d a b h)

theorem twf_foldl (d : α) {β : Type} (f : Tbl α → β → Tbl α) (hf : ∀ m b, twf d m = true → twf d (f m b) = true)
    (l : List β) : ∀ m : Tbl α, twf d m = true → twf d (l.foldl f m) = true := by
  induction l with
  | nil => intro m h; exact h
  | cons b l ih => intro m h; exact ih _ (hf m b h)

/-- Entries with rising keys, none of them the default, put into a table in one pass leave it in the canonical form. -/
theorem twf_tinsertAll (d : α) (es : List (Nat × α)) : ∀ {m : Tbl α}, twf d m = true → twf d (es : Tbl α) = true →
    twf d (tinsertAll m es) = true := by
  induction es with
  | nil => intro m h _; exact h
  | cons e es ih =>
    intro m h he
    have hm := h
    rw [twf_iff] at he hm
    have he1 := List.pairwise_cons.1 he.1
    have hd : twf d (m.dropWhile fun x => decide (x.1 ≤ e.1)) = true := twf_sublist d h (List.dropWhile_sublist _)
    have hes : twf d (es : Tbl α) = true := by
      rw [twf_iff]
      exact ⟨he1.2, fun x hx => he.2 x (List.mem_cons_of_mem _ hx)⟩
    have hr := ih hd hes
    have hlow : ∀ x ∈ m.takeWhile (fun x => decide (x.1 < e.1)), x.1 < e.1 := takeWhile_lt m e.1
    -- every key that follows is above `e`
    have hup : ∀ x ∈ tinsertAll (m.dropWhile fun x => decide (x.1 ≤ e.1)) es, e.1 < x.1 := by
      have hdrop : ∀ x ∈ m.dropWhile (fun x => decide (x.1 ≤ e.1)), e.1 < x.1 := by
        have hp := hm.1
        clear hr hes hd he1 he h hlow hm ih
        induction m with
        | nil => simp
        | cons y r ihr =>
          have hy := List.pairwise_cons.1 hp
          by_cases hle : y.1 ≤ e.1
          · simpa [hle] using ihr hy.2
          · intro x hx
            simp only [List.dropWhile_cons, hle, decide_false] at hx
            rcases List.mem_cons.1 hx with rfl | hx
            · omega
            · have := hy.1 x hx; omega
      have hall : ∀ (es : List (Nat × α)) (m : Tbl α), (∀ x ∈ m, e.1 < x.1) → (∀ x ∈ es, e.1 < x.1) →
          ∀ x ∈ tinsertAll m es, e.1 < x.1 := by
        intro es
        induction es with
        | nil => intro m h _ x hx; exact h x hx
        | cons z zs ihz =>
          intro m h1 h2 x hx
          simp only [tinsertAll, List.mem_append, List.mem_cons] at hx
          rcases hx with hx | rfl | hx
          · exact h1 x ((List.takeWhile_sublist _).subset hx)
          · exact h2 x (by simp)
          · exact ihz _ (fun y hy => h1 y ((List.dropWhile_sublist _).subset hy))
              (fun y hy => h2 y (List.mem_cons_of_mem _ hy)) x hx
      exact hall es _ hdrop he1.1
    rw [twf_iff] at hr ⊢
    refine ⟨?_, ?_⟩
    · rw [tinsertAll, List.pairwise_append]
      refine ⟨hm.1.sublist (List.takeWhile_sublist _), List.pairwise_cons.2 ⟨hup, hr.1⟩, ?_⟩
      intro x hx y hy
      have h1 := hlow x hx
      rcases List.mem_cons.1 hy with rfl | hy
      · exact h1
      · exact Nat.lt_trans h1 (hup y hy)
    · intro x hx
      simp only [tinsertAll, List.mem_append, List.mem_cons] at hx
      rcases hx with hx | rfl | hx
      · exact hm.2 x ((List.takeWhile_sublist _).subset hx)
      · exact he.2 x (by simp)
      · exact hr.2 x hx

/-! ### Reads after writes -/

omit [DecidableEq α] in
@[simp] theorem tget_nil (d : α) (k : Nat) : tget d [] k = d := rfl

omit [DecidableEq α] in
theorem tget_of_lt (d : α) (m : Tbl α) (k : Nat) (h : ∀ e ∈ m, k < e.1) : tget d m k = d := by
  cases m with
  | nil => rfl
  | cons e r =>
    have := h e (by simp)
    have hk : k ≠ e.1 := by omega
    simp [tget, hk, this]

/-- A read gives the value last written to its key, in a canonical table. -/
@[simp] theorem tget_tset (d : α) (m : Tbl α) (k : Nat) (v : α) (h : twf d m = true) : tget d (tset d m k v) k = v := by
  have hp := ((twf_iff d m).1 h).1
  clear h
  induction m with
  | nil => by_cases hv : v = d <;> simp [tset, tget, hv]
  | cons e r ih =>
    have he := List.pairwise_cons.1 hp
    by_cases h1 : k < e.1
    · have h2 : k ≠ e.1 := by omega
      by_cases hv : v = d <;> simp [tset, tget, h1, h2, hv]
    · by_cases h2 : k = e.1
      · subst h2
        by_cases hv : v = d
        · simp only [tset, h1, if_false, if_true, hv]
          exact tget_of_lt d r _ he.1
        · simp [tset, tget, hv]
      · simp [tset, tget, h1, h2, ih he.2]

/-- A write leaves every other key as it was. -/
@[simp] theorem tget_tset_ne (d : α) (m : Tbl α) (k k' : Nat) (v : α) (h : twf d m = true) (hk : k' ≠ k) :
    tget d (tset d m k v) k' = tget d m k' := by
  have hp := ((twf_iff d m).1 h).1
  clear h
  induction m with
  | nil =>
    by_cases hv : v = d
    · simp [tset, hv]
    · by_cases h1 : k' < k <;> simp [tset, tget, hv, hk]
  | cons e r ih =>
    have he := List.pairwise_cons.1 hp
    by_cases h1 : k < e.1
    · by_cases hv : v = d
      · simp [tset, h1, hv]
      · by_cases h2 : k' < k
        · have h3 : k' < e.1 := by omega
          have h4 : k' ≠ e.1 := by omega
          simp [tset, tget, h1, hv, hk, h2, h3, h4]
        · simp [tset, tget, h1, hv, hk, h2]
    · by_cases h2 : k = e.1
      · subst h2
        by_cases hv : v = d
        · simp only [tset, h1, if_false, if_true, hv, tget, hk]
          split
          · exact tget_of_lt d r _ fun x hx => by have := he.1 x hx; omega
          · rfl
        · simp [tset, tget, hv, hk]
      · simp only [tset, h1, h2, if_false, tget]
        split
        · rfl
        · split
          · rfl
          · exact ih he.2

@[simp] theorem tget_tmod (d : α) (m : Tbl α) (k : Nat) (f : α → α) (h : twf d m = true) :
    tget d (tmod d m k f) k = f (tget d m k) := tget_tset d m k _ h

@[simp] theorem tget_tmod_ne (d : α) (m : Tbl α) (k k' : Nat) (f : α → α) (h : twf d m = true) (hk : k' ≠ k) :
    tget d (tmod d m k f) k' = tget d m k' := tget_tset_ne d m k k' _ h hk

/-- What the bytes written leave as it was. -/
theorem tget_writeBytes_ne (d : Byte) (bs : List Byte) : ∀ (m : Tbl Byte) (a k : Nat), twf d m = true →
    (k < a ∨ a + bs.length ≤ k) → tget d (writeBytes d m a bs) k = tget d m k := by
  induction bs with
  | nil => intro m a k _ _; rfl
  | cons b bs ih =>
    intro m a k h hk
    simp only [List.length_cons] at hk
    rw [writeBytes, ih _ _ k (twf_tset d a b h) (by omega), tget_tset_ne d m a k b h (by omega)]

/-- The bytes written are the bytes read. -/
theorem tget_writeBytes (d : Byte) (bs : List Byte) : ∀ (m : Tbl Byte) (a i : Nat), twf d m = true → i < bs.length →
    tget d (writeBytes d m a bs) (a + i) = bs.getD i d := by
  induction bs with
  | nil => intro m a i _ h; simp at h
  | cons b bs ih =>
    intro m a i h hi
    cases i with
    | zero =>
      show tget d (writeBytes d (tset d m a b) (a + 1) bs) a = b
      rw [tget_writeBytes_ne d bs _ (a + 1) a (twf_tset d a b h) (by omega), tget_tset d m a b h]
    | succ i =>
      have e : a + (i + 1) = a + 1 + i := by omega
      rw [writeBytes, e, ih _ _ i (twf_tset d a b h) (by simpa using hi)]
      rfl

theorem readBytes_writeBytes (d : Byte) (m : Tbl Byte) (a : Nat) (bs : List Byte) (h : twf d m = true) :
    readBytes d (writeBytes d m a bs) a bs.length = bs := by
  apply List.ext_getElem
  · simp [readBytes]
  · intro i h1 h2
    simp only [readBytes, List.getElem_map, List.getElem_range]
    rw [tget_writeBytes d bs m a i h h2]
    simp [h2]

end Sys2Proof.Machine
end

