-- ==== Sys2Proof/Laws/Gaps.lean ====
section
/-! SUPPORT. Tables built from rising keys: the lowest free frames, and a half's share of a range of frames. -/

namespace Sys2Proof.Machine
theorem lowestGaps_rising (limit : Nat) : ∀ (l : List Nat) (n k : Nat),
    (lowestGaps limit n l k).Pairwise (· < ·) ∧ ∀ y ∈ lowestGaps limit n l k, k ≤ y := by
  have rng : ∀ k n : Nat, ((List.range n).map (k + ·)).Pairwise (· < ·) := by
    intro k n
    rw [List.pairwise_map]
    exact List.pairwise_lt_range.imp (fun h => by omega)
  intro l
  induction l with
  | nil =>
    intro n k
    rw [lowestGaps.eq_1]
    exact ⟨rng _ _, by
      intro y hy
      simp only [List.mem_map] at hy
      obtain ⟨i, _, rfl⟩ := hy
      omega⟩
  | cons x r ih =>
    intro n k
    rw [lowestGaps]
    split
    · exact ih _ _
    · dsimp only
      refine ⟨List.pairwise_append.2 ⟨rng _ _, (ih _ _).1, fun a ha b hb => ?_⟩, fun y hy => ?_⟩
      · have hb := (ih _ _).2 b hb
        simp only [List.mem_map, List.mem_range] at ha
        obtain ⟨i, hi, rfl⟩ := ha
        omega
      · rcases List.mem_append.1 hy with hy | hy
        · simp only [List.mem_map, List.mem_range] at hy
          obtain ⟨i, hi, rfl⟩ := hy
          omega
        · have := (ih _ _).2 y hy
          omega

theorem pairwise_zip_fst {α : Type} : ∀ (l : List Nat) (us : List α), l.Pairwise (· < ·) →
    (l.zip us).Pairwise (fun a b => a.1 < b.1) := by
  intro l
  induction l with
  | nil => intro us _; simp
  | cons x l ih =>
    intro us h
    cases us with
    | nil => simp
    | cons u us =>
      have h := List.pairwise_cons.1 h
      rw [List.zip_cons_cons, List.pairwise_cons]
      exact ⟨fun y hy => h.1 _ (List.of_mem_zip hy).1, ih us h.2⟩

/-- Values changed by a map that makes none of them the default leave a table in the canonical form. -/
theorem twf_mapValue {α : Type} [DecidableEq α] (d : α) {m : Tbl α} (f : Nat × α → Nat × α) (hk : ∀ e, e.2 ≠ d → (f e).1 = e.1)
    (hv : ∀ e, e.2 ≠ d → (f e).2 ≠ d) (h : twf d m = true) : twf d (m.map f) = true := by
  rw [twf_iff] at h ⊢
  refine ⟨?_, fun x hx => ?_⟩
  · rw [List.pairwise_map]
    refine h.1.imp_of_mem (fun ha hb hab => ?_)
    rw [hk _ (h.2 _ ha), hk _ (h.2 _ hb)]; exact hab
  · obtain ⟨e, he, rfl⟩ := List.mem_map.1 hx
    exact hv _ (h.2 _ he)

theorem range_share_rising {β : Type} (f : Nat) (p : β → Bool) (hs : List β) :
    ((hs.zip (List.range hs.length)).filterMap fun x => if p x.1 then some (f + x.2) else none).Pairwise (· < ·) := by
  rw [List.pairwise_filterMap]
  have : (hs.zip (List.range hs.length)).Pairwise (fun a b => a.2 < b.2) := by
    have key : ∀ (l : List β) (n : List Nat), n.Pairwise (· < ·) → (l.zip n).Pairwise (fun a b => a.2 < b.2) := by
      intro l
      induction l with
      | nil => intro n _; simp
      | cons x l ih =>
        intro n h
        cases n with
        | nil => simp
        | cons u us =>
          have h := List.pairwise_cons.1 h
          rw [List.zip_cons_cons, List.pairwise_cons]
          exact ⟨fun y hy => h.1 _ (List.of_mem_zip hy).2, ih us h.2⟩
    exact key _ _ List.pairwise_lt_range
  refine this.imp (fun hab x hx y hy => ?_)
  split at hx <;> split at hy <;> simp_all
  omega
end Sys2Proof.Machine
end

