-- ==== Sys2Proof/Laws/Memory.lean ====
section
/-! SUPPORT. Every operation over device memory keeps its canonical form. -/

namespace Sys2Proof.Machine

theorem Memory.wf_iff (m : Memory) : m.wf = true ↔
    twf 0 m.cells = true ∧ twf false m.poison = true ∧ twf false m.fpoison = true ∧ twf 0 m.upset = true ∧
      twf false m.badLoc = true ∧ twf none m.fmap = true := by
  simp only [Memory.wf, Bool.and_eq_true]
  exact ⟨fun ⟨⟨⟨⟨⟨a, b⟩, c⟩, d⟩, e⟩, f⟩ => ⟨a, b, c, d, e, f⟩, fun ⟨a, b, c, d, e, f⟩ => ⟨⟨⟨⟨⟨a, b⟩, c⟩, d⟩, e⟩, f⟩⟩

theorem foldl_wf {β : Type} (f : Memory → β → Memory) (hf : ∀ m b, m.wf = true → (f m b).wf = true) (l : List β) :
    ∀ m : Memory, m.wf = true → (l.foldl f m).wf = true := by
  induction l with
  | nil => intro m h; exact h
  | cons b l ih => intro m h; exact ih _ (hf m b h)

theorem flipWord_wf (m : Memory) (w : Nat) (p : BitVec 107) (h : m.wf = true) : (flipWord m w p).wf = true := by
  rw [Memory.wf_iff] at *
  obtain ⟨h1, h2, h3, h4, h5, h6⟩ := h
  refine ⟨twf_foldl 0 _ (fun _ _ h => twf_tmod 0 _ _ h) _ _ h1, ?_, h3, h4, h5, h6⟩
  simp only [flipWord]
  split
  · exact twf_tmod false _ _ h2
  · exact h2

theorem poisonWord_wf (m : Memory) (w : Nat) (h : m.wf = true) : (poisonWord m w).wf = true := by
  rw [Memory.wf_iff] at *
  obtain ⟨h1, h2, h3, h4, h5, h6⟩ := h
  exact ⟨twf_tclear 0 _ _ h1, twf_tset false _ _ h2, h3, twf_tset 0 _ _ h4, h5, h6⟩

theorem writeInWord_wf (m : Memory) (w off : Nat) (bs : List Byte) (h : m.wf = true) :
    (writeInWord m w off bs).wf = true := by
  have h0 := h
  rw [Memory.wf_iff] at h
  obtain ⟨h1, h2, h3, h4, h5, h6⟩ := h
  unfold writeInWord
  split
  · rw [Memory.wf_iff]
    exact ⟨twf_writeBytes 0 _ _ h1, twf_tset false _ _ h2, h3, twf_tset 0 _ _ h4, twf_tset false _ _ h5, h6⟩
  · split
    · exact h0
    · rw [Memory.wf_iff]
      exact ⟨twf_writeBytes 0 _ _ h1, h2, h3, h4, h5, h6⟩

theorem writeDpa_wf (m : Memory) (a : Nat) (bs : List Byte) (h : m.wf = true) : (writeDpa m a bs).wf = true :=
  foldl_wf _ (fun m _ h => writeInWord_wf m _ _ _ h) _ m h

theorem zeroFrame_wf (m : Memory) (f : Nat) (h : m.wf = true) : (zeroFrame m f).wf = true := by
  rw [Memory.wf_iff] at *
  obtain ⟨h1, h2, h3, h4, h5, h6⟩ := h
  exact ⟨twf_tclear 0 _ _ h1, twf_tclear false _ _ h2, twf_tset false _ _ h3, twf_tclear 0 _ _ h4,
    twf_tclear false _ _ h5, h6⟩

theorem twf_copyRange {α : Type} [DecidableEq α] (d : α) (m : Tbl α) (lo hi base : Nat) (h : twf d m = true) :
    twf d (copyRange d m lo hi base) = true :=
  twf_foldl d _ (fun _ _ h => twf_tset d _ _ h) _ _ (twf_tclear d _ _ h)

theorem copyFrame_wf (m : Memory) (src dst : Nat) (h : m.wf = true) : (copyFrame m src dst).wf = true := by
  refine foldl_wf _ (fun m _ h => poisonWord_wf m _ h) _ _ ?_
  rw [Memory.wf_iff] at *
  obtain ⟨h1, h2, h3, h4, h5, h6⟩ := h
  exact ⟨twf_copyRange 0 _ _ _ _ h1, twf_copyRange false _ _ _ _ h2, twf_tset false _ _ h3, twf_tclear 0 _ _ h4,
    twf_tclear false _ _ h5, h6⟩

end Sys2Proof.Machine
end

