-- ==== Sys2Proof/Laws/KeepBase.lean ====
section
/-! SUPPORT. How `State.Follows` goes through record updates, folds and results that carry a state. -/

set_option Elab.async false

namespace Sys2Proof.Machine

theorem State.Follows.refl (s : State) : s.Follows s := ⟨rfl, Nat.le_refl _, Nat.le_refl _, id, id, id⟩

theorem State.Follows.trans {a b c : State} (h : a.Follows b) (k : b.Follows c) : a.Follows c :=
  ⟨k.queue.trans h.queue, Nat.le_trans h.time k.time, Nat.le_trans h.svn k.svn, k.terminated ∘ h.terminated,
    k.production ∘ h.production, k.ok ∘ h.ok⟩

/-- A state built from another one of which it keeps the queue, the time, the memories, POWER and the fuses. -/
theorem follows_mk {s0 s : State} {hb : Both Hbm} {pw : Power} {se : Security} (e2 : hb.west.use = s.hbm.west.use) (e3 : hb.east.use = s.hbm.east.use)
    (e4 : se.svnMin = s.sec.svnMin) (e5 : se.terminated = s.sec.terminated) (e6 : se.production = s.sec.production)
    (e7 : pw.st = s.pwr.st)
    {free bus start drm fuses bel ports parts qps gal hbad barHeld arr slots eng thm led mgmt fab links bundles lans jtag} :
    s0.Follows (State.mk s.pending s.now free bus start drm fuses bel ports parts qps gal s.hmem hbad barHeld s.mem hb arr slots eng pw thm led se mgmt fab links bundles lans jtag) = s0.Follows s := by
  have key : ((State.mk s.pending s.now free bus start drm fuses bel ports parts qps gal s.hmem hbad barHeld s.mem hb arr slots eng pw thm led se mgmt fab links bundles lans jtag) : State).Ok ↔ s.Ok :=
    ⟨fun h => ⟨h.mem, e2 ▸ h.west, e3 ▸ h.east, h.hmem, e7 ▸ h.power⟩,
      fun h => ⟨h.mem, e2 ▸ h.west, e3 ▸ h.east, h.hmem, e7 ▸ h.power⟩⟩
  apply propext
  constructor
  · rintro ⟨h1, h2, h3, h4, h5, h6⟩
    exact ⟨h1, h2, e4 ▸ h3, e5 ▸ h4, e6 ▸ h5, key.1 ∘ h6⟩
  · rintro ⟨h1, h2, h3, h4, h5, h6⟩
    exact ⟨h1, h2, e4 ▸ h3, e5 ▸ h4, e6 ▸ h5, key.2 ∘ h6⟩

/-- The same where device memory is another one in the canonical form. -/
theorem follows_mem {s0 s : State} (h : s0.Follows s) {hb : Both Hbm} {pw : Power} {se : Security} {m : Memory}
    (e1 : s.Ok → m.wf = true)
    (e2 : hb.west.use = s.hbm.west.use) (e3 : hb.east.use = s.hbm.east.use)
    (e4 : se.svnMin = s.sec.svnMin) (e5 : se.terminated = s.sec.terminated) (e6 : se.production = s.sec.production)
    (e7 : pw.st = s.pwr.st)
    {free bus start drm fuses bel ports parts qps gal hbad barHeld arr slots eng thm led mgmt fab links bundles lans jtag} :
    s0.Follows (State.mk s.pending s.now free bus start drm fuses bel ports parts qps gal s.hmem hbad barHeld m hb arr slots eng pw thm led se mgmt fab links bundles lans jtag) :=
  ⟨h.queue, h.time, e4 ▸ h.svn, e5 ▸ h.terminated, e6 ▸ h.production, fun k =>
    ⟨e1 (h.ok k), e2 ▸ (h.ok k).west, e3 ▸ (h.ok k).east, (h.ok k).hmem, e7 ▸ (h.ok k).power⟩⟩

/-- The same where POWER is another of its codes. -/
theorem follows_power {s0 s : State} (h : s0.Follows s) {hb : Both Hbm} {pw : Power} {se : Security}
    (e2 : hb.west.use = s.hbm.west.use) (e3 : hb.east.use = s.hbm.east.use)
    (e4 : se.svnMin = s.sec.svnMin) (e5 : se.terminated = s.sec.terminated) (e6 : se.production = s.sec.production)
    (e7 : pw.st ≤ 3)
    {free bus start drm fuses bel ports parts qps gal hbad barHeld arr slots eng thm led mgmt fab links bundles lans jtag} :
    s0.Follows (State.mk s.pending s.now free bus start drm fuses bel ports parts qps gal s.hmem hbad barHeld s.mem hb arr slots eng pw thm led se mgmt fab links bundles lans jtag) :=
  ⟨h.queue, h.time, e4 ▸ h.svn, e5 ▸ h.terminated, e6 ▸ h.production, fun k =>
    ⟨(h.ok k).mem, e2 ▸ (h.ok k).west, e3 ▸ (h.ok k).east, (h.ok k).hmem, e7⟩⟩

theorem follows_foldl {s0 : State} {β : Type} (f : State → β → State) (l : List β)
    (hf : ∀ s b, s0.Follows s → s0.Follows (f s b)) : ∀ s : State, s0.Follows s → s0.Follows (l.foldl f s) := by
  induction l with
  | nil => intro s h; exact h
  | cons b l ih => intro s h; exact ih _ (hf s b h)

theorem follows_foldl_fst {s0 : State} {β γ : Type} (f : State × γ → β → State × γ) (l : List β)
    (hf : ∀ x b, s0.Follows x.1 → s0.Follows (f x b).1) :
    ∀ x : State × γ, s0.Follows x.1 → s0.Follows (l.foldl f x).1 := by
  induction l with
  | nil => intro s h; exact h
  | cons b l ih => intro s h; exact ih _ (hf s b h)

theorem follows_iterate {s0 : State} (f : State → State) (hf : ∀ s, s0.Follows s → s0.Follows (f s)) (n : Nat) :
    ∀ s : State, s0.Follows s → s0.Follows (iterate f n s) := by
  induction n with
  | zero => intro s h; exact h
  | succ n ih => intro s h; exact ih _ (hf s h)

theorem follows_fst {s0 : State} {γ : Type} {x : State × γ} {a : State} {b : γ} (e : x = (a, b))
    (h : s0.Follows x.1) : s0.Follows a := by
  subst e; exact h

theorem follows_snd {s0 : State} {γ : Type} {x : γ × State} {a : State} {b : γ} (e : x = (b, a))
    (h : s0.Follows x.2) : s0.Follows a := by
  subst e; exact h

theorem follows_some {s0 : State} {x : Option State} {a : State} (e : x = some a)
    (h : ∀ a ∈ x, s0.Follows a) : s0.Follows a := h a e

theorem follows_getD {s0 s : State} {x : Option State} (h : ∀ a ∈ x, s0.Follows a) (k : s0.Follows s) :
    s0.Follows (x.getD s) := by
  cases x with
  | none => exact k
  | some a => exact h a rfl

theorem follows_modHbm {s0 s : State} (h : s0.Follows s) (half : Half) (f : Hbm → Hbm)
    (hf : ∀ x : Hbm, twf .free x.use = true → twf .free (f x).use = true) : s0.Follows (s.modHbm half f) := by
  obtain ⟨h1, h2, h3, h4, h5, h6⟩ := h
  refine ⟨h1, h2, h3, h4, h5, fun k => ?_⟩
  obtain ⟨k1, k2, k3, k4, k5⟩ := h6 k
  cases half
  · exact ⟨k1, hf _ k2, k3, k4, k5⟩
  · exact ⟨k1, k2, hf _ k3, k4, k5⟩

theorem follows_in_some {s0 a : State} (h : s0.Follows a) : ∀ x ∈ some a, s0.Follows x := by
  rintro x ⟨⟩; exact h

theorem follows_in_none {s0 : State} : ∀ x ∈ (none : Option State), s0.Follows x := by
  rintro x ⟨⟩

theorem follows_error {s0 : State} {γ : Type} {x : Except State (State × γ)} {a : State} (e : x = .error a)
    (h : (∀ y, x = .error y → s0.Follows y) ∧ ∀ y, x = .ok y → s0.Follows y.1) : s0.Follows a := h.1 _ e

theorem follows_ok {s0 : State} {γ : Type} {x : Except State (State × γ)} {a : State} {b : γ} (e : x = .ok (a, b))
    (h : (∀ y, x = .error y → s0.Follows y) ∧ ∀ y, x = .ok y → s0.Follows y.1) : s0.Follows a := h.2 _ e

theorem follows_some_fst {s0 : State} {γ : Type} {x : Option (State × γ)} {a : State} {b : γ} (e : x = some (a, b))
    (h : ∀ y ∈ x, s0.Follows y.1) : s0.Follows a := h (a, b) e

theorem follows_some_snd {s0 : State} {γ : Type} {x : Option (γ × State)} {a : State} {b : γ} (e : x = some (b, a))
    (h : ∀ y ∈ x, s0.Follows y.2) : s0.Follows a := h (b, a) e

theorem follows_in_some_fst {s0 : State} {γ : Type} {a : State × γ} (h : s0.Follows a.1) : ∀ x ∈ some a, s0.Follows x.1 := by
  rintro x ⟨⟩; exact h

theorem follows_in_some_snd {s0 : State} {γ : Type} {a : γ × State} (h : s0.Follows a.2) : ∀ x ∈ some a, s0.Follows x.2 := by
  rintro x ⟨⟩; exact h

theorem follows_in_none_fst {s0 : State} {γ : Type} : ∀ x ∈ (none : Option (State × γ)), s0.Follows x.1 := by
  rintro x ⟨⟩

theorem follows_in_none_snd {s0 : State} {γ : Type} : ∀ x ∈ (none : Option (γ × State)), s0.Follows x.2 := by
  rintro x ⟨⟩

theorem follows_setMem {s0 s : State} (h : s0.Follows s) {m : Memory} (e : s.mem.wf = true → m.wf = true) :
    s0.Follows { s with mem := m } :=
  follows_mem h (fun k => e k.mem) rfl rfl rfl rfl rfl rfl

theorem follows_setHbm {s0 s : State} (h : s0.Follows s) {b : Both Hbm}
    (hw : twf .free s.hbm.west.use = true → twf .free b.west.use = true)
    (he : twf .free s.hbm.east.use = true → twf .free b.east.use = true) : s0.Follows { s with hbm := b } :=
  ⟨h.queue, h.time, h.svn, h.terminated, h.production, fun k =>
    ⟨(h.ok k).mem, hw (h.ok k).west, he (h.ok k).east, (h.ok k).hmem, (h.ok k).power⟩⟩

theorem follows_setPwr {s0 s : State} (h : s0.Follows s) {p : Power} (e : s.pwr.st ≤ 3 → p.st ≤ 3) :
    s0.Follows { s with pwr := p } :=
  ⟨h.queue, h.time, h.svn, h.terminated, h.production, fun k =>
    ⟨(h.ok k).mem, (h.ok k).west, (h.ok k).east, (h.ok k).hmem, e (h.ok k).power⟩⟩

theorem follows_setHmem {s0 s : State} (h : s0.Follows s) {m : Tbl Byte} (e : twf 0 s.hmem = true → twf 0 m = true) :
    s0.Follows { s with hmem := m } :=
  ⟨h.queue, h.time, h.svn, h.terminated, h.production, fun k =>
    ⟨(h.ok k).mem, (h.ok k).west, (h.ok k).east, e (h.ok k).hmem, (h.ok k).power⟩⟩

theorem follows_setSec {s0 s : State} (h : s0.Follows s) {x : Security} (e1 : s.sec.svnMin ≤ x.svnMin)
    (e2 : s.sec.terminated = true → x.terminated = true) (e3 : s.sec.production = true → x.production = true) :
    s0.Follows { s with sec := x } :=
  ⟨h.queue, h.time, Nat.le_trans h.svn e1, e2 ∘ h.terminated, e3 ∘ h.production, fun k =>
    ⟨(h.ok k).mem, (h.ok k).west, (h.ok k).east, (h.ok k).hmem, (h.ok k).power⟩⟩

end Sys2Proof.Machine
end

