-- ==== Sys2Proof/Laws/KeepOps.lean ====
section
/-! SUPPORT. One lemma per operation of the shared operations, frames, operation lists and runs:
the state it answers follows the state it was given, as `State.Follows` says. -/

set_option Elab.async false

namespace Sys2Proof.Machine

theorem State.atTime_follows {s0 s : State} (h : s0.Follows s) (a2) : s0.Follows (State.atTime s a2) := by
  exact ⟨h.queue, Nat.le_trans h.time (Nat.le_max_left _ _), h.svn, h.terminated, h.production,
    fun k => ⟨(h.ok k).mem, (h.ok k).west, (h.ok k).east, (h.ok k).hmem, (h.ok k).power⟩⟩

theorem State.modPort_follows {s0 s : State} (h : s0.Follows s) (a2 a3) : s0.Follows (State.modPort s a2 a3) := by
  unfold State.modPort
  repeat' first
    | with_reducible assumption
    | with_reducible (simp only [follows_mk])

theorem State.modPart_follows {s0 s : State} (h : s0.Follows s) (a2 a3) : s0.Follows (State.modPart s a2 a3) := by
  unfold State.modPart
  repeat' first
    | with_reducible assumption
    | with_reducible (simp only [follows_mk])

theorem State.modQp_follows {s0 s : State} (h : s0.Follows s) (a2 a3 a4) : s0.Follows (State.modQp s a2 a3 a4) := by
  unfold State.modQp
  repeat' first
    | with_reducible assumption
    | with_reducible (simp only [follows_mk])

theorem State.modSlot_follows {s0 s : State} (h : s0.Follows s) (a2 a3) : s0.Follows (State.modSlot s a2 a3) := by
  unfold State.modSlot
  repeat' first
    | with_reducible assumption
    | with_reducible (simp only [follows_mk])

theorem State.modDom_follows {s0 s : State} (h : s0.Follows s) (a2 a3) : s0.Follows (State.modDom s a2 a3) := by
  unfold State.modDom
  repeat' first
    | with_reducible assumption
    | with_reducible (simp only [follows_mk])

theorem State.modArr_follows {s0 s : State} (h : s0.Follows s) (a2 a3) : s0.Follows (State.modArr s a2 a3) := by
  unfold State.modArr
  repeat' first
    | with_reducible assumption
    | with_reducible (simp only [follows_mk])

theorem State.modDie_follows {s0 s : State} (h : s0.Follows s) (a2 a3) : s0.Follows (State.modDie s a2 a3) := by
  unfold State.modDie
  repeat' first
    | with_reducible assumption
    | with_reducible (simp only [follows_mk])

theorem State.modRail_follows {s0 s : State} (h : s0.Follows s) (a2 a3) : s0.Follows (State.modRail s a2 a3) := by
  unfold State.modRail
  repeat' first
    | with_reducible assumption
    | with_reducible (simp only [follows_mk])

theorem State.takeFree_follows {s0 s : State} (h : s0.Follows s) : s0.Follows (State.takeFree s).2 := by
  unfold State.takeFree
  repeat' first
    | with_reducible assumption
    | with_reducible (simp only [follows_mk])

theorem State.issue_follows {s0 s : State} (h : s0.Follows s) (a2 a3 a4 a5) : s0.Follows (State.issue s a2 a3 a4 a5) := by
  unfold State.issue
  repeat' first
    | with_reducible assumption
    | with_reducible (simp only [follows_mk])

theorem State.noteUnsync_follows {s0 s : State} (h : s0.Follows s) (a2) : s0.Follows (State.noteUnsync s a2) := by
  unfold State.noteUnsync
  try dsimp only
  repeat' first
    | with_reducible assumption
    | with_reducible apply State.issue_follows
    | with_reducible apply State.modArr_follows
    | split

theorem State.report_follows {s0 s : State} (h : s0.Follows s) (a2 a3 a4 a5) : s0.Follows (State.report s a2 a3 a4 a5) := by
  unfold State.report
  repeat' first
    | with_reducible assumption
    | with_reducible apply State.issue_follows
    | with_reducible apply State.noteUnsync_follows

theorem State.hostWrite_follows {s0 s : State} (h : s0.Follows s) (a2 a3 a4) : s0.Follows (State.hostWrite s a2 a3 a4) := by
  exact follows_setHmem h (fun k => twf_writeBytes 0 _ _ k)

theorem State.msi_follows {s0 s : State} (h : s0.Follows s) (a2 a3) : s0.Follows (State.msi s a2 a3) := by
  unfold State.msi
  try dsimp only
  repeat' first
    | with_reducible assumption
    | with_reducible apply State.modPort_follows
    | with_reducible apply State.hostWrite_follows
    | split

theorem State.oculusUpdate_follows {s0 s : State} (h : s0.Follows s) : s0.Follows (State.oculusUpdate s) := by
  unfold State.oculusUpdate
  repeat' first
    | with_reducible assumption
    | with_reducible apply State.msi_follows
    | with_reducible apply follows_foldl
    | with_reducible (simp only [follows_mk])
    | (intro _ _ _)

theorem State.reply_follows {s0 s : State} (h : s0.Follows s) (a2 a3 a4 a5 a6) : s0.Follows (State.reply s a2 a3 a4 a5 a6) := by
  unfold State.reply
  try dsimp only
  repeat' first
    | with_reducible assumption
    | with_reducible apply State.hostWrite_follows
    | with_reducible apply State.modQp_follows
    | with_reducible apply State.msi_follows
    | split

theorem State.setUse_follows {s0 s : State} (h : s0.Follows s) (a2 a3 a4) : s0.Follows (State.setUse s a2 a3 a4) := by
  exact follows_modHbm h _ _ (fun x k => twf_tset FrameUse.free _ _ k)

theorem State.moveUse_follows {s0 s : State} (h : s0.Follows s) (a2 a3 a4) : s0.Follows (State.moveUse s a2 a3 a4) := by
  unfold State.moveUse
  dsimp only
  have k : s0.Follows ((({ s with mem := copyFrame s.mem (dpaFrame a2 a3) (dpaFrame a2 a4) } : State).setUse a2 a4
      ((s.hbm.get a2).useOf a3)).setUse a2 a3 .retired) :=
    State.setUse_follows (State.setUse_follows (follows_setMem h (copyFrame_wf _ _ _)) _ _ _) _ _ _
  split
  · refine follows_setMem k (fun e => ?_)
    rw [Memory.wf_iff] at e ⊢
    exact ⟨e.1, e.2.1, e.2.2.1, e.2.2.2.1, e.2.2.2.2.1, twf_tset none _ _ e.2.2.2.2.2⟩
  · exact State.modSlot_follows k _ _
  · exact k

theorem State.retireFrame_follows {s0 s : State} (h : s0.Follows s) (a2 a3 a4) : s0.Follows (State.retireFrame s a2 a3 a4) := by
  unfold State.retireFrame
  try dsimp only
  repeat' first
    | with_reducible assumption
    | with_reducible apply State.report_follows
    | with_reducible apply State.oculusUpdate_follows
    | with_reducible (refine follows_modHbm ?_ _ _ (fun _ hx => hx))
    | with_reducible apply State.setUse_follows
    | with_reducible apply State.moveUse_follows
    | split

theorem State.takeFenceFrames_follows {s0 s : State} (h : s0.Follows s) (a2) : ∀ x ∈ (State.takeFenceFrames s a2), s0.Follows x.1 := by
  unfold State.takeFenceFrames
  dsimp only
  split
  · exact follows_in_none_fst
  · refine follows_in_some_fst (follows_modHbm h _ _ (fun x k => ?_))
    refine twf_tinsertAll FrameUse.free _ k ((twf_iff _ _).2 ⟨?_, fun e he => ?_⟩)
    · rw [List.pairwise_map]; exact (lowestGaps_rising _ _ _ _).1
    · simp only [List.mem_map] at he
      obtain ⟨i, _, rfl⟩ := he
      simp

theorem State.startFence_follows {s0 s : State} (h : s0.Follows s) (a2 a3 a4) : s0.Follows (State.startFence s a2 a3 a4) := by
  unfold State.startFence
  repeat' first
    | with_reducible assumption
    | with_reducible apply State.oculusUpdate_follows
    | with_reducible (refine follows_modHbm ?_ _ _ (fun _ hx => hx))

theorem State.fencePc_follows {s0 s : State} (h : s0.Follows s) (a2 a3) : s0.Follows (State.fencePc s a2 a3) := by
  unfold State.fencePc
  try dsimp only
  repeat' first
    | with_reducible assumption
    | with_reducible apply State.startFence_follows
    | with_reducible refine follows_some_fst (by assumption) (State.takeFenceFrames_follows ?_ _)
    | with_reducible apply State.report_follows
    | with_reducible (refine follows_modHbm ?_ _ _ (fun _ hx => hx))
    | split

theorem State.retireRow_follows {s0 s : State} (h : s0.Follows s) (a2 a3 a4 a5) : s0.Follows (State.retireRow s a2 a3 a4 a5) := by
  unfold State.retireRow
  try dsimp only
  repeat' first
    | with_reducible assumption
    | with_reducible (refine follows_modHbm ?_ _ _ (fun _ hx => hx))
    | with_reducible apply State.retireFrame_follows
    | with_reducible apply State.fencePc_follows
    | with_reducible apply follows_foldl
    | split
    | (intro _ _ _)

theorem State.countCorrected_follows {s0 s : State} (h : s0.Follows s) (a2 a3 a4 a5 a6 a7) : s0.Follows (State.countCorrected s a2 a3 a4 a5 a6 a7).1 := by
  unfold State.countCorrected
  try dsimp only
  repeat' first
    | with_reducible assumption
    | with_reducible (refine follows_modHbm ?_ _ _ (fun _ hx => hx))
    | with_reducible apply State.report_follows
    | split

theorem State.decodeWord_follows {s0 s : State} (h : s0.Follows s) (a2) : s0.Follows (State.decodeWord s a2).1 := by
  unfold State.decodeWord
  dsimp only
  have flip (v : BitVec 107) : s0.Follows { s with mem := { flipWord s.mem a2 v with upset := tset 0 s.mem.upset a2 0 } } := by
    refine follows_setMem h (fun e => ?_)
    have k := flipWord_wf s.mem a2 v e
    rw [Memory.wf_iff] at e k ⊢
    exact ⟨k.1, k.2.1, k.2.2.1, twf_tset 0 _ _ e.2.2.2.1, k.2.2.2.2.1, k.2.2.2.2.2⟩
  have fix (v : BitVec 107) : s0.Follows { s with mem := { flipWord s.mem a2 v with
      upset := tset 0 s.mem.upset a2 0, fc := uncache s.mem.fc a2 } } := follows_setMem (flip v) (fun e => e)
  have bad : s0.Follows { s with mem := { s.mem with badLoc := tset false s.mem.badLoc a2 true } } := by
    refine follows_setMem h (fun e => ?_)
    rw [Memory.wf_iff] at e ⊢
    exact ⟨e.1, e.2.1, e.2.2.1, e.2.2.2.1, twf_tset false _ _ e.2.2.2.2.1, e.2.2.2.2.2⟩
  have poison : s0.Follows { s with mem := poisonWord s.mem a2 } := follows_setMem h (poisonWord_wf _ _)
  split
  · exact flip _
  · exact State.countCorrected_follows (fix _) _ _ _ _ _ _
  · split
    · exact h
    · refine State.report_follows ?_ _ _ _ _
      refine follows_modHbm ?_ _ _ (fun _ hx => hx)
      exact bad
  · repeat' first
      | with_reducible assumption
      | with_reducible apply State.report_follows
      | with_reducible apply State.noteUncorrectable_follows
      | (refine follows_modHbm ?_ _ _ (fun _ hx => hx))
      | split

theorem State.decodeHits_follows {s0 s : State} (h : s0.Follows s) (a2) : s0.Follows (State.decodeHits s a2).1 := by
  unfold State.decodeHits
  repeat' first
    | with_reducible assumption
    | with_reducible apply State.decodeWord_follows
    | with_reducible apply follows_foldl_fst
    | (intro _ _ _)

theorem State.retireDue_follows {s0 : State} : ∀ (n : Nat) (s : State) (_ : s0.Follows s) (l : List RowAt),
    s0.Follows (s.retireDue n l) := by
  intro n
  induction n with
  | zero => intro s h l; exact h
  | succ n ih =>
    intro s h l
    unfold State.retireDue
    split
    · exact h
    · dsimp only
      refine ih _ (follows_foldl _ _ (fun s b h => State.retireRow_follows h _ _ _ _) _ ?_) _
      exact State.decodeHits_follows h _

theorem State.strike_follows {s0 s : State} (h : s0.Follows s) (a2) : s0.Follows (State.strike s a2) := by
  refine follows_foldl _ _ (fun s b h => State.fencePc_follows h _ _) _ (follows_setMem h (fun e => ?_))
  rw [Memory.wf_iff] at e ⊢
  exact ⟨e.1, e.2.1, e.2.2.1, twf_foldl 0 _ (fun _ _ h => twf_tmod 0 _ _ h) _ _ e.2.2.2.1, e.2.2.2.2.1, e.2.2.2.2.2⟩

theorem State.settle_follows {s0 s : State} (h : s0.Follows s) (a2) : s0.Follows (State.settle s a2) := by
  unfold State.settle
  repeat' first
    | with_reducible assumption
    | with_reducible apply State.decodeHits_follows
    | with_reducible apply State.retireDue_follows

theorem State.farLine_follows {s0 s : State} (h : s0.Follows s) (a2 a3) : s0.Follows (State.farLine s a2 a3) := by
  have f := State.takeFree_follows h
  unfold State.farLine
  split
  · exact h
  · split
    · refine follows_modHbm ?_ _ _ (fun _ hx => hx)
      exact follows_setMem h (fun e => e)
    · dsimp only
      refine follows_modHbm ?_ _ _ (fun _ hx => hx)
      refine follows_setMem ?_ (fun e => e)
      split
      · exact h
      · exact follows_setMem (m := { s.mem with fc := _ }) f (fun e => e)

theorem State.clearFar_follows {s0 s : State} (h : s0.Follows s) : s0.Follows (State.clearFar s) :=
  follows_setMem h (fun e => e)

theorem State.gateFar_follows {s0 s : State} (h : s0.Follows s) (a2) : s0.Follows (State.gateFar s a2) := by
  unfold State.gateFar
  split
  · exact h
  · exact follows_setMem h (fun e => e)

theorem State.settlePart_follows {s0 s : State} (h : s0.Follows s) (a2 a3 a4) : s0.Follows (State.settlePart s a2 a3 a4) := by
  unfold State.settlePart
  repeat' first
    | with_reducible assumption
    | with_reducible apply State.settle_follows

theorem State.partWrite_follows {s0 s : State} (h : s0.Follows s) (a2 a3 a4) : s0.Follows (State.partWrite s a2 a3 a4) := by
  refine follows_foldl _ _ (fun s q h => ?_) _ h
  split
  · exact follows_setMem h (writeInWord_wf _ _ _ _)
  · exact h

theorem State.kvWrite_follows {s0 s : State} (h : s0.Follows s) (a2 a3 a4 a5) : s0.Follows (State.kvWrite s a2 a3 a4 a5) := by
  exact follows_foldl _ _ (fun s q h => follows_setMem h (writeInWord_wf _ _ _ _)) _ h

theorem State.settleKv_follows {s0 s : State} (h : s0.Follows s) (a2 a3 a4 a5) : s0.Follows (State.settleKv s a2 a3 a4 a5) := by
  unfold State.settleKv
  repeat' first
    | with_reducible assumption
    | with_reducible apply State.settle_follows

theorem State.takeFrames_follows {s0 s : State} (h : s0.Follows s) (a : Half) (us : List FrameUse)
    (hu : ∀ u ∈ us, u ≠ .free) : s0.Follows (s.takeFrames a us).1 := by
  refine follows_modHbm (follows_setMem h (foldl_wf _ (fun m b k => zeroFrame_wf m b k) _ _)) _ _ (fun x k => ?_)
  refine twf_tinsertAll FrameUse.free _ k ((twf_iff _ _).2 ⟨?_, fun e he => ?_⟩)
  · exact pairwise_zip_fst _ _ (lowestGaps_rising _ _ _ _).1
  · exact hu _ (List.of_mem_zip he).2

theorem State.releaseUses_follows {s0 s : State} (h : s0.Follows s) (a2 a3) : s0.Follows (State.releaseUses s a2 a3) := by
  unfold State.releaseUses
  dsimp only
  refine follows_setHbm h ?_ ?_ <;>
    exact fun k => twf_mapValue FrameUse.free _ (fun e _ => by split <;> rfl)
      (fun e he => by split <;> simp_all) k

theorem State.mapShare_follows {s0 s : State} (h : s0.Follows s) (a2 a3 a4 a5) : s0.Follows (State.mapShare s a2 a3 a4 a5) := by
  have hr : ∀ us : List FrameUse, (∀ u ∈ us, u ≠ .free) → s0.Follows (s.takeFrames a5 us).1 :=
    fun us hu => State.takeFrames_follows h a5 us hu
  unfold State.mapShare
  dsimp only
  refine follows_setMem (hr _ (fun u hu => by obtain ⟨g, _, rfl⟩ := List.mem_map.1 hu; exact FrameUse.noConfusion)) (fun e => ?_)
  rw [Memory.wf_iff] at e ⊢
  refine ⟨e.1, e.2.1, e.2.2.1, e.2.2.2.1, e.2.2.2.2.1, twf_tinsertAll none _ e.2.2.2.2.2 ?_⟩
  rw [twf_iff]
  refine ⟨pairwise_zip_fst _ _ ?_, fun x hx => ?_⟩
  · rw [List.pairwise_map]
    have hs := range_share_rising a3 (fun x => decide (x = a5)) a4
    simp only [decide_eq_true_eq] at hs
    refine hs.imp (fun hk => ?_)
    simp only [mapKey]; omega
  · have := (List.of_mem_zip hx).2
    simp only [List.mem_map] at this
    obtain ⟨_, _, e⟩ := this
    simp [← e]

theorem State.mapFrames_follows {s0 s : State} (h : s0.Follows s) (a2 a3 a4) : s0.Follows (State.mapFrames s a2 a3 a4) := by
  unfold State.mapFrames
  repeat' first
    | with_reducible assumption
    | with_reducible apply State.mapShare_follows

theorem State.unmapFrames_follows {s0 s : State} (h : s0.Follows s) (a2 a3 a4) : s0.Follows (State.unmapFrames s a2 a3 a4) := by
  refine follows_setMem (State.releaseUses_follows h _ _) (fun e => ?_)
  rw [Memory.wf_iff] at e ⊢
  exact ⟨e.1, e.2.1, e.2.2.1, e.2.2.2.1, e.2.2.2.2.1, twf_tclear none _ _ e.2.2.2.2.2⟩

theorem State.takeKv_follows {s0 s : State} (h : s0.Follows s) (a2 a3 a4) : s0.Follows (State.takeKv s a2 a3 a4) := by
  unfold State.takeKv
  refine State.modSlot_follows (State.takeFrames_follows h _ _ (fun u hu => ?_)) _ _
  obtain ⟨g, _, rfl⟩ := List.mem_map.1 hu
  exact FrameUse.noConfusion

theorem State.releaseKv_follows {s0 s : State} (h : s0.Follows s) (a2 a3) : s0.Follows (State.releaseKv s a2 a3) := by
  unfold State.releaseKv
  repeat' first
    | with_reducible assumption
    | with_reducible apply State.modSlot_follows
    | with_reducible apply State.releaseUses_follows

theorem State.zeroDone_follows {s0 s : State} (h : s0.Follows s) (a2) : s0.Follows (State.zeroDone s a2) := by
  exact follows_modHbm (follows_setMem h (foldl_wf _ (fun m b k => zeroFrame_wf m b k) _ _)) _ _
    (fun x k => twf_filter FrameUse.free _ k)

theorem State.dropWaiter_follows {s0 s : State} (h : s0.Follows s) (a2) : s0.Follows (State.dropWaiter s a2) := by
  unfold State.dropWaiter
  repeat' first
    | with_reducible assumption
    | with_reducible (simp only [follows_mk])

theorem State.wait_follows {s0 s : State} (h : s0.Follows s) (a2 a3) : s0.Follows (State.wait s a2 a3) := by
  unfold State.wait
  repeat' first
    | with_reducible assumption
    | with_reducible (simp only [follows_mk])

theorem State.freeRange_follows {s0 s : State} (h : s0.Follows s) (a2) : s0.Follows (State.freeRange s a2) := by
  unfold State.freeRange
  repeat' first
    | with_reducible assumption
    | with_reducible apply State.reply_follows
    | with_reducible apply State.wait_follows
    | with_reducible apply State.unmapFrames_follows
    | split

theorem State.settleFrees_follows {s0 s : State} (h : s0.Follows s) : s0.Follows (State.settleFrees s) := by
  unfold State.settleFrees
  try dsimp only
  repeat' first
    | with_reducible assumption
    | with_reducible apply State.freeRange_follows
    | with_reducible apply State.dropWaiter_follows
    | with_reducible apply follows_foldl
    | split
    | (intro _ _ _)

theorem State.wake_follows {s0 s : State} (h : s0.Follows s) : s0.Follows (State.wake s) := by
  unfold State.wake
  split
  · exact follows_setPwr h (fun _ => Nat.zero_le 3)
  · exact h

theorem State.modEng_follows {s0 s : State} (h : s0.Follows s) (a2) : s0.Follows (State.modEng s a2) := by
  unfold State.modEng
  repeat' first
    | with_reducible assumption
    | with_reducible (simp only [follows_mk])

theorem State.setRun_follows {s0 s : State} (h : s0.Follows s) (a2) : s0.Follows (State.setRun s a2) := by
  unfold State.setRun
  repeat' first
    | with_reducible assumption
    | with_reducible (simp only [follows_mk])

theorem State.keepOutside_follows {s0 s : State} (h : s0.Follows s) (a2) : s0.Follows (State.keepOutside s a2) := by
  unfold State.keepOutside
  repeat' first
    | with_reducible assumption
    | with_reducible apply State.modSlot_follows

theorem State.endStep_follows {s0 s : State} (h : s0.Follows s) (a2 a3 a4 a5 a6 a7) : s0.Follows (State.endStep s a2 a3 a4 a5 a6 a7) := by
  unfold State.endStep
  repeat' first
    | with_reducible assumption
    | with_reducible apply State.hostWrite_follows
    | with_reducible apply State.reply_follows
    | with_reducible apply State.settleFrees_follows
    | with_reducible apply State.modSlot_follows
    | split

theorem State.dropStep_follows {s0 s : State} (h : s0.Follows s) (a2 a3 a4 a5) : s0.Follows (State.dropStep s a2 a3 a4 a5) := by
  unfold State.dropStep
  repeat' first
    | with_reducible assumption
    | with_reducible apply State.endStep_follows
    | with_reducible apply State.keepOutside_follows
    | split

theorem State.endComing_follows {s0 s : State} (h : s0.Follows s) (a2 a3) : s0.Follows (State.endComing s a2 a3) := by
  unfold State.endComing
  try dsimp only
  repeat' first
    | with_reducible assumption
    | with_reducible apply State.dropStep_follows
    | with_reducible apply follows_foldl
    | with_reducible apply follows_foldl_fst
    | with_reducible (simp only [follows_mk])
    | split
    | (intro _ _ _)

theorem State.settleGroups_follows {s0 s : State} (h : s0.Follows s) (a2 a3) : s0.Follows (State.settleGroups s a2 a3) := by
  unfold State.settleGroups
  repeat' first
    | with_reducible assumption
    | with_reducible apply State.settlePart_follows
    | with_reducible apply follows_foldl
    | split
    | (intro _ _ _)

theorem State.bindGroup_follows {s0 s : State} (h : s0.Follows s) (a2 a3) : s0.Follows (State.bindGroup s a2 a3) := by
  unfold State.bindGroup
  repeat' first
    | with_reducible assumption
    | with_reducible (simp only [follows_mk])

theorem State.writeRowMap_follows {s0 s : State} (h : s0.Follows s) (a2 a3 a4 a5 a6) : s0.Follows (State.writeRowMap s a2 a3 a4 a5 a6) := by
  unfold State.writeRowMap
  repeat' first
    | with_reducible assumption
    | with_reducible apply State.partWrite_follows
    | with_reducible apply follows_foldl
    | (intro _ _ _)

theorem State.gather_follows {s0 : State} : ∀ (l : List (Nat × StepReq)) (s : State) (_ : s0.Follows s) (ms : List Member)
    (rows : List RowEnt), s0.Follows (s.gather l ms rows).1 := by
  intro l
  induction l with
  | nil => intro s h ms rows; exact h
  | cons x l ih =>
    intro s h ms rows
    unfold State.gather
    dsimp only
    split
    · exact ih _ (State.keepOutside_follows (State.endStep_follows h _ _ _ _ _ _) _) _ _
    · split
      · exact ih _ (State.modSlot_follows h _ _) _ _
      · exact h

theorem State.trace_follows {s0 s : State} (h : s0.Follows s) (a2 a3 a4 a5 a6 a7 a8 a9 a10 a11) : s0.Follows (State.trace s a2 a3 a4 a5 a6 a7 a8 a9 a10 a11).1 := by
  unfold State.trace
  repeat' first
    | with_reducible assumption
    | with_reducible apply State.partWrite_follows
    | split

theorem State.finishRun_follows {s0 s : State} (h : s0.Follows s) (a2 a3) : s0.Follows (State.finishRun s a2 a3) := by
  unfold State.finishRun
  repeat' first
    | with_reducible assumption
    | with_reducible apply State.modEng_follows
    | with_reducible apply State.reply_follows
    | with_reducible apply State.settleFrees_follows
    | with_reducible (simp only [follows_mk])
    | split

theorem State.abandonTentative_follows {s0 s : State} (h : s0.Follows s) (a2) : s0.Follows (State.abandonTentative s a2) := by
  unfold State.abandonTentative
  repeat' first
    | with_reducible assumption
    | with_reducible apply State.modSlot_follows
    | with_reducible apply follows_foldl
    | (intro _ _ _)

theorem State.spendGroups_follows {s0 s : State} (h : s0.Follows s) (a2) : s0.Follows (State.spendGroups s a2) := by
  unfold State.spendGroups
  repeat' first
    | with_reducible assumption
    | with_reducible apply follows_foldl
    | with_reducible (simp only [follows_mk])
    | (intro _ _ _)

theorem State.keepReport_follows {s0 s : State} (h : s0.Follows s) (a2 a3 a4) : s0.Follows (State.keepReport s a2 a3 a4) := by
  unfold State.keepReport
  repeat' first
    | with_reducible assumption
    | with_reducible apply State.modSlot_follows
    | split

theorem State.endRun_follows {s0 s : State} (h : s0.Follows s) (a2 a3) : s0.Follows (State.endRun s a2 a3) := by
  unfold State.endRun
  repeat' first
    | with_reducible assumption
    | with_reducible apply State.abandonTentative_follows
    | with_reducible apply State.keepReport_follows
    | with_reducible apply State.endStep_follows
    | with_reducible apply State.finishRun_follows
    | with_reducible apply follows_foldl
    | split
    | (intro _ _ _)

theorem State.refuseOp_follows {s0 s : State} (h : s0.Follows s) (a2 a3 a4 a5) : s0.Follows (State.refuseOp s a2 a3 a4 a5) := by
  unfold State.refuseOp
  repeat' first
    | with_reducible assumption
    | with_reducible apply State.trace_follows
    | with_reducible apply State.endRun_follows

theorem State.begin_follows {s0 s : State} (h : s0.Follows s) (a2 a3) : s0.Follows (State.begin s a2 a3) := by
  unfold State.begin
  repeat' first
    | with_reducible assumption
    | with_reducible apply State.endRun_follows
    | with_reducible apply State.setRun_follows
    | split

theorem State.formSteps_follows {s0 s : State} (h : s0.Follows s) (a2 a3) : s0.Follows (State.formSteps s a2 a3) := by
  unfold State.formSteps
  try dsimp only
  repeat' first
    | with_reducible assumption
    | with_reducible apply State.gather_follows
    | with_reducible apply State.settleGroups_follows
    | with_reducible apply State.bindGroup_follows
    | with_reducible apply State.modPart_follows
    | with_reducible apply State.writeRowMap_follows
    | with_reducible apply State.begin_follows
    | with_reducible apply State.wake_follows
    | with_reducible apply follows_foldl
    | split
    | (intro _ _ _)

theorem State.writeTile_follows {s0 s : State} (h : s0.Follows s) (a2 a3) : s0.Follows (State.writeTile s a2 a3) := by
  unfold State.writeTile
  repeat' first
    | with_reducible assumption
    | with_reducible apply State.partWrite_follows
    | with_reducible apply State.kvWrite_follows
    | with_reducible apply follows_foldl
    | split
    | (intro _ _ _)

theorem State.settleReads_follows {s0 s : State} (h : s0.Follows s) (a2 a3 a4) : s0.Follows (State.settleReads s a2 a3 a4) := by
  unfold State.settleReads
  repeat' first
    | with_reducible assumption
    | with_reducible apply State.settlePart_follows
    | with_reducible apply follows_foldl
    | (intro _ _ _)

theorem State.farRange_follows {s0 s : State} (h : s0.Follows s) (a2 a3 a4 a5) : s0.Follows (State.farRange s a2 a3 a4 a5) := by
  unfold State.farRange
  repeat' first
    | with_reducible assumption
    | with_reducible apply State.farLine_follows
    | with_reducible apply follows_foldl
    | split
    | (intro _ _ _)

theorem State.farKv_follows {s0 s : State} (h : s0.Follows s) (a2 a3 a4 a5 a6) : s0.Follows (State.farKv s a2 a3 a4 a5 a6) := by
  unfold State.farKv
  repeat' first
    | with_reducible assumption
    | with_reducible apply State.farLine_follows
    | with_reducible apply follows_foldl
    | split
    | (intro _ _ _)

theorem State.farAttend_follows {s0 s : State} (h : s0.Follows s) (a2 a3 a4) : s0.Follows (State.farAttend s a2 a3 a4) := by
  unfold State.farAttend
  try dsimp only
  repeat' first
    | with_reducible assumption
    | with_reducible apply State.farKv_follows
    | with_reducible apply follows_foldl
    | split
    | (intro _ _ _)

theorem State.farGather_follows {s0 s : State} (h : s0.Follows s) (a2 a3 a4 a5) : s0.Follows (State.farGather s a2 a3 a4 a5) := by
  unfold State.farGather
  try dsimp only
  repeat' first
    | with_reducible assumption
    | with_reducible apply State.farRange_follows
    | with_reducible apply follows_foldl
    | split
    | (intro _ _ _)

theorem State.farHalfOp_follows {s0 s : State} (h : s0.Follows s) (a2 a3 a4) : s0.Follows (State.farHalfOp s a2 a3 a4) := by
  unfold State.farHalfOp
  try dsimp only
  repeat' first
    | with_reducible assumption
    | with_reducible apply State.farGather_follows
    | with_reducible apply State.farRange_follows
    | with_reducible apply State.farAttend_follows
    | with_reducible apply State.takeFree_follows
    | with_reducible (refine follows_modHbm ?_ _ _ (fun _ hx => hx))
    | with_reducible apply follows_foldl
    | split
    | (intro _ _ _)

theorem State.farOp_follows {s0 s : State} (h : s0.Follows s) (a2 a3) : s0.Follows (State.farOp s a2 a3) := by
  unfold State.farOp
  repeat' first
    | with_reducible assumption
    | with_reducible apply State.farHalfOp_follows
    | with_reducible apply follows_foldl
    | (intro _ _ _)

end Sys2Proof.Machine
end

