-- ==== Sys2Proof/Laws/KeepLinks.lean ====
section
/-! SUPPORT. One lemma per operation of the fabric, bundles, optics, domains, halves and lanterns:
the state it answers follows the state it was given, as `State.Follows` says. -/

set_option Elab.async false

namespace Sys2Proof.Machine

theorem State.setLink_follows {s0 s : State} (h : s0.Follows s) (a2 a3) : s0.Follows (State.setLink s a2 a3) := by
  unfold State.setLink
  repeat' first
    | with_reducible assumption
    | with_reducible (simp only [follows_mk])

theorem State.modLink_follows {s0 s : State} (h : s0.Follows s) (a2 a3) : s0.Follows (State.modLink s a2 a3) := by
  unfold State.modLink
  repeat' first
    | with_reducible assumption
    | with_reducible apply State.setLink_follows

theorem State.modBundle_follows {s0 s : State} (h : s0.Follows s) (a2 a3) : s0.Follows (State.modBundle s a2 a3) := by
  unfold State.modBundle
  repeat' first
    | with_reducible assumption
    | with_reducible (simp only [follows_mk])

theorem State.modLan_follows {s0 s : State} (h : s0.Follows s) (a2 a3) : s0.Follows (State.modLan s a2 a3) := by
  unfold State.modLan
  repeat' first
    | with_reducible assumption
    | with_reducible (simp only [follows_mk])

theorem State.modLPort_follows {s0 s : State} (h : s0.Follows s) (a2 a3 a4) : s0.Follows (State.modLPort s a2 a3 a4) := by
  unfold State.modLPort
  repeat' first
    | with_reducible assumption
    | with_reducible apply State.modLan_follows

theorem State.place_follows {s0 s : State} (h : s0.Follows s) (a2 a3) : s0.Follows (State.place s a2 a3) := by
  unfold State.place
  repeat' first
    | with_reducible assumption
    | with_reducible apply State.modLink_follows

theorem State.countFab_follows {s0 s : State} (h : s0.Follows s) (a2 a3) : s0.Follows (State.countFab s a2 a3) := by
  unfold State.countFab
  repeat' first
    | with_reducible assumption
    | with_reducible (simp only [follows_mk])

theorem State.endRole_follows {s0 s : State} (h : s0.Follows s) (a2 a3 a4) : s0.Follows (State.endRole s a2 a3 a4) := by
  unfold State.endRole
  try dsimp only
  repeat' first
    | with_reducible assumption
    | with_reducible apply State.modLink_follows
    | with_reducible apply State.countFab_follows
    | with_reducible apply follows_foldl
    | with_reducible apply follows_foldl_fst
    | with_reducible (simp only [follows_mk])
    | split
    | (intro _ _ _)

theorem State.deliver_follows {s0 s : State} (h : s0.Follows s) (a2) : ∀ x ∈ (State.deliver s a2), s0.Follows x := by
  unfold State.deliver
  repeat' first
    | with_reducible assumption
    | with_reducible apply State.countFab_follows
    | with_reducible apply State.endRole_follows
    | with_reducible refine follows_in_some ?_
    | with_reducible refine follows_in_none
    | with_reducible (simp only [follows_mk])
    | split

theorem State.retryLink_follows {s0 s : State} (h : s0.Follows s) (a2) : s0.Follows (State.retryLink s a2) := by
  unfold State.retryLink
  try dsimp only
  repeat' first
    | with_reducible assumption
    | with_reducible refine follows_some (by assumption) (State.deliver_follows ?_ _)
    | with_reducible apply State.modLink_follows
    | with_reducible apply follows_foldl_fst
    | split
    | (intro _ _ _)

theorem State.retryPool_follows {s0 s : State} (h : s0.Follows s) : s0.Follows (State.retryPool s) := by
  unfold State.retryPool
  repeat' first
    | with_reducible assumption
    | with_reducible apply State.retryLink_follows
    | with_reducible apply follows_foldl
    | split
    | (intro _ _ _)

theorem State.deliverFrom_follows {s0 s : State} (h : s0.Follows s) (a2 a3) : s0.Follows (State.deliverFrom s a2 a3) := by
  unfold State.deliverFrom
  try dsimp only
  repeat' first
    | with_reducible assumption
    | with_reducible apply State.modLink_follows
    | with_reducible refine follows_some (by assumption) (State.deliver_follows ?_ _)
    | with_reducible apply State.retryPool_follows
    | with_reducible (simp only [follows_mk])
    | split
    | (intro _ _ _)

theorem State.unroutable_follows {s0 s : State} (h : s0.Follows s) (a2) : s0.Follows (State.unroutable s a2) := by
  unfold State.unroutable
  try dsimp only
  repeat' first
    | with_reducible assumption
    | with_reducible apply State.countFab_follows
    | with_reducible apply State.report_follows
    | with_reducible (simp only [follows_mk])
    | split
    | (intro _ _ _)

theorem State.holdMsg_follows {s0 s : State} (h : s0.Follows s) (a2) : s0.Follows (State.holdMsg s a2) := by
  unfold State.holdMsg
  try dsimp only
  repeat' first
    | with_reducible assumption
    | with_reducible (simp only [follows_mk])
    | split
    | (intro _ _ _)

theorem State.cross_follows {s0 s : State} (h : s0.Follows s) (a2 a3 a4) : s0.Follows (State.cross s a2 a3 a4) := by
  unfold State.cross
  try dsimp only
  repeat' first
    | with_reducible assumption
    | with_reducible apply State.holdMsg_follows
    | with_reducible apply State.takeFree_follows
    | with_reducible apply State.place_follows
    | with_reducible (simp only [follows_mk])
    | split
    | (intro _ _ _)

theorem State.routeAt_follows {s0 s : State} (h : s0.Follows s) (a2 a3) : s0.Follows (State.routeAt s a2 a3) := by
  unfold State.routeAt
  try dsimp only
  repeat' first
    | with_reducible assumption
    | with_reducible refine follows_some (by assumption) (State.deliver_follows ?_ _)
    | with_reducible apply State.holdMsg_follows
    | with_reducible apply State.unroutable_follows
    | with_reducible apply State.place_follows
    | with_reducible apply State.cross_follows
    | with_reducible (simp only [follows_mk])
    | split
    | (intro _ _ _)

theorem State.route_follows {s0 s : State} (h : s0.Follows s) (a2) : s0.Follows (State.route s a2) := by
  unfold State.route
  try dsimp only
  repeat' first
    | with_reducible assumption
    | with_reducible apply State.routeAt_follows
    | with_reducible (simp only [follows_mk])
    | split
    | (intro _ _ _)

theorem State.onward_follows {s0 s : State} (h : s0.Follows s) (a2 a3) : s0.Follows (State.onward s a2 a3) := by
  unfold State.onward
  try dsimp only
  repeat' first
    | with_reducible assumption
    | with_reducible apply State.routeAt_follows
    | with_reducible (simp only [follows_mk])
    | split
    | (intro _ _ _)

theorem State.transit_follows {s0 s : State} (h : s0.Follows s) (a2 a3) : s0.Follows (State.transit s a2 a3) := by
  unfold State.transit
  try dsimp only
  repeat' first
    | with_reducible assumption
    | with_reducible apply State.countFab_follows
    | with_reducible apply State.unroutable_follows
    | with_reducible apply State.onward_follows
    | with_reducible (simp only [follows_mk])
    | split
    | (intro _ _ _)

theorem State.purge_follows {s0 s : State} (h : s0.Follows s) (a2) : s0.Follows (State.purge s a2).1 := by
  unfold State.purge
  try dsimp only
  repeat' first
    | with_reducible assumption
    | with_reducible apply State.modLink_follows
    | with_reducible apply State.routeAt_follows
    | with_reducible apply State.countFab_follows
    | with_reducible apply follows_foldl
    | with_reducible apply follows_foldl_fst
    | with_reducible (simp only [follows_mk])
    | split
    | (intro _ _ _)

theorem State.sendTo_follows {s0 s : State} (h : s0.Follows s) (a2 a3 a4 a5 a6 a7 a8 a9) : s0.Follows (State.sendTo s a2 a3 a4 a5 a6 a7 a8 a9) := by
  unfold State.sendTo
  try dsimp only
  repeat' first
    | with_reducible assumption
    | with_reducible apply State.onward_follows
    | with_reducible apply follows_foldl
    | with_reducible apply follows_foldl_fst
    | with_reducible (simp only [follows_mk])
    | split
    | (intro _ _ _)

theorem State.sendAll_follows {s0 s : State} (h : s0.Follows s) (a2 a3 a4 a5 a6 a7) : s0.Follows (State.sendAll s a2 a3 a4 a5 a6 a7) := by
  unfold State.sendAll
  repeat' first
    | with_reducible assumption
    | with_reducible apply State.sendTo_follows
    | with_reducible apply follows_foldl
    | (intro _ _ _)

theorem State.unmatch_follows {s0 s : State} (h : s0.Follows s) (a2 a3 a4 a5 a6 a7) : s0.Follows (State.unmatch s a2 a3 a4 a5 a6 a7) := by
  unfold State.unmatch
  repeat' first
    | with_reducible assumption
    | with_reducible apply State.retryPool_follows
    | with_reducible (simp only [follows_mk])

theorem State.linkChanged_follows {s0 s : State} (h : s0.Follows s) : s0.Follows (State.linkChanged s) := by
  unfold State.linkChanged
  repeat' first
    | with_reducible assumption
    | with_reducible apply State.oculusUpdate_follows

theorem State.linkDown_follows {s0 s : State} (h : s0.Follows s) (a2 a3) : s0.Follows (State.linkDown s a2 a3) := by
  unfold State.linkDown
  try dsimp only
  repeat' first
    | with_reducible assumption
    | with_reducible apply State.modLink_follows
    | with_reducible apply State.modBundle_follows
    | with_reducible apply State.linkChanged_follows
    | with_reducible apply State.report_follows
    | split

theorem State.retrain_follows {s0 s : State} (h : s0.Follows s) (a2) : s0.Follows (State.retrain s a2) := by
  unfold State.retrain
  repeat' first
    | with_reducible assumption
    | with_reducible apply State.modLink_follows
    | with_reducible apply State.modBundle_follows
    | with_reducible apply State.linkChanged_follows
    | split

theorem State.beginReplay_follows {s0 s : State} (h : s0.Follows s) (a2 a3) : s0.Follows (State.beginReplay s a2 a3) := by
  unfold State.beginReplay
  try dsimp only
  repeat' first
    | with_reducible assumption
    | with_reducible apply State.modLink_follows
    | with_reducible apply State.linkDown_follows
    | with_reducible apply State.retrain_follows
    | split

theorem State.violation_follows {s0 s : State} (h : s0.Follows s) (a2 a3) : s0.Follows (State.violation s a2 a3) := by
  unfold State.violation
  try dsimp only
  repeat' first
    | with_reducible assumption
    | with_reducible apply State.report_follows
    | with_reducible apply State.retrain_follows
    | with_reducible apply State.modLink_follows
    | with_reducible apply State.linkDown_follows
    | split

theorem State.takeCrossing_follows {s0 s : State} (h : s0.Follows s) (a2) : s0.Follows (State.takeCrossing s a2) := by
  unfold State.takeCrossing
  try dsimp only
  repeat' first
    | with_reducible assumption
    | with_reducible apply State.modLink_follows
    | with_reducible apply State.routeAt_follows
    | with_reducible (simp only [follows_mk])
    | split
    | (intro _ _ _)

theorem State.receiveFlit_follows {s0 s : State} (h : s0.Follows s) (a2 a3) : s0.Follows (State.receiveFlit s a2 a3) := by
  unfold State.receiveFlit
  try dsimp only
  repeat' first
    | with_reducible assumption
    | with_reducible apply State.modLink_follows
    | with_reducible apply State.violation_follows
    | with_reducible apply State.takeCrossing_follows
    | split

theorem State.freshStart_follows {s0 s : State} (h : s0.Follows s) (a2) : s0.Follows (State.freshStart s a2) := by
  unfold State.freshStart
  try dsimp only
  repeat' first
    | with_reducible assumption
    | with_reducible apply State.purge_follows
    | with_reducible apply State.modLink_follows
    | with_reducible apply State.report_follows
    | split

theorem State.linkUp_follows {s0 s : State} (h : s0.Follows s) (a2) : s0.Follows (State.linkUp s a2) := by
  unfold State.linkUp
  repeat' first
    | with_reducible assumption
    | with_reducible apply State.modLink_follows
    | with_reducible apply State.modBundle_follows
    | with_reducible apply State.linkChanged_follows
    | split

theorem State.hello_follows {s0 s : State} (h : s0.Follows s) (a2 a3 a4 a5) : s0.Follows (State.hello s a2 a3 a4 a5) := by
  unfold State.hello
  try dsimp only
  repeat' first
    | with_reducible assumption
    | with_reducible apply State.modLink_follows
    | with_reducible apply State.linkUp_follows
    | with_reducible apply State.freshStart_follows
    | with_reducible apply State.violation_follows
    | split

theorem State.settlePorts_follows {s0 s : State} (h : s0.Follows s) : s0.Follows (State.settlePorts s) := by
  unfold State.settlePorts
  repeat' first
    | with_reducible assumption
    | with_reducible apply State.reply_follows
    | with_reducible apply State.dropWaiter_follows
    | with_reducible apply follows_foldl
    | split
    | (intro _ _ _)

theorem State.endCommand_follows {s0 s : State} (h : s0.Follows s) (a2 a3) : s0.Follows (State.endCommand s a2 a3) := by
  unfold State.endCommand
  try dsimp only
  repeat' first
    | with_reducible assumption
    | with_reducible apply State.reply_follows
    | with_reducible (simp only [follows_mk])
    | split
    | (intro _ _ _)

theorem State.endWaiter_follows {s0 s : State} (h : s0.Follows s) (a2 a3) : s0.Follows (State.endWaiter s a2 a3) := by
  unfold State.endWaiter
  try dsimp only
  repeat' first
    | with_reducible assumption
    | with_reducible apply State.reply_follows
    | with_reducible apply State.endCommand_follows
    | with_reducible (simp only [follows_mk])
    | split
    | (intro _ _ _)

theorem State.linkEvent_follows {s0 s : State} (h : s0.Follows s) (a2 a3) : s0.Follows (State.linkEvent s a2 a3) := by
  unfold State.linkEvent
  repeat' first
    | with_reducible assumption
    | with_reducible apply State.atTime_follows
    | with_reducible apply State.modLink_follows

theorem State.moveEntry_follows {s0 s : State} (h : s0.Follows s) (a2 a3) : s0.Follows (State.moveEntry s a2 a3) := by
  unfold State.moveEntry
  repeat' first
    | with_reducible assumption
    | with_reducible apply State.takeFree_follows
    | with_reducible apply State.modLink_follows

theorem State.countDrop_follows {s0 s : State} (h : s0.Follows s) (a2 a3) : s0.Follows (State.countDrop s a2 a3) := by
  unfold State.countDrop
  repeat' first
    | with_reducible assumption
    | with_reducible apply State.modLan_follows
    | split

theorem State.settleRx_follows {s0 s : State} (h : s0.Follows s) (a2 a3 a4 a5) : s0.Follows (State.settleRx s a2 a3 a4 a5) := by
  unfold State.settleRx
  try dsimp only
  repeat' first
    | with_reducible assumption
    | with_reducible apply State.countDrop_follows
    | with_reducible apply State.modLPort_follows
    | split

theorem State.settleTx_follows {s0 s : State} (h : s0.Follows s) (a2 a3 a4 a5) : s0.Follows (State.settleTx s a2 a3 a4 a5) := by
  unfold State.settleTx
  try dsimp only
  repeat' first
    | with_reducible assumption
    | with_reducible apply State.modLPort_follows
    | with_reducible apply State.countDrop_follows
    | with_reducible apply State.oculusUpdate_follows
    | with_reducible (simp only [follows_mk])
    | split
    | (intro _ _ _)

theorem State.requestWidth_follows {s0 s : State} (h : s0.Follows s) (a2 a3 a4 a5) : s0.Follows (State.requestWidth s a2 a3 a4 a5) := by
  unfold State.requestWidth
  repeat' first
    | with_reducible assumption
    | with_reducible apply State.settleRx_follows
    | with_reducible apply State.modLink_follows
    | split

theorem State.receiveWords_follows {s0 s : State} (h : s0.Follows s) (a2 a3 a4 a5) : s0.Follows (State.receiveWords s a2 a3 a4 a5) := by
  unfold State.receiveWords
  repeat' first
    | with_reducible assumption
    | with_reducible apply State.modLink_follows
    | with_reducible apply State.modLan_follows
    | with_reducible apply State.modLPort_follows

theorem State.setLight_follows {s0 s : State} (h : s0.Follows s) (a2 a3 a4) : s0.Follows (State.setLight s a2 a3 a4) := by
  unfold State.setLight
  try dsimp only
  repeat' first
    | with_reducible assumption
    | with_reducible apply State.modLPort_follows
    | with_reducible apply State.modLan_follows
    | with_reducible (simp only [follows_mk])
    | split
    | (intro _ _ _)

theorem State.failLanternWaits_follows {s0 s : State} (h : s0.Follows s) (a2 a3) : s0.Follows (State.failLanternWaits s a2 a3) := by
  unfold State.failLanternWaits
  try dsimp only
  repeat' first
    | with_reducible assumption
    | with_reducible apply State.dropWaiter_follows
    | with_reducible apply State.reply_follows
    | with_reducible apply follows_foldl
    | with_reducible apply follows_foldl_fst
    | with_reducible (simp only [follows_mk])
    | split
    | (intro _ _ _)

theorem State.fenceLantern_follows {s0 s : State} (h : s0.Follows s) (a2 a3) : s0.Follows (State.fenceLantern s a2 a3) := by
  unfold State.fenceLantern
  repeat' first
    | with_reducible assumption
    | with_reducible apply State.modLan_follows
    | with_reducible apply State.modLink_follows
    | with_reducible apply State.setLight_follows
    | with_reducible apply State.purge_follows
    | with_reducible apply State.oculusUpdate_follows
    | with_reducible apply State.report_follows
    | with_reducible apply State.failLanternWaits_follows
    | with_reducible apply follows_foldl
    | with_reducible apply follows_foldl_fst
    | split
    | (intro _ _ _)

theorem State.switchTx_follows {s0 s : State} (h : s0.Follows s) (a2 a3) : s0.Follows (State.switchTx s a2 a3) := by
  unfold State.switchTx
  repeat' first
    | with_reducible assumption
    | with_reducible apply State.modLink_follows
    | with_reducible apply State.oculusUpdate_follows
    | with_reducible apply State.countDrop_follows
    | with_reducible apply State.modLPort_follows
    | split

theorem State.startWidth_follows {s0 s : State} (h : s0.Follows s) (a2 a3 a4 a5) : s0.Follows (State.startWidth s a2 a3 a4 a5) := by
  unfold State.startWidth
  repeat' first
    | with_reducible assumption
    | with_reducible apply State.settleTx_follows
    | with_reducible apply State.switchTx_follows
    | with_reducible apply State.setLink_follows
    | split

theorem State.eachPort_follows {s0 s : State} (h : s0.Follows s) (a2 a3 a4 a5) : s0.Follows (State.eachPort s a2 a3 a4 a5) := by
  unfold State.eachPort
  repeat' first
    | with_reducible assumption
    | with_reducible apply State.startWidth_follows
    | with_reducible apply follows_foldl
    | (intro _ _ _)

theorem State.dropWave_follows {s0 s : State} (h : s0.Follows s) (a2 a3) : s0.Follows (State.dropWave s a2 a3) := by
  unfold State.dropWave
  repeat' first
    | with_reducible assumption
    | with_reducible apply State.eachPort_follows

theorem State.retireWave_follows {s0 s : State} (h : s0.Follows s) (a2 a3) : s0.Follows (State.retireWave s a2 a3) := by
  unfold State.retireWave
  try dsimp only
  repeat' first
    | with_reducible assumption
    | with_reducible apply State.modLan_follows
    | with_reducible apply State.dropWave_follows
    | with_reducible apply State.report_follows
    | with_reducible apply State.oculusUpdate_follows
    | with_reducible apply State.fenceLantern_follows
    | split

theorem State.beginSwap_follows {s0 s : State} (h : s0.Follows s) (a2 a3 a4 a5 a6 a7) : ∀ x ∈ (State.beginSwap s a2 a3 a4 a5 a6 a7), s0.Follows x := by
  unfold State.beginSwap
  repeat' first
    | with_reducible assumption
    | with_reducible apply State.modLan_follows
    | with_reducible refine follows_in_some ?_
    | with_reducible refine follows_in_none
    | split

theorem State.replySwap_follows {s0 s : State} (h : s0.Follows s) (a2 a3 a4 a5) : s0.Follows (State.replySwap s a2 a3 a4 a5) := by
  unfold State.replySwap
  repeat' first
    | with_reducible assumption
    | with_reducible apply State.reply_follows
    | with_reducible apply State.dropWaiter_follows
    | with_reducible apply follows_foldl
    | split
    | (intro _ _ _)

theorem State.noSpare_follows {s0 s : State} (h : s0.Follows s) (a2 a3 a4 a5) : s0.Follows (State.noSpare s a2 a3 a4 a5) := by
  unfold State.noSpare
  try dsimp only
  repeat' first
    | with_reducible assumption
    | with_reducible apply State.replySwap_follows
    | with_reducible apply State.retireWave_follows
    | with_reducible apply State.eachPort_follows
    | split

theorem State.swapNext_follows {s0 : State} (a2 : Nat) : ∀ (q : List (Nat × Bool)) {s : State}, s0.Follows s →
    s0.Follows (State.swapNext s a2 q)
  | [], _, h => h
  | (k, forced) :: r, s, h => by
    rw [State.swapNext]
    dsimp only
    have hm := State.modLan_follows h a2 fun x => { x with swapQ := r }
    split
    · next e => exact follows_some e (State.beginSwap_follows hm _ _ _ _ _ _)
    · split
      · exact State.noSpare_follows hm _ _ _ _
      · exact State.swapNext_follows a2 r (State.noSpare_follows hm _ _ _ _)

theorem State.nextSwap_follows {s0 s : State} (h : s0.Follows s) (a2) : s0.Follows (State.nextSwap s a2) :=
  State.swapNext_follows a2 _ h

theorem State.finishSwap_follows {s0 s : State} (h : s0.Follows s) (a2) : s0.Follows (State.finishSwap s a2) := by
  unfold State.finishSwap
  repeat' first
    | with_reducible assumption
    | with_reducible apply State.modLan_follows
    | with_reducible apply State.report_follows
    | with_reducible apply State.oculusUpdate_follows
    | with_reducible apply State.nextSwap_follows
    | with_reducible apply State.replySwap_follows
    | split

theorem State.switchSpare_follows {s0 s : State} (h : s0.Follows s) (a2 a3) : s0.Follows (State.switchSpare s a2 a3) := by
  unfold State.switchSpare
  repeat' first
    | with_reducible assumption
    | with_reducible apply State.eachPort_follows
    | with_reducible apply State.modLan_follows
    | with_reducible apply State.finishSwap_follows
    | split

theorem State.runSwap_follows {s0 s : State} (h : s0.Follows s) (a2) : s0.Follows (State.runSwap s a2) := by
  unfold State.runSwap
  try dsimp only
  repeat' first
    | with_reducible assumption
    | with_reducible apply State.modLan_follows
    | with_reducible apply State.dropWave_follows
    | with_reducible apply State.switchSpare_follows
    | split

theorem State.releaseSwap_follows {s0 s : State} (h : s0.Follows s) (a2) : s0.Follows (State.releaseSwap s a2) := by
  unfold State.releaseSwap
  repeat' first
    | with_reducible assumption
    | with_reducible apply State.runSwap_follows
    | split

theorem State.endGap_follows {s0 s : State} (h : s0.Follows s) (a2) : s0.Follows (State.endGap s a2) := by
  unfold State.endGap
  repeat' first
    | with_reducible assumption
    | with_reducible apply State.modLan_follows
    | with_reducible apply State.oculusUpdate_follows

theorem State.portSettled_follows {s0 s : State} (h : s0.Follows s) (a2 a3 a4) : s0.Follows (State.portSettled s a2 a3 a4) := by
  unfold State.portSettled
  try dsimp only
  repeat' first
    | with_reducible assumption
    | with_reducible apply State.endGap_follows
    | with_reducible apply State.modLan_follows
    | with_reducible apply State.finishSwap_follows
    | split

theorem State.reAdded_follows {s0 s : State} (h : s0.Follows s) (a2 a3 a4) : s0.Follows (State.reAdded s a2 a3 a4) := by
  unfold State.reAdded
  try dsimp only
  repeat' first
    | with_reducible assumption
    | with_reducible apply State.modLPort_follows
    | with_reducible apply State.report_follows
    | with_reducible (simp only [follows_mk])
    | split
    | (intro _ _ _)

theorem State.takeTx_follows {s0 s : State} (h : s0.Follows s) (a2 a3) : s0.Follows (State.takeTx s a2 a3) := by
  unfold State.takeTx
  try dsimp only
  repeat' first
    | with_reducible assumption
    | with_reducible apply State.switchTx_follows
    | with_reducible apply State.reAdded_follows
    | with_reducible apply State.portSettled_follows
    | with_reducible (simp only [follows_mk])
    | split
    | (intro _ _ _)

theorem State.startGap_follows {s0 s : State} (h : s0.Follows s) (a2) : s0.Follows (State.startGap s a2) := by
  unfold State.startGap
  try dsimp only
  repeat' first
    | with_reducible assumption
    | with_reducible apply State.eachPort_follows
    | with_reducible apply State.modLan_follows
    | with_reducible apply State.switchSpare_follows
    | with_reducible apply State.endGap_follows
    | split
    | (intro _ _ _)

theorem State.dueGap_follows {s0 s : State} (h : s0.Follows s) (a2) : s0.Follows (State.dueGap s a2) := by
  unfold State.dueGap
  try dsimp only
  repeat' first
    | with_reducible assumption
    | with_reducible apply State.startGap_follows
    | with_reducible apply State.oculusUpdate_follows
    | with_reducible (simp only [follows_mk])
    | split
    | (intro _ _ _)

theorem State.dropPort_follows {s0 s : State} (h : s0.Follows s) (a2 a3 a4 a5) : s0.Follows (State.dropPort s a2 a3 a4 a5) := by
  unfold State.dropPort
  try dsimp only
  repeat' first
    | with_reducible assumption
    | with_reducible apply State.linkDown_follows
    | with_reducible apply State.setLight_follows
    | with_reducible apply State.endGap_follows
    | with_reducible apply State.portSettled_follows
    | split

theorem State.dropAll_follows {s0 s : State} (h : s0.Follows s) (a2 a3 a4) : s0.Follows (State.dropAll s a2 a3 a4) := by
  unfold State.dropAll
  repeat' first
    | with_reducible assumption
    | with_reducible apply State.dropPort_follows
    | with_reducible apply follows_foldl
    | (intro _ _ _)

theorem State.testShutters_follows {s0 s : State} (h : s0.Follows s) (a2 a3) : s0.Follows (State.testShutters s a2 a3) := by
  unfold State.testShutters
  try dsimp only
  repeat' first
    | with_reducible assumption
    | with_reducible apply State.report_follows
    | with_reducible apply State.fenceLantern_follows
    | with_reducible (simp only [follows_mk])
    | split
    | (intro _ _ _)

theorem State.relight_follows {s0 s : State} (h : s0.Follows s) (a2) : s0.Follows (State.relight s a2) := by
  unfold State.relight
  repeat' first
    | with_reducible assumption
    | with_reducible apply State.setLight_follows
    | with_reducible apply follows_foldl
    | split
    | (intro _ _ _)

theorem State.resumeSwap_follows {s0 s : State} (h : s0.Follows s) (a2) : s0.Follows (State.resumeSwap s a2) := by
  unfold State.resumeSwap
  repeat' first
    | with_reducible assumption
    | with_reducible apply State.switchSpare_follows
    | split

theorem State.replyDrain_follows {s0 s : State} (h : s0.Follows s) (a2 a3 a4) : s0.Follows (State.replyDrain s a2 a3 a4) := by
  unfold State.replyDrain
  repeat' first
    | with_reducible assumption
    | with_reducible apply State.reply_follows
    | with_reducible apply State.dropWaiter_follows
    | with_reducible apply follows_foldl
    | split
    | (intro _ _ _)

theorem State.startDrain_follows {s0 s : State} (h : s0.Follows s) (a2) : s0.Follows (State.startDrain s a2) := by
  unfold State.startDrain
  try dsimp only
  repeat' first
    | with_reducible assumption
    | with_reducible apply State.modLan_follows
    | with_reducible apply State.setLight_follows
    | with_reducible apply State.oculusUpdate_follows
    | with_reducible apply follows_foldl
    | with_reducible apply follows_foldl_fst
    | with_reducible (simp only [follows_mk])
    | split
    | (intro _ _ _)

theorem State.completeDrain_follows {s0 s : State} (h : s0.Follows s) (a2) : s0.Follows (State.completeDrain s a2) := by
  unfold State.completeDrain
  repeat' first
    | with_reducible assumption
    | with_reducible apply State.dropAll_follows
    | with_reducible apply State.oculusUpdate_follows
    | with_reducible apply State.modLan_follows
    | with_reducible apply State.replyDrain_follows

theorem State.startRestore_follows {s0 s : State} (h : s0.Follows s) (a2) : s0.Follows (State.startRestore s a2) := by
  unfold State.startRestore
  repeat' first
    | with_reducible assumption
    | with_reducible apply State.relight_follows
    | with_reducible apply State.modLan_follows

theorem State.settleRestore_follows {s0 s : State} (h : s0.Follows s) (a2) : s0.Follows (State.settleRestore s a2) := by
  unfold State.settleRestore
  try dsimp only
  repeat' first
    | with_reducible assumption
    | with_reducible apply State.modLan_follows
    | with_reducible apply State.oculusUpdate_follows
    | with_reducible apply State.replyDrain_follows
    | with_reducible apply State.dueGap_follows
    | with_reducible (simp only [follows_mk])
    | split
    | (intro _ _ _)

theorem State.commitDomain_follows {s0 s : State} (h : s0.Follows s) (a2) : s0.Follows (State.commitDomain s a2) := by
  unfold State.commitDomain
  repeat' first
    | with_reducible assumption
    | with_reducible apply State.modDom_follows

theorem State.setLinks_follows {s0 : State} : ∀ (ks : List Nat) (s : State) (_ : s0.Follows s) (v : List Nat),
    s0.Follows (s.setLinks ks v) := by
  intro ks
  induction ks with
  | nil => intro s h v; exact h
  | cons k ks ih =>
    intro s h v
    unfold State.setLinks
    split
    · exact ih _ (State.modLink_follows (State.modBundle_follows h _ _) _ _) _
    · exact ih _ (State.modLink_follows h _ _) _

theorem State.setCfg_follows {s0 s : State} (h : s0.Follows s) (a2 a3) : s0.Follows (State.setCfg s a2 a3) := by
  unfold State.setCfg
  repeat' first
    | with_reducible assumption
    | with_reducible apply State.setLinks_follows
    | with_reducible apply State.gateFar_follows
    | with_reducible (refine follows_modHbm ?_ _ _ (fun _ hx => hx))
    | with_reducible apply State.modArr_follows
    | with_reducible apply State.modLan_follows
    | split

theorem State.openDomain_follows {s0 s : State} (h : s0.Follows s) (a2) : s0.Follows (State.openDomain s a2) := by
  unfold State.openDomain
  repeat' first
    | with_reducible assumption
    | with_reducible apply State.modDom_follows
    | with_reducible apply State.setCfg_follows
    | with_reducible (simp only [follows_mk])
    | split

theorem State.restoreDomain_follows {s0 s : State} (h : s0.Follows s) (a2) : s0.Follows (State.restoreDomain s a2) := by
  unfold State.restoreDomain
  repeat' first
    | with_reducible assumption
    | with_reducible apply State.setCfg_follows
    | with_reducible apply State.commitDomain_follows
    | with_reducible (simp only [follows_mk])
    | split

theorem State.galleryCommit_follows {s0 s : State} (h : s0.Follows s) (a2 a3) (h3 : ∀ x0, s0.Follows x0 → s0.Follows (a3 x0)) : s0.Follows (State.galleryCommit s a2 a3) := by
  unfold State.galleryCommit
  repeat' first
    | with_reducible assumption
    | with_reducible apply State.commitDomain_follows
    | with_reducible apply h3
    | split

theorem State.goard_follows {s0 s : State} (h : s0.Follows s) (a2 a3) : s0.Follows (State.goard s a2 a3) := by
  unfold State.goard
  repeat' first
    | with_reducible assumption
    | with_reducible apply State.modPart_follows

theorem State.answerUnsupported_follows {s0 s : State} (h : s0.Follows s) : s0.Follows (State.answerUnsupported s) := by
  unfold State.answerUnsupported
  repeat' first
    | with_reducible assumption
    | with_reducible (simp only [follows_mk])

theorem State.answerBytes_follows {s0 s : State} (h : s0.Follows s) (a2 a3) : s0.Follows (State.answerBytes s a2 a3) := by
  unfold State.answerBytes
  repeat' first
    | with_reducible assumption
    | with_reducible (simp only [follows_mk])

theorem State.barRead_follows {s0 s : State} (h : s0.Follows s) (a2 a3 a4) : s0.Follows (State.barRead s a2 a3 a4) := by
  unfold State.barRead
  try dsimp only
  repeat' first
    | with_reducible assumption
    | with_reducible apply State.answerUnsupported_follows
    | with_reducible apply State.goard_follows
    | with_reducible apply State.answerBytes_follows
    | with_reducible apply State.settlePart_follows
    | split

theorem State.barWrite_follows {s0 s : State} (h : s0.Follows s) (a2 a3 a4) : s0.Follows (State.barWrite s a2 a3 a4) := by
  unfold State.barWrite
  try dsimp only
  repeat' first
    | with_reducible assumption
    | with_reducible apply State.goard_follows
    | with_reducible apply State.partWrite_follows
    | split

theorem State.holdBar_follows {s0 s : State} (h : s0.Follows s) (a2) : s0.Follows (State.holdBar s a2) := by
  unfold State.holdBar
  repeat' first
    | with_reducible assumption
    | with_reducible (simp only [follows_mk])

theorem State.releaseBar_follows {s0 s : State} (h : s0.Follows s) : s0.Follows (State.releaseBar s) := by
  unfold State.releaseBar
  repeat' first
    | with_reducible assumption
    | with_reducible apply State.holdBar_follows
    | with_reducible apply State.barRead_follows
    | with_reducible apply State.barWrite_follows
    | with_reducible apply follows_foldl
    | with_reducible (simp only [follows_mk])
    | split
    | (intro _ _ _)

theorem State.cfgRequest_follows {s0 s : State} (h : s0.Follows s) (a2 a3) (h3 : ∀ x0, s0.Follows x0 → s0.Follows (a3 x0)) : s0.Follows (State.cfgRequest s a2 a3) := by
  unfold State.cfgRequest
  repeat' first
    | with_reducible assumption
    | with_reducible apply h3
    | with_reducible (simp only [follows_mk])
    | split

theorem State.spend_follows {s0 s : State} (h : s0.Follows s) (a2) : s0.Follows (State.spend s a2) := by
  unfold State.spend
  repeat' first
    | with_reducible assumption
    | with_reducible apply State.spendGroups_follows
    | split

theorem State.bankSlot_follows {s0 s : State} (h : s0.Follows s) (a2 a3) : s0.Follows (State.bankSlot s a2 a3) := by
  unfold State.bankSlot
  try dsimp only
  repeat' first
    | with_reducible assumption
    | with_reducible apply State.modSlot_follows
    | with_reducible (simp only [follows_mk])
    | split
    | (intro _ _ _)

theorem State.giveUp_follows {s0 s : State} (h : s0.Follows s) (a2) : s0.Follows (State.giveUp s a2).1 := by
  unfold State.giveUp
  try dsimp only
  repeat' first
    | with_reducible assumption
    | with_reducible apply State.bankSlot_follows
    | with_reducible apply follows_foldl
    | with_reducible apply follows_foldl_fst
    | with_reducible (simp only [follows_mk])
    | split
    | (intro _ _ _)

theorem State.abandonRun_follows {s0 s : State} (h : s0.Follows s) (a2 a3) : s0.Follows (State.abandonRun s a2 a3) := by
  unfold State.abandonRun
  try dsimp only
  repeat' first
    | with_reducible assumption
    | with_reducible apply State.spend_follows
    | with_reducible apply State.giveUp_follows
    | with_reducible apply State.endRun_follows
    | with_reducible (simp only [follows_mk])
    | split
    | (intro _ _ _)

theorem State.endSteps_follows {s0 s : State} (h : s0.Follows s) (a2 a3 a4) : s0.Follows (State.endSteps s a2 a3 a4) := by
  unfold State.endSteps
  repeat' first
    | with_reducible assumption
    | with_reducible apply State.dropStep_follows
    | with_reducible apply follows_foldl
    | (intro _ _ _)

theorem State.loseSlots_follows {s0 s : State} (h : s0.Follows s) : s0.Follows (State.loseSlots s) := by
  unfold State.loseSlots
  try dsimp only
  repeat' first
    | with_reducible assumption
    | with_reducible apply State.modSlot_follows
    | with_reducible apply State.endSteps_follows
    | with_reducible apply follows_foldl
    | split
    | (intro _ _ _)

theorem State.loseWork_follows {s0 s : State} (h : s0.Follows s) : s0.Follows (State.loseWork s) := by
  unfold State.loseWork
  repeat' first
    | with_reducible assumption
    | with_reducible apply State.abandonRun_follows
    | with_reducible apply State.loseSlots_follows
    | split

theorem State.freshLink_follows {s0 s : State} (h : s0.Follows s) (a2 a3) : s0.Follows (State.freshLink s a2 a3) := by
  unfold State.freshLink
  try dsimp only
  repeat' first
    | with_reducible assumption
    | with_reducible apply State.setLink_follows
    | with_reducible apply State.countFab_follows
    | with_reducible (simp only [follows_mk])
    | split
    | (intro _ _ _)

theorem State.holdLantern_follows {s0 s : State} (h : s0.Follows s) (a2 a3) : s0.Follows (State.holdLantern s a2 a3) := by
  unfold State.holdLantern
  repeat' first
    | with_reducible assumption
    | with_reducible apply State.openDomain_follows
    | with_reducible apply State.dropAll_follows
    | with_reducible apply State.modLan_follows

theorem State.failHalfWaits_follows {s0 s : State} (h : s0.Follows s) : s0.Follows (State.failHalfWaits s) := by
  unfold State.failHalfWaits
  repeat' first
    | with_reducible assumption
    | with_reducible apply State.reply_follows
    | with_reducible apply State.dropWaiter_follows
    | with_reducible apply follows_foldl
    | split
    | (intro _ _ _)

theorem State.loseHalf_follows {s0 s : State} (h : s0.Follows s) (a2 a3) : s0.Follows (State.loseHalf s a2 a3) := by
  unfold State.loseHalf
  try dsimp only
  repeat' first
    | with_reducible assumption
    | with_reducible apply State.loseWork_follows
    | with_reducible apply State.clearFar_follows
    | with_reducible apply State.modArr_follows
    | with_reducible apply State.openDomain_follows
    | with_reducible apply State.freshLink_follows
    | with_reducible apply State.holdLantern_follows
    | with_reducible apply State.modBundle_follows
    | with_reducible apply State.failHalfWaits_follows
    | with_reducible apply State.oculusUpdate_follows
    | with_reducible apply State.report_follows
    | with_reducible apply State.releaseBar_follows
    | with_reducible apply follows_foldl
    | with_reducible apply follows_foldl_fst
    | with_reducible (simp only [follows_mk])
    | split
    | (intro _ _ _)

theorem State.abruptHalf_follows {s0 s : State} (h : s0.Follows s) (a2 a3) : s0.Follows (State.abruptHalf s a2 a3) := by
  unfold State.abruptHalf
  try dsimp only
  repeat' first
    | with_reducible assumption
    | with_reducible apply State.loseWork_follows
    | with_reducible apply State.clearFar_follows
    | with_reducible apply State.modArr_follows
    | with_reducible apply State.openDomain_follows
    | with_reducible apply State.freshLink_follows
    | with_reducible apply State.holdLantern_follows
    | with_reducible apply State.modBundle_follows
    | with_reducible apply State.oculusUpdate_follows
    | with_reducible apply State.report_follows
    | with_reducible apply follows_foldl
    | with_reducible apply follows_foldl_fst
    | with_reducible (simp only [follows_mk])
    | split
    | (intro _ _ _)

theorem State.assertHalf_follows {s0 s : State} (h : s0.Follows s) (a2) : s0.Follows (State.assertHalf s a2) := by
  unfold State.assertHalf
  repeat' first
    | with_reducible assumption
    | with_reducible apply State.openDomain_follows
    | with_reducible apply State.modArr_follows
    | with_reducible apply State.clearFar_follows
    | with_reducible (refine follows_modHbm ?_ _ _ (fun _ hx => hx))
    | with_reducible apply State.holdLantern_follows
    | with_reducible apply State.linkDown_follows
    | with_reducible apply State.oculusUpdate_follows
    | with_reducible apply follows_foldl
    | split
    | (intro _ _ _)

theorem State.orderlyHalf_follows {s0 s : State} (h : s0.Follows s) (a2 a3) : s0.Follows (State.orderlyHalf s a2 a3) := by
  unfold State.orderlyHalf
  try dsimp only
  repeat' first
    | with_reducible assumption
    | with_reducible apply State.setRun_follows
    | with_reducible apply State.modArr_follows
    | with_reducible apply State.oculusUpdate_follows
    | with_reducible apply State.assertHalf_follows
    | with_reducible (simp only [follows_mk])
    | split
    | (intro _ _ _)

theorem State.settleOrderly_follows {s0 s : State} (h : s0.Follows s) : s0.Follows (State.settleOrderly s) := by
  unfold State.settleOrderly
  repeat' first
    | with_reducible assumption
    | with_reducible apply State.assertHalf_follows
    | with_reducible apply follows_foldl
    | split
    | (intro _ _ _)

theorem State.settleBundles_follows {s0 s : State} (h : s0.Follows s) (a2) : s0.Follows (State.settleBundles s a2) := by
  unfold State.settleBundles
  try dsimp only
  repeat' first
    | with_reducible assumption
    | with_reducible apply State.loseHalf_follows
    | split

theorem State.fenceBundle_follows {s0 s : State} (h : s0.Follows s) (a2 a3) : s0.Follows (State.fenceBundle s a2 a3) := by
  unfold State.fenceBundle
  repeat' first
    | with_reducible assumption
    | with_reducible apply State.modBundle_follows
    | with_reducible apply State.modLink_follows
    | with_reducible apply State.settleBundles_follows
    | with_reducible apply State.report_follows
    | with_reducible apply State.oculusUpdate_follows
    | split

theorem State.poisonHalf_follows {s0 s : State} (h : s0.Follows s) (a2) : s0.Follows (State.poisonHalf s a2) := by
  unfold State.poisonHalf
  dsimp only
  refine ⟨h.queue, h.time, h.svn, h.terminated, h.production, fun o => ?_⟩
  have k := h.ok o
  refine ⟨?_, k.west, k.east, k.hmem, k.power⟩
  have e := k.mem
  have u : twf FrameUse.free (s.hbm.get a2).use = true := by
    cases a2
    · exact k.west
    · exact k.east
  rw [Memory.wf_iff] at e ⊢
  refine ⟨twf_filter 0 _ e.1, twf_filter false _ e.2.1, twf_tinsertAll false _ (twf_filter false _ e.2.2.1) ?_,
    twf_filter 0 _ e.2.2.2.1, twf_filter false _ e.2.2.2.2.1, e.2.2.2.2.2⟩
  rw [twf_iff] at u ⊢
  constructor
  · rw [List.pairwise_map]
    refine (u.1.sublist List.filter_sublist).imp (fun ab => ?_)
    simp only [dpaFrame]; omega
  · intro x hx
    obtain ⟨_, _, rfl⟩ := List.mem_map.1 hx
    exact Bool.noConfusion

theorem State.failCommands_follows {s0 s : State} (h : s0.Follows s) : s0.Follows (State.failCommands s) := by
  unfold State.failCommands
  try dsimp only
  repeat' first
    | with_reducible assumption
    | with_reducible apply State.abandonRun_follows
    | with_reducible apply State.endComing_follows
    | with_reducible apply State.loseSlots_follows
    | with_reducible apply State.reply_follows
    | with_reducible apply State.modEng_follows
    | with_reducible apply State.endWaiter_follows
    | with_reducible apply State.endCommand_follows
    | with_reducible apply follows_foldl
    | with_reducible apply follows_foldl_fst
    | with_reducible (simp only [follows_mk])
    | split
    | (intro _ _ _)

theorem State.safeState_follows {s0 s : State} (h : s0.Follows s) (a2) : s0.Follows (State.safeState s a2) := by
  unfold State.safeState
  split
  · exact h
  · dsimp only
    refine State.oculusUpdate_follows (State.clearFar_follows (State.poisonHalf_follows (State.poisonHalf_follows ?_ _) _))
    refine follows_power ?_ rfl rfl rfl rfl rfl (Nat.le_refl 3)
    refine follows_foldl _ _ (fun s b h => State.modArr_follows h _ _) _ ?_
    refine follows_modHbm ?_ _ _ (fun _ hx => hx)
    refine follows_modHbm ?_ _ _ (fun _ hx => hx)
    refine follows_foldl _ _ (fun s b h => State.dropAll_follows h _ _ _) _ (State.failCommands_follows ?_)
    simp only [follows_mk]
    exact h

theorem State.trainBundle_follows {s0 s : State} (h : s0.Follows s) (a2 a3) : s0.Follows (State.trainBundle s a2 a3) := by
  unfold State.trainBundle
  try dsimp only
  repeat' first
    | with_reducible assumption
    | with_reducible apply State.modBundle_follows
    | with_reducible apply State.fenceBundle_follows
    | with_reducible apply State.oculusUpdate_follows
    | with_reducible apply State.modLink_follows
    | split

theorem State.laneChanged_follows {s0 s : State} (h : s0.Follows s) (a2 a3 a4 a5) : s0.Follows (State.laneChanged s a2 a3 a4 a5) := by
  unfold State.laneChanged
  repeat' first
    | with_reducible assumption
    | with_reducible apply State.oculusUpdate_follows
    | with_reducible apply State.modBundle_follows
    | with_reducible apply State.report_follows
    | split

theorem State.changeLane_follows {s0 s : State} (h : s0.Follows s) (a2 a3) : s0.Follows (State.changeLane s a2 a3) := by
  unfold State.changeLane
  try dsimp only
  repeat' first
    | with_reducible assumption
    | with_reducible apply State.requestWidth_follows
    | with_reducible apply State.laneChanged_follows
    | with_reducible apply State.fenceBundle_follows
    | with_reducible apply State.modBundle_follows
    | split

theorem State.declareLane_follows {s0 s : State} (h : s0.Follows s) (a2 a3) : s0.Follows (State.declareLane s a2 a3) := by
  unfold State.declareLane
  try dsimp only
  repeat' first
    | with_reducible assumption
    | with_reducible apply State.oculusUpdate_follows
    | with_reducible apply State.modBundle_follows
    | with_reducible apply State.report_follows
    | with_reducible apply State.changeLane_follows
    | split

theorem State.declareAll_follows {s0 s : State} (h : s0.Follows s) (a2 a3) : s0.Follows (State.declareAll s a2 a3) := by
  unfold State.declareAll
  try dsimp only
  repeat' first
    | with_reducible assumption
    | with_reducible apply State.declareLane_follows
    | with_reducible apply follows_foldl
    | with_reducible apply follows_foldl_fst
    | with_reducible (simp only [follows_mk])
    | split
    | (intro _ _ _)

theorem State.warmBundle_follows {s0 s : State} (h : s0.Follows s) (a2 a3 a4) : s0.Follows (State.warmBundle s a2 a3 a4) := by
  unfold State.warmBundle
  try dsimp only
  repeat' first
    | with_reducible assumption
    | with_reducible apply State.trainBundle_follows
    | with_reducible apply State.modBundle_follows
    | with_reducible apply State.modLink_follows
    | with_reducible apply State.declareAll_follows
    | with_reducible (simp only [follows_mk])
    | split
    | (intro _ _ _)

theorem State.receiveBlocks_follows {s0 s : State} (h : s0.Follows s) (a2 a3 a4) : s0.Follows (State.receiveBlocks s a2 a3 a4) := by
  unfold State.receiveBlocks
  repeat' first
    | with_reducible assumption
    | with_reducible apply State.modLink_follows
    | with_reducible apply State.modBundle_follows

theorem State.settleLanes_follows {s0 s : State} (h : s0.Follows s) (a2) : s0.Follows (State.settleLanes s a2) := by
  unfold State.settleLanes
  repeat' first
    | with_reducible assumption
    | with_reducible apply State.modBundle_follows
    | with_reducible apply State.changeLane_follows
    | with_reducible apply follows_foldl
    | split
    | (intro _ _ _)

theorem State.settleWidths_follows {s0 s : State} (h : s0.Follows s) (a2) : s0.Follows (State.settleWidths s a2) := by
  unfold State.settleWidths
  try dsimp only
  repeat' first
    | with_reducible assumption
    | with_reducible apply State.settleLanes_follows
    | with_reducible apply State.modLink_follows
    | with_reducible apply State.modBundle_follows
    | with_reducible apply State.settleRx_follows
    | with_reducible apply State.settleTx_follows
    | with_reducible apply State.laneChanged_follows
    | with_reducible apply State.changeLane_follows
    | with_reducible apply follows_foldl
    | split
    | (intro _ _ _)

theorem State.checkLanes_follows {s0 s : State} (h : s0.Follows s) (a2) : s0.Follows (State.checkLanes s a2) := by
  unfold State.checkLanes
  try dsimp only
  repeat' first
    | with_reducible assumption
    | with_reducible apply State.modBundle_follows
    | with_reducible apply State.declareAll_follows
    | with_reducible (simp only [follows_mk])
    | split
    | (intro _ _ _)

theorem State.forceWave_follows {s0 s : State} (h : s0.Follows s) (a2 a3) : s0.Follows (State.forceWave s a2 a3) := by
  unfold State.forceWave
  try dsimp only
  repeat' first
    | with_reducible assumption
    | with_reducible apply State.runSwap_follows
    | with_reducible apply State.modLan_follows
    | with_reducible apply State.dropWave_follows
    | with_reducible refine follows_some (by assumption) (State.beginSwap_follows ?_ _ _ _ _ _ _)
    | with_reducible apply State.retireWave_follows
    | split

theorem State.warnSwap_follows {s0 s : State} (h : s0.Follows s) (a2 a3) : s0.Follows (State.warnSwap s a2 a3) := by
  unfold State.warnSwap
  try dsimp only
  repeat' first
    | with_reducible assumption
    | with_reducible apply State.modLan_follows
    | with_reducible refine follows_getD (State.beginSwap_follows ?_ _ _ _ _ _ _) ?_
    | split

theorem State.lambdaLost_follows {s0 s : State} (h : s0.Follows s) (a2 a3 a4) : s0.Follows (State.lambdaLost s a2 a3 a4) := by
  unfold State.lambdaLost
  repeat' first
    | with_reducible assumption
    | with_reducible apply State.requestWidth_follows
    | with_reducible apply State.modLPort_follows

theorem State.sendReady_follows {s0 s : State} (h : s0.Follows s) (a2 a3 a4) : s0.Follows (State.sendReady s a2 a3 a4) := by
  unfold State.sendReady
  repeat' first
    | with_reducible assumption
    | with_reducible apply State.modLPort_follows
    | with_reducible apply State.setLight_follows

theorem State.backOff_follows {s0 s : State} (h : s0.Follows s) (a2 a3) : s0.Follows (State.backOff s a2 a3) := by
  unfold State.backOff
  repeat' first
    | with_reducible assumption
    | with_reducible apply State.modLPort_follows
    | with_reducible apply State.setLight_follows

theorem State.baseLanes_follows {s0 s : State} (h : s0.Follows s) (a2 a3 a4) : s0.Follows (State.baseLanes s a2 a3 a4) := by
  unfold State.baseLanes
  try dsimp only
  repeat' first
    | with_reducible assumption
    | with_reducible apply follows_foldl
    | with_reducible apply follows_foldl_fst
    | with_reducible (simp only [follows_mk])
    | split
    | (intro _ _ _)

theorem State.resetLantern_follows {s0 s : State} (h : s0.Follows s) (a2) : s0.Follows (State.resetLantern s a2) := by
  unfold State.resetLantern
  try dsimp only
  repeat' first
    | with_reducible assumption
    | with_reducible apply State.holdLantern_follows
    | with_reducible apply State.oculusUpdate_follows
    | with_reducible apply State.modLan_follows
    | with_reducible apply State.fenceLantern_follows
    | split

theorem State.lanternBack_follows {s0 s : State} (h : s0.Follows s) (a2 a3 a4) : s0.Follows (State.lanternBack s a2 a3 a4) := by
  unfold State.lanternBack
  try dsimp only
  repeat' first
    | with_reducible assumption
    | with_reducible apply State.modLan_follows
    | with_reducible apply State.restoreDomain_follows
    | with_reducible apply State.oculusUpdate_follows
    | with_reducible apply State.report_follows
    | with_reducible apply State.testShutters_follows
    | with_reducible apply State.fenceLantern_follows
    | with_reducible apply State.relight_follows
    | with_reducible apply follows_foldl
    | with_reducible apply follows_foldl_fst
    | with_reducible (simp only [follows_mk])
    | split
    | (intro _ _ _)

end Sys2Proof.Machine
end

