-- ==== Sys2Proof/Laws/KeepEngine.lean ====
section
/-! SUPPORT. One lemma per operation of the arrays, the engine, power, queues, acceptance and commands over memory and sequences:
the state it answers follows the state it was given, as `State.Follows` says. -/

set_option Elab.async false

namespace Sys2Proof.Machine

theorem State.failColumn_follows {s0 s : State} (h : s0.Follows s) (a2 a3 a4 a5) : s0.Follows (State.failColumn s a2 a3 a4 a5) := by
  unfold State.failColumn
  try dsimp only
  repeat' first
    | with_reducible assumption
    | with_reducible apply State.modArr_follows
    | with_reducible apply State.loseHalf_follows
    | with_reducible apply State.oculusUpdate_follows
    | with_reducible apply State.report_follows
    | split

theorem State.countRetry_follows {s0 s : State} (h : s0.Follows s) (a2 a3) : s0.Follows (State.countRetry s a2 a3) := by
  unfold State.countRetry
  repeat' first
    | with_reducible assumption
    | with_reducible apply State.modArr_follows

theorem State.countFreeRetry_follows {s0 s : State} (h : s0.Follows s) (a2) : s0.Follows (State.countFreeRetry s a2) := by
  unfold State.countFreeRetry
  repeat' first
    | with_reducible assumption
    | with_reducible apply State.takeFree_follows
    | with_reducible apply State.countRetry_follows

theorem State.markInexact_follows {s0 s : State} (h : s0.Follows s) (a2 a3) : s0.Follows (State.markInexact s a2 a3) := by
  unfold State.markInexact
  repeat' first
    | with_reducible assumption
    | with_reducible apply State.takeFree_follows
    | with_reducible apply State.setRun_follows
    | split

theorem State.dropEarly_follows {s0 s : State} (h : s0.Follows s) : s0.Follows (State.dropEarly s) := by
  unfold State.dropEarly
  try dsimp only
  repeat' first
    | with_reducible assumption
    | with_reducible apply State.takeFree_follows
    | with_reducible apply State.modArr_follows
    | with_reducible apply follows_foldl
    | with_reducible apply follows_foldl_fst
    | with_reducible (simp only [follows_mk])
    | split
    | (intro _ _ _)

theorem State.failSlab_follows {s0 s : State} (h : s0.Follows s) (a2 a3 a4 a5) : s0.Follows (State.failSlab s a2 a3 a4 a5) := by
  unfold State.failSlab
  repeat' first
    | with_reducible assumption
    | with_reducible apply State.failColumn_follows
    | with_reducible apply State.countFreeRetry_follows
    | with_reducible apply State.markInexact_follows

theorem State.retryFences_follows {s0 s : State} (h : s0.Follows s) (a2) : s0.Follows (State.retryFences s a2) := by
  unfold State.retryFences
  repeat' first
    | with_reducible assumption
    | with_reducible apply State.fencePc_follows
    | with_reducible apply follows_foldl
    | (intro _ _ _)

theorem State.refuseDraft_follows {s0 s : State} (h : s0.Follows s) (a2 a3 a4 a5) : s0.Follows (State.refuseDraft s a2 a3 a4 a5) := by
  unfold State.refuseDraft
  repeat' first
    | with_reducible assumption
    | with_reducible apply State.trace_follows
    | with_reducible apply State.modSlot_follows
    | with_reducible apply State.finishRun_follows
    | with_reducible apply follows_foldl
    | split
    | (intro _ _ _)

theorem State.stopOp_follows {s0 s : State} (h : s0.Follows s) (a2 a3 a4 a5) : s0.Follows (State.stopOp s a2 a3 a4 a5) := by
  unfold State.stopOp
  repeat' first
    | with_reducible assumption
    | with_reducible apply State.refuseDraft_follows
    | with_reducible apply State.refuseOp_follows
    | split

theorem State.fetch_follows {s0 s : State} (h : s0.Follows s) (a2 a3) : s0.Follows (State.fetch s a2 a3) := by
  unfold State.fetch
  try dsimp only
  repeat' first
    | with_reducible assumption
    | with_reducible apply State.settlePart_follows
    | with_reducible apply State.settleReads_follows
    | with_reducible apply State.settleKv_follows
    | with_reducible apply follows_foldl
    | split
    | (intro _ _ _)

theorem State.freshCopies_follows {s0 s : State} (h : s0.Follows s) (a2 a3) : s0.Follows (State.freshCopies s a2 a3) := by
  refine follows_foldl _ _ (fun s b h => follows_setMem h (fun e => ?_)) _ h
  rw [Memory.wf_iff] at e ⊢
  exact ⟨e.1, twf_tclear false _ _ e.2.1, e.2.2.1, twf_tclear 0 _ _ e.2.2.2.1, twf_tclear false _ _ e.2.2.2.2.1, e.2.2.2.2.2⟩

theorem State.fetchDesc_follows {s0 s : State} (h : s0.Follows s) (a2) : s0.Follows (State.fetchDesc s a2).1 := by
  unfold State.fetchDesc
  split
  · exact h
  · dsimp only
    split
    · exact State.settle_follows h _
    · split
      · exact State.settle_follows h _
      · exact State.report_follows (follows_setMem (State.settle_follows h _)
          (foldl_wf _ (fun m _ k => writeInWord_wf m _ _ _ k) _ _)) _ _ _ _

/-- Taking the front operation up keeps `Follows`, whether or not the operation goes on. -/
theorem State.enter_follows {s0 s : State} (h : s0.Follows s) (k : Nat) (us : List Upset) :
    (∀ x, s.enter k us = .error x → s0.Follows x) ∧ ∀ x, s.enter k us = .ok x → s0.Follows x.1 := by
  have er {x : State} (h : s0.Follows x) : (∀ y, (Except.error x : Except State (State × Run × OpList × Desc × Option GroupSnap)) = .error y → s0.Follows y) ∧
      ∀ y, (Except.error x : Except State (State × Run × OpList × Desc × Option GroupSnap)) = .ok y → s0.Follows y.1 :=
    ⟨fun y e => by cases e; exact h, fun y e => by cases e⟩
  unfold State.enter
  cases s.turn k with
  | none => exact er h
  | some x =>
    obtain ⟨r, l, d⟩ := x
    dsimp only
    have h : s0.Follows ((s.strike us).fetchDesc r).1 := State.fetchDesc_follows (State.strike_follows h us) r
    generalize (s.strike us).fetchDesc r = q at h ⊢
    have f : s0.Follows (q.1.fetch r d) := State.fetch_follows h _ _
    by_cases c : q.1.eng.hold = true
    · rw [if_pos c]; exact er h
    rw [if_neg c]
    by_cases c : (!q.2) = true
    · rw [if_pos c]; exact er (State.stopOp_follows h _ _ _ _)
    rw [if_neg c]
    cases q.1.opGroup r d with
    | error st => exact er (State.stopOp_follows h _ _ _ _)
    | ok g =>
      dsimp only
      cases q.1.rangeRefusal r.part d (d.rowsOf r.rows) with
      | some st => exact er (State.stopOp_follows h _ _ _ _)
      | none =>
        dsimp only
        by_cases c : q.1.outsideScratch r d = true
        · rw [if_pos c]; exact er (State.stopOp_follows h _ _ _ _)
        rw [if_neg c]
        by_cases c : (k != kGather && k != kXsend && (q.1.fetch r d).readsPoison r.part d (d.rowsOf r.rows)) = true
        · rw [if_pos c]; exact er (State.stopOp_follows f _ _ _ _)
        · rw [if_neg c]; exact And.intro (fun y e => by cases e) (fun y e => by
            with_reducible obtain rfl := Except.ok.inj e
            exact State.farOp_follows f _ _)

theorem State.startOp_follows {s0 s : State} (h : s0.Follows s) (a2 a3 a4 a5 a6) : s0.Follows (State.startOp s a2 a3 a4 a5 a6) := by
  unfold State.startOp
  repeat' first
    | with_reducible assumption
    | with_reducible apply State.report_follows
    | with_reducible apply State.setRun_follows
    | with_reducible apply follows_foldl
    | (intro _ _ _)

theorem State.perform_follows {s0 s : State} (h : s0.Follows s) (a2 a3 a4 a5) : s0.Follows (State.perform s a2 a3 a4 a5) := by
  unfold State.perform
  repeat' first
    | with_reducible assumption
    | with_reducible apply State.stopOp_follows
    | with_reducible apply State.startOp_follows
    | split

theorem State.runOp_follows {s0 s : State} (h : s0.Follows s) (a2 a3 a4 a5) : ∀ x, (State.runOp s a2 a3 a4 a5) = .next x → s0.Follows x := by
  intro x hx
  unfold State.runOp at hx
  try dsimp only at hx
  repeat' first
    | (with_reducible obtain rfl := Host.Outcome.next.inj hx)
    | split at hx
  all_goals repeat' first
    | with_reducible assumption
    | with_reducible apply State.atTime_follows
    | with_reducible refine follows_error (by assumption) (State.enter_follows ?_ _ _)
    | with_reducible refine follows_ok (by assumption) (State.enter_follows ?_ _ _)
    | with_reducible apply State.perform_follows

theorem State.endWide_follows {s0 s : State} (h : s0.Follows s) (a2 a3) : s0.Follows (State.endWide s a2 a3) := by
  unfold State.endWide
  repeat' first
    | with_reducible assumption
    | with_reducible apply State.unmatch_follows
    | with_reducible apply follows_foldl
    | with_reducible (simp only [follows_mk])
    | (intro _ _ _)

theorem State.sendWide_follows {s0 s : State} (h : s0.Follows s) (a2 a3 a4 a5 a6) : s0.Follows (State.sendWide s a2 a3 a4 a5 a6).1 := by
  unfold State.sendWide
  repeat' first
    | with_reducible assumption
    | with_reducible apply State.sendAll_follows
    | split

theorem State.groupOp_follows {s0 s : State} (h : s0.Follows s) (a2 a3 a4 a5 a6 a7 a8 a9 a10) : s0.Follows (State.groupOp s a2 a3 a4 a5 a6 a7 a8 a9 a10) := by
  unfold State.groupOp
  try dsimp only
  repeat' first
    | with_reducible assumption
    | with_reducible apply State.retryPool_follows
    | with_reducible apply State.perform_follows
    | with_reducible apply State.sendWide_follows
    | with_reducible apply State.stopOp_follows
    | with_reducible apply State.endWide_follows
    | with_reducible apply State.setRun_follows
    | with_reducible apply State.startOp_follows
    | split

theorem State.noteTent_follows {s0 s : State} (h : s0.Follows s) (a2 a3) : s0.Follows (State.noteTent s a2 a3) := by
  unfold State.noteTent
  repeat' first
    | with_reducible assumption
    | with_reducible apply State.modSlot_follows
    | with_reducible apply follows_foldl
    | split
    | (intro _ _ _)

theorem State.tryFence_follows {s0 s : State} (h : s0.Follows s) (a2 a3 a4 a5) : s0.Follows (State.tryFence s a2 a3 a4 a5) := by
  unfold State.tryFence
  repeat' first
    | with_reducible assumption
    | with_reducible apply State.endWide_follows
    | with_reducible apply State.setRun_follows
    | with_reducible apply State.stopOp_follows
    | with_reducible apply State.startOp_follows
    | split

theorem State.commitMember_follows {s0 s : State} (h : s0.Follows s) (a2 a3 a4) : s0.Follows (State.commitMember s a2 a3 a4).1 := by
  unfold State.commitMember
  repeat' first
    | with_reducible assumption
    | with_reducible apply State.modSlot_follows
    | with_reducible apply State.hostWrite_follows
    | with_reducible apply State.keepReport_follows
    | with_reducible apply State.reply_follows
    | split

theorem State.nextIteration_follows {s0 s : State} (h : s0.Follows s) (a2 a3) : s0.Follows (State.nextIteration s a2 a3) := by
  unfold State.nextIteration
  repeat' first
    | with_reducible assumption
    | with_reducible apply State.finishRun_follows
    | with_reducible apply State.setRun_follows
    | split

theorem State.endPass_follows {s0 s : State} (h : s0.Follows s) (a2 a3) : s0.Follows (State.endPass s a2 a3) := by
  unfold State.endPass
  repeat' first
    | with_reducible assumption
    | with_reducible apply State.modSlot_follows
    | with_reducible apply State.nextIteration_follows
    | with_reducible apply State.setRun_follows
    | with_reducible apply follows_foldl
    | split
    | (intro _ _ _)

theorem State.endTarget_follows {s0 s : State} (h : s0.Follows s) (a2 a3) : s0.Follows (State.endTarget s a2 a3) := by
  unfold State.endTarget
  repeat' first
    | with_reducible assumption
    | with_reducible apply State.nextIteration_follows
    | with_reducible apply State.finishRun_follows
    | split

theorem State.advance_follows {s0 s : State} (h : s0.Follows s) (a2 a3) : s0.Follows (State.advance s a2 a3) := by
  unfold State.advance
  repeat' first
    | with_reducible assumption
    | with_reducible apply State.setRun_follows
    | with_reducible apply State.endPass_follows
    | with_reducible apply State.endTarget_follows
    | split

theorem State.closeOp_follows {s0 s : State} (h : s0.Follows s) (a2 a3 a4) : s0.Follows (State.closeOp s a2 a3 a4) := by
  have pz (l : List Nat) (p : Fin 4) : ∀ s : State, s0.Follows s → s0.Follows (l.foldl (fun s a => match s.dpaOf p a with
      | some x => { s with mem := poisonWord s.mem (x / 8) }
      | none => s) s) := by
    refine follows_foldl _ _ (fun s a h => ?_)
    split
    · exact follows_setMem h (poisonWord_wf _ _)
    · exact h
  unfold State.closeOp
  extract_lets d w takes s1 s2
  have h1 : s0.Follows s1 := by
    dsimp only [s1]
    split
    · exact follows_foldl _ _ (fun s b h => State.modArr_follows h _ _) _ h
    · exact h
  have h2 : s0.Follows s2 := pz _ _ _ h1
  clear_value s1 s2
  repeat' first
    | with_reducible assumption
    | with_reducible apply State.bankSlot_follows
    | with_reducible apply State.advance_follows
    | with_reducible apply State.endRun_follows
    | with_reducible apply State.modSlot_follows
    | with_reducible apply State.modArr_follows
    | with_reducible refine follows_fst (by assumption) (State.trace_follows ?_ _ _ _ _ _ _ _ _ _ _)
    | with_reducible apply State.trace_follows
    | with_reducible apply follows_foldl
    | split
    | (intro _ _ _)

theorem State.startList_follows {s0 s : State} (h : s0.Follows s) (a2) : s0.Follows (State.startList s a2) := by
  unfold State.startList
  try dsimp only
  repeat' first
    | with_reducible assumption
    | with_reducible apply State.settleGroups_follows
    | with_reducible apply State.bindGroup_follows
    | with_reducible apply State.modEng_follows
    | with_reducible apply State.begin_follows
    | with_reducible apply State.advance_follows
    | with_reducible apply State.wake_follows
    | with_reducible apply follows_foldl
    | split
    | (intro _ _ _)

theorem State.modPwr_follows {s0 s : State} (h : s0.Follows s) (f : Power → Power) (hf : s.pwr.st ≤ 3 → (f s.pwr).st ≤ 3) :
    s0.Follows (s.modPwr f) :=
  follows_setPwr h hf

theorem State.modThm_follows {s0 s : State} (h : s0.Follows s) (a2) : s0.Follows (State.modThm s a2) := by
  unfold State.modThm
  repeat' first
    | with_reducible assumption
    | with_reducible (simp only [follows_mk])

theorem State.sampleRails_follows {s0 s : State} (h : s0.Follows s) (a2 a3 a4) : s0.Follows (State.sampleRails s a2 a3 a4) := by
  unfold State.sampleRails
  try dsimp only
  repeat' first
    | with_reducible assumption
    | with_reducible apply State.modRail_follows
    | with_reducible apply follows_foldl
    | with_reducible apply follows_foldl_fst
    | with_reducible (simp only [follows_mk])
    | split
    | (intro _ _ _)

theorem State.suspendSlots_follows {s0 s : State} (h : s0.Follows s) : s0.Follows (State.suspendSlots s).1 := by
  unfold State.suspendSlots
  repeat' first
    | with_reducible assumption
    | with_reducible apply State.dropStep_follows
    | with_reducible apply State.endSteps_follows
    | with_reducible apply State.modSlot_follows
    | with_reducible apply follows_foldl
    | with_reducible apply follows_foldl_fst
    | with_reducible (simp only [follows_mk])
    | split
    | (intro _ _ _)

theorem State.noTargets_follows {s0 s : State} (h : s0.Follows s) : s0.Follows (State.noTargets s) := by
  unfold State.noTargets
  repeat' first
    | with_reducible assumption
    | with_reducible apply State.modArr_follows
    | with_reducible apply follows_foldl
    | (intro _ _ _)

theorem State.enterP2_follows {s0 s : State} (h : s0.Follows s) : s0.Follows (State.enterP2 s).1 := by
  unfold State.enterP2
  repeat' first
    | with_reducible assumption
    | with_reducible apply State.suspendSlots_follows
    | with_reducible apply State.noTargets_follows
    | with_reducible apply State.clearFar_follows
    | with_reducible (refine follows_modHbm ?_ _ _ (fun _ hx => hx))
    | with_reducible apply State.dropPort_follows
    | with_reducible apply State.modBundle_follows
    | with_reducible apply State.oculusUpdate_follows
    | with_reducible (refine State.modPwr_follows ?_ _ (fun _ => by dsimp only; decide))
    | with_reducible apply follows_foldl
    | split
    | (intro _ _ _)

theorem State.enterP3_follows {s0 s : State} (h : s0.Follows s) : s0.Follows (State.enterP3 s) := by
  unfold State.enterP3
  repeat' first
    | with_reducible assumption
    | with_reducible apply State.oculusUpdate_follows
    | with_reducible (refine State.modPwr_follows ?_ _ (fun _ => by dsimp only; decide))
    | with_reducible apply State.openDomain_follows
    | with_reducible apply State.dropAll_follows
    | with_reducible apply follows_foldl
    | (intro _ _ _)

theorem State.leaveP3_follows {s0 s : State} (h : s0.Follows s) : s0.Follows (State.leaveP3 s) := by
  unfold State.leaveP3
  repeat' first
    | with_reducible assumption
    | with_reducible apply State.relight_follows
    | with_reducible apply State.restoreDomain_follows
    | with_reducible (refine State.modPwr_follows ?_ _ (fun _ => by dsimp only; decide))
    | with_reducible apply follows_foldl
    | split
    | (intro _ _ _)

theorem State.resume_follows {s0 s : State} (h : s0.Follows s) : s0.Follows (State.resume s) := by
  unfold State.resume
  repeat' first
    | with_reducible assumption
    | with_reducible (refine follows_modHbm ?_ _ _ (fun _ hx => hx))
    | with_reducible apply State.modSlot_follows
    | with_reducible (refine State.modPwr_follows ?_ _ (fun _ => by dsimp only; decide))
    | with_reducible apply follows_foldl
    | split
    | (intro _ _ _)

theorem State.enterP1_follows {s0 s : State} (h : s0.Follows s) : s0.Follows (State.enterP1 s) := by
  unfold State.enterP1
  repeat' first
    | with_reducible assumption
    | with_reducible (refine State.modPwr_follows ?_ _ (fun _ => by dsimp only; decide))
    | with_reducible apply State.noTargets_follows

theorem State.replyPower_follows {s0 s : State} (h : s0.Follows s) (a2 a3 a4) : s0.Follows (State.replyPower s a2 a3 a4) := by
  unfold State.replyPower
  repeat' first
    | with_reducible assumption
    | with_reducible (refine State.modPwr_follows ?_ _ (fun hx => hx))
    | with_reducible apply State.reply_follows
    | with_reducible apply State.dropWaiter_follows
    | with_reducible apply follows_foldl
    | split
    | (intro _ _ _)

theorem State.descend_follows {s0 s : State} (h : s0.Follows s) (a2) : s0.Follows (State.descend s a2).1 := by
  unfold State.descend
  try dsimp only
  repeat' first
    | with_reducible assumption
    | with_reducible apply State.enterP2_follows
    | with_reducible apply State.enterP3_follows
    | with_reducible apply State.leaveP3_follows
    | split

theorem State.requestPower_follows {s0 s : State} (h : s0.Follows s) (a2) : s0.Follows (State.requestPower s a2).1 := by
  have up (s : State) (h : s0.Follows s) : s0.Follows (if s.pwr.st = 3 then s.leaveP3 else s).resume := by
    refine State.resume_follows ?_
    split
    · exact State.leaveP3_follows h
    · exact h
  unfold State.requestPower
  extract_lets st up' s1 s2
  split
  · exact h
  split
  · exact h
  · split
    · with_reducible refine State.modPwr_follows ?_ _ (fun hx => hx)
      exact up s h
    · have h1 : s0.Follows s1 := by
        dsimp only [s1]
        split
        · exact State.modPwr_follows h _ (fun hx => hx)
        · exact h
      clear_value s1
      have h2 : s0.Follows s2 := by
        dsimp only [s2]
        split
        · exact up s1 h1
        · exact h1
      clear_value s2
      split
      · exact h1
      · split
        · dsimp only
          split
          · exact State.wake_follows h1
          · exact up s1 h1
        · split
          · split
            · exact State.enterP1_follows h2
            · dsimp only
              refine State.modPwr_follows h2 _ ?_
              exact fun hx => hx
          · split
            · dsimp only
              refine State.modPwr_follows h1 _ ?_
              exact fun hx => hx
            · exact State.descend_follows h1 _

theorem State.replyCap_follows {s0 s : State} (h : s0.Follows s) : s0.Follows (State.replyCap s) := by
  unfold State.replyCap
  repeat' first
    | with_reducible assumption
    | with_reducible apply State.reply_follows
    | with_reducible apply State.dropWaiter_follows
    | with_reducible apply follows_foldl
    | split
    | (intro _ _ _)

theorem State.tighten_follows {s0 s : State} (h : s0.Follows s) : s0.Follows (State.tighten s) := by
  unfold State.tighten
  try dsimp only
  repeat' first
    | with_reducible assumption
    | with_reducible apply State.takeFree_follows
    | with_reducible (refine State.modPwr_follows ?_ _ (fun hx => hx))
    | with_reducible apply State.report_follows
    | split

theorem State.loosen_follows {s0 s : State} (h : s0.Follows s) : s0.Follows (State.loosen s) := by
  unfold State.loosen
  extract_lets s1 x f
  have h1 : s0.Follows s1 := by
    dsimp only [s1]
    exact State.modPwr_follows h _ (fun hx => by split <;> exact hx)
  clear_value s1
  have h2 : s0.Follows f.2 := State.takeFree_follows h1
  repeat' first
    | with_reducible assumption
    | (with_reducible refine State.modPwr_follows ?_ _ (fun hx => hx))
    | split

theorem State.setCap_follows {s0 s : State} (h : s0.Follows s) (a2) : s0.Follows (State.setCap s a2).1 := by
  unfold State.setCap
  repeat' first
    | with_reducible assumption
    | with_reducible (refine State.modPwr_follows ?_ _ (fun hx => hx))

theorem State.noteCool_follows {s0 s : State} (h : s0.Follows s) : s0.Follows (State.noteCool s) := by
  unfold State.noteCool
  repeat' first
    | with_reducible assumption
    | with_reducible (refine State.modPwr_follows ?_ _ (fun hx => hx))

theorem State.noteThrottle_follows {s0 s : State} (h : s0.Follows s) : s0.Follows (State.noteThrottle s) := by
  unfold State.noteThrottle
  repeat' first
    | with_reducible assumption
    | with_reducible apply State.modThm_follows

theorem State.completeOp_follows {s0 s : State} (h : s0.Follows s) : s0.Follows (State.completeOp s) := by
  unfold State.completeOp
  repeat' first
    | with_reducible assumption
    | with_reducible apply State.writeTile_follows
    | with_reducible apply State.closeOp_follows
    | with_reducible apply follows_foldl
    | split
    | (intro _ _ _)

theorem State.appendRecord_follows {s0 s : State} (h : s0.Follows s) (a2) : s0.Follows (State.appendRecord s a2) := by
  unfold State.appendRecord
  try dsimp only
  repeat' first
    | with_reducible assumption
    | with_reducible apply State.modBundle_follows
    | with_reducible apply follows_foldl
    | with_reducible apply follows_foldl_fst
    | with_reducible (simp only [follows_mk])
    | split
    | (intro _ _ _)

theorem State.orderlyStop_follows {s0 s : State} (h : s0.Follows s) (a2) : s0.Follows (State.orderlyStop s a2) := by
  unfold State.orderlyStop
  repeat' first
    | with_reducible assumption
    | with_reducible apply State.modThm_follows
    | with_reducible (refine State.modPwr_follows ?_ _ (fun hx => hx))
    | with_reducible apply State.report_follows
    | with_reducible apply State.takeFree_follows
    | with_reducible apply State.completeOp_follows
    | with_reducible apply State.abandonRun_follows
    | with_reducible apply State.descend_follows
    | with_reducible apply State.replyPower_follows
    | with_reducible apply State.oculusUpdate_follows
    | with_reducible apply State.appendRecord_follows
    | split

theorem State.tripOff_follows {s0 s : State} (h : s0.Follows s) (a2) : s0.Follows (State.tripOff s a2) := by
  unfold State.tripOff
  repeat' first
    | with_reducible assumption
    | with_reducible apply State.modDie_follows
    | with_reducible apply State.modLan_follows
    | with_reducible apply State.safeState_follows
    | with_reducible apply follows_foldl
    | (intro _ _ _)

theorem State.hardTrip_follows {s0 s : State} (h : s0.Follows s) (a2 a3) : s0.Follows (State.hardTrip s a2 a3) := by
  unfold State.hardTrip
  repeat' first
    | with_reducible assumption
    | with_reducible apply State.tripOff_follows
    | with_reducible apply State.report_follows
    | split

theorem State.checkSensors_follows {s0 s : State} (h : s0.Follows s) (a2) : s0.Follows (State.checkSensors s a2) := by
  unfold State.checkSensors
  try dsimp only
  repeat' first
    | with_reducible assumption
    | with_reducible apply State.modDie_follows
    | with_reducible apply State.oculusUpdate_follows
    | with_reducible apply State.report_follows
    | with_reducible apply follows_foldl
    | split
    | (intro _ _ _)

theorem State.checkRise_follows {s0 s : State} (h : s0.Follows s) (a2) : s0.Follows (State.checkRise s a2) := by
  unfold State.checkRise
  try dsimp only
  repeat' first
    | with_reducible assumption
    | with_reducible apply State.modDie_follows
    | with_reducible (refine State.modPwr_follows ?_ _ (fun hx => hx))
    | with_reducible apply State.report_follows
    | with_reducible apply State.modThm_follows
    | split

theorem State.checkCore_follows {s0 s : State} (h : s0.Follows s) (a2) : s0.Follows (State.checkCore s a2) := by
  unfold State.checkCore
  try dsimp only
  repeat' first
    | with_reducible assumption
    | with_reducible apply State.modDie_follows
    | with_reducible apply State.report_follows
    | with_reducible apply State.checkRise_follows
    | with_reducible apply State.hardTrip_follows
    | with_reducible apply State.orderlyStop_follows
    | with_reducible (simp only [follows_mk])
    | split
    | (intro _ _ _)

theorem State.checkLantern_follows {s0 s : State} (h : s0.Follows s) (a2) : s0.Follows (State.checkLantern s a2) := by
  unfold State.checkLantern
  try dsimp only
  repeat' first
    | with_reducible assumption
    | with_reducible apply State.modDie_follows
    | with_reducible apply State.modLan_follows
    | with_reducible apply State.dropAll_follows
    | with_reducible apply State.oculusUpdate_follows
    | with_reducible apply State.report_follows
    | with_reducible apply State.dropPort_follows
    | with_reducible apply follows_foldl
    | with_reducible apply follows_foldl_fst
    | with_reducible (simp only [follows_mk])
    | split
    | (intro _ _ _)

theorem State.planLane_follows {s0 s : State} (h : s0.Follows s) (a2 a3) : s0.Follows (State.planLane s a2 a3) := by
  unfold State.planLane
  try dsimp only
  repeat' first
    | with_reducible assumption
    | with_reducible apply State.changeLane_follows
    | with_reducible apply State.modBundle_follows
    | split

theorem State.lowerCeiling_follows {s0 s : State} (h : s0.Follows s) (a2 a3) : s0.Follows (State.lowerCeiling s a2 a3) := by
  unfold State.lowerCeiling
  repeat' first
    | with_reducible assumption
    | with_reducible apply State.modLan_follows
    | with_reducible apply State.warnSwap_follows
    | with_reducible apply State.report_follows
    | with_reducible (simp only [follows_mk])
    | split

theorem State.replan_follows {s0 s : State} (h : s0.Follows s) : s0.Follows (State.replan s) := by
  unfold State.replan
  try dsimp only
  repeat' first
    | with_reducible assumption
    | with_reducible apply State.planLane_follows
    | with_reducible apply State.lowerCeiling_follows
    | with_reducible apply follows_foldl
    | with_reducible apply follows_foldl_fst
    | with_reducible (simp only [follows_mk])
    | split
    | (intro _ _ _)

theorem State.recordSentinels_follows {s0 s : State} (h : s0.Follows s) (a2 a3) : s0.Follows (State.recordSentinels s a2 a3) := by
  unfold State.recordSentinels
  repeat' first
    | with_reducible assumption
    | with_reducible (simp only [follows_mk])

theorem State.badValue_follows {s0 s : State} (h : s0.Follows s) (a2) : s0.Follows (State.badValue s a2) := by
  unfold State.badValue
  repeat' first
    | with_reducible assumption
    | with_reducible apply State.modDom_follows

theorem State.writeTail_follows {s0 s : State} (h : s0.Follows s) (a2 a3 a4) : s0.Follows (State.writeTail s a2 a3 a4) := by
  unfold State.writeTail
  try dsimp only
  repeat' first
    | with_reducible assumption
    | with_reducible apply State.badValue_follows
    | with_reducible apply State.modQp_follows
    | split

theorem State.writeHead_follows {s0 s : State} (h : s0.Follows s) (a2 a3 a4) : s0.Follows (State.writeHead s a2 a3 a4) := by
  unfold State.writeHead
  try dsimp only
  repeat' first
    | with_reducible assumption
    | with_reducible apply State.badValue_follows
    | with_reducible apply State.modQp_follows
    | with_reducible apply State.msi_follows
    | split

theorem State.writeQCtrl_follows {s0 s : State} (h : s0.Follows s) (a2 a3 a4) : s0.Follows (State.writeQCtrl s a2 a3 a4) := by
  unfold State.writeQCtrl
  try dsimp only
  repeat' first
    | with_reducible assumption
    | with_reducible apply State.modQp_follows
    | with_reducible apply State.badValue_follows
    | split

theorem State.refuse_follows {s0 s : State} (h : s0.Follows s) (a2 a3) : s0.Follows (State.refuse s a2 a3) := by
  unfold State.refuse
  repeat' first
    | with_reducible assumption
    | with_reducible apply State.modPart_follows
    | with_reducible apply State.reply_follows
    | split

theorem State.accept_follows {s0 s : State} (h : s0.Follows s) (a2) : s0.Follows (State.accept s a2) := by
  unfold State.accept
  try dsimp only
  repeat' first
    | with_reducible assumption
    | with_reducible apply State.refuse_follows
    | with_reducible apply State.modPart_follows
    | with_reducible apply State.modSlot_follows
    | with_reducible (simp only [follows_mk])
    | split
    | (intro _ _ _)

theorem State.fetch1_follows {s0 s : State} (h : s0.Follows s) (a2 a3) : s0.Follows (State.fetch1 s a2 a3) := by
  unfold State.fetch1
  repeat' first
    | with_reducible assumption
    | with_reducible apply State.modQp_follows
    | with_reducible apply State.reply_follows
    | with_reducible apply State.accept_follows
    | with_reducible (simp only [follows_mk])
    | split

theorem State.take_follows {s0 s : State} (h : s0.Follows s) (a2 a3) : ∀ x ∈ (State.take s a2 a3), s0.Follows x.2 := by
  unfold State.take
  repeat' first
    | with_reducible assumption
    | with_reducible refine follows_in_some_snd ?_
    | with_reducible refine follows_in_none_snd
    | with_reducible (simp only [follows_mk])
    | split

theorem State.act_follows {s0 s : State} (h : s0.Follows s) (a2 a3 a4 a5) (h5 : ∀ x0 x1, s0.Follows x1 → s0.Follows (a5 x0 x1)) : ∀ x, (State.act s a2 a3 a4 a5) = .next x → s0.Follows x := by
  intro x hx
  unfold State.act at hx
  try dsimp only at hx
  repeat' first
    | (with_reducible obtain rfl := Host.Outcome.next.inj hx)
    | split at hx
  all_goals repeat' first
    | with_reducible assumption
    | with_reducible apply State.atTime_follows
    | with_reducible refine follows_some_snd (by assumption) (State.take_follows ?_ _ _)
    | with_reducible apply State.endCommand_follows
    | with_reducible apply h5

theorem State.actOn_follows {s0 s : State} (h : s0.Follows s) (a2 a3 a4 a5) (h5 : ∀ x0 x1, s0.Follows x1 → s0.Follows (a5 x0 x1)) : ∀ x, (State.actOn s a2 a3 a4 a5) = .next x → s0.Follows x := by
  intro x hx
  unfold State.actOn at hx
  try dsimp only at hx
  repeat' first
    | (with_reducible obtain rfl := Host.Outcome.next.inj hx)
    | split at hx
  all_goals repeat' first
    | with_reducible assumption
    | with_reducible apply State.atTime_follows
    | with_reducible refine follows_some_snd (by assumption) (State.take_follows ?_ _ _)
    | with_reducible apply h5

theorem State.dma_follows {s0 s : State} (h : s0.Follows s) (a2 a3 a4) : s0.Follows (State.dma s a2 a3 a4) := by
  unfold State.dma
  repeat' first
    | with_reducible assumption
    | with_reducible apply State.hostWrite_follows
    | split

theorem State.memAlloc_follows {s0 s : State} (h : s0.Follows s) (a2) : s0.Follows (State.memAlloc s a2) := by
  unfold State.memAlloc
  try dsimp only
  repeat' first
    | with_reducible assumption
    | with_reducible apply State.reply_follows
    | with_reducible apply State.wait_follows
    | with_reducible apply State.mapFrames_follows
    | split

theorem State.poisonAt_follows {s0 s : State} (h : s0.Follows s) (a2 a3 a4) : s0.Follows (State.poisonAt s a2 a3 a4) := by
  refine follows_foldl _ _ (fun s q h => ?_) _ h
  split
  · exact follows_setMem h (poisonWord_wf _ _)
  · exact h

theorem State.put_follows {s0 s : State} (h : s0.Follows s) (a2 a3 a4 a5) : s0.Follows (State.put s a2 a3 a4 a5) := by
  unfold State.put
  repeat' first
    | with_reducible assumption
    | with_reducible apply State.dma_follows
    | with_reducible apply State.partWrite_follows
    | split

theorem State.memCopy_follows {s0 s : State} (h : s0.Follows s) (a2) : s0.Follows (State.memCopy s a2) := by
  unfold State.memCopy
  try dsimp only
  repeat' first
    | with_reducible assumption
    | with_reducible apply State.reply_follows
    | with_reducible apply State.wait_follows
    | with_reducible apply State.put_follows
    | with_reducible apply State.settlePart_follows
    | with_reducible apply State.poisonAt_follows
    | split

theorem State.memFill_follows {s0 s : State} (h : s0.Follows s) (a2) : s0.Follows (State.memFill s a2) := by
  unfold State.memFill
  try dsimp only
  repeat' first
    | with_reducible assumption
    | with_reducible apply State.reply_follows
    | with_reducible apply State.dma_follows
    | with_reducible apply State.wait_follows
    | with_reducible apply State.partWrite_follows
    | split

theorem State.openSlot_follows {s0 s : State} (h : s0.Follows s) (a2 a3 a4) : s0.Follows (State.openSlot s a2 a3 a4) := by
  unfold State.openSlot
  repeat' first
    | with_reducible assumption
    | with_reducible apply State.modSlot_follows
    | with_reducible apply State.takeKv_follows
    | with_reducible apply State.reply_follows

theorem State.tryOpen_follows {s0 s : State} (h : s0.Follows s) (a2 a3) : s0.Follows (State.tryOpen s a2 a3) := by
  unfold State.tryOpen
  try dsimp only
  repeat' first
    | with_reducible assumption
    | with_reducible apply State.reply_follows
    | with_reducible apply State.wait_follows
    | with_reducible apply State.openSlot_follows
    | split

theorem State.saveSlot_follows {s0 s : State} (h : s0.Follows s) (a2) : s0.Follows (State.saveSlot s a2) := by
  unfold State.saveSlot
  try dsimp only
  repeat' first
    | with_reducible assumption
    | with_reducible apply State.reply_follows
    | with_reducible apply State.wait_follows
    | with_reducible apply State.settleKv_follows
    | with_reducible apply State.partWrite_follows
    | with_reducible apply follows_foldl
    | with_reducible apply follows_foldl_fst
    | with_reducible (simp only [follows_mk])
    | split
    | (intro _ _ _)

theorem State.loadParts_follows {s0 : State} (i : Nat) : ∀ (l : List (Half × Nat × Nat)) (s : State) (_ : s0.Follows s)
    (bs : List Byte), s0.Follows (s.loadParts i l bs) := by
  intro l
  induction l with
  | nil => intro s h bs; exact h
  | cons x l ih =>
    intro s h bs
    exact ih _ (State.kvWrite_follows h _ _ _ _) _

theorem State.firstPoison_follows {s0 s : State} (h : s0.Follows s) (a2 a3 a4) : s0.Follows (State.firstPoison s a2 a3 a4).1 := by
  unfold State.firstPoison
  repeat' first
    | with_reducible assumption
    | with_reducible apply State.settlePart_follows

theorem State.restore_follows {s0 s : State} (h : s0.Follows s) (a2) : s0.Follows (State.restore s a2) := by
  unfold State.restore
  try dsimp only
  repeat' first
    | with_reducible assumption
    | with_reducible apply State.reply_follows
    | with_reducible apply State.wait_follows
    | with_reducible refine follows_fst (by assumption) (State.firstPoison_follows ?_ _ _ _)
    | with_reducible apply State.tryOpen_follows
    | with_reducible apply State.loadParts_follows
    | split

theorem State.shrinkRun_follows {s0 s : State} (h : s0.Follows s) (a2) : s0.Follows (State.shrinkRun s a2) := by
  unfold State.shrinkRun
  try dsimp only
  repeat' first
    | with_reducible assumption
    | with_reducible apply State.abandonRun_follows
    | with_reducible apply State.giveUp_follows
    | with_reducible apply State.endPass_follows
    | with_reducible apply State.nextIteration_follows
    | with_reducible (simp only [follows_mk])
    | split
    | (intro _ _ _)

theorem State.cancelRunning_follows {s0 s : State} (h : s0.Follows s) (a2 a3 a4 a5) : s0.Follows (State.cancelRunning s a2 a3 a4 a5).1 := by
  unfold State.cancelRunning
  try dsimp only
  repeat' first
    | with_reducible assumption
    | with_reducible apply State.dropEarly_follows
    | with_reducible apply State.bankSlot_follows
    | with_reducible apply State.setRun_follows
    | with_reducible apply State.endStep_follows
    | with_reducible apply State.shrinkRun_follows
    | with_reducible (simp only [follows_mk])
    | split
    | (intro _ _ _)

theorem State.cancelWork_follows {s0 s : State} (h : s0.Follows s) (a2 a3) : s0.Follows (State.cancelWork s a2 a3).1 := by
  unfold State.cancelWork
  repeat' first
    | with_reducible assumption
    | with_reducible apply State.dropStep_follows
    | with_reducible apply State.cancelRunning_follows
    | with_reducible apply State.modSlot_follows
    | with_reducible apply follows_foldl
    | with_reducible (simp only [follows_mk])
    | (intro _ _ _)

theorem State.freeSlotOf_follows {s0 s : State} (h : s0.Follows s) (a2 a3) : s0.Follows (State.freeSlotOf s a2 a3) := by
  unfold State.freeSlotOf
  try dsimp only
  repeat' first
    | with_reducible assumption
    | with_reducible apply State.releaseKv_follows
    | with_reducible apply State.modSlot_follows
    | with_reducible (simp only [follows_mk])
    | split
    | (intro _ _ _)

theorem State.listBytes_follows {s0 s : State} (h : s0.Follows s) (a2) : s0.Follows (State.listBytes s a2).1 := by
  unfold State.listBytes
  try dsimp only
  repeat' first
    | with_reducible assumption
    | with_reducible refine follows_fst (by assumption) (State.firstPoison_follows ?_ _ _ _)
    | split

theorem State.loadList_follows {s0 s : State} (h : s0.Follows s) (a2) : s0.Follows (State.loadList s a2) := by
  unfold State.loadList
  try dsimp only
  repeat' first
    | with_reducible assumption
    | with_reducible apply State.reply_follows
    | with_reducible apply State.wait_follows
    | with_reducible refine follows_fst (by assumption) (State.listBytes_follows ?_ _)
    | with_reducible apply State.modEng_follows
    | with_reducible apply State.freshCopies_follows
    | split

theorem State.resumeMem_follows {s0 s : State} (h : s0.Follows s) (a2) : s0.Follows (State.resumeMem s a2) := by
  unfold State.resumeMem
  try dsimp only
  repeat' first
    | with_reducible assumption
    | with_reducible apply State.freeRange_follows
    | with_reducible apply State.memCopy_follows
    | with_reducible apply State.memFill_follows
    | with_reducible apply State.saveSlot_follows
    | with_reducible apply State.reply_follows
    | with_reducible apply State.memAlloc_follows
    | with_reducible apply State.tryOpen_follows
    | with_reducible apply State.restore_follows
    | with_reducible apply State.loadList_follows
    | split

theorem State.settleMem_follows {s0 s : State} (h : s0.Follows s) : s0.Follows (State.settleMem s) := by
  unfold State.settleMem
  repeat' first
    | with_reducible assumption
    | with_reducible apply State.resumeMem_follows
    | with_reducible apply State.dropWaiter_follows
    | with_reducible apply follows_foldl
    | split
    | (intro _ _ _)

theorem State.controlReady_follows {s0 s : State} (h : s0.Follows s) (a2 a3) : s0.Follows (State.controlReady s a2 a3) := by
  unfold State.controlReady
  refine State.reply_follows ?_ _ _ _ _ _
  refine State.oculusUpdate_follows ?_
  have k : s0.Follows { s with sec := { s.sec with st := .control } } := by simp only [follows_mk]; exact h
  refine follows_setPwr k (fun e => ?_)
  dsimp only at e ⊢
  split
  · decide
  · exact e

end Sys2Proof.Machine
end

