-- ==== Sys2Proof/Laws/KeepService.lean ====
section
/-! SUPPORT. One lemma per operation of the Oculus, faults, partitions, the Belfry, starts, resets, security, management and registers:
the state it answers follows the state it was given, as `State.Follows` says. -/

set_option Elab.async false

namespace Sys2Proof.Machine

theorem State.getOculus_follows {s0 s : State} (h : s0.Follows s) (a2) : s0.Follows (State.getOculus s a2) := by
  unfold State.getOculus
  try dsimp only
  repeat' first
    | with_reducible assumption
    | with_reducible apply State.reply_follows
    | with_reducible apply State.dma_follows
    | split

theorem State.modBel_follows {s0 s : State} (h : s0.Follows s) (a2) : s0.Follows (State.modBel s a2) := by
  unfold State.modBel
  repeat' first
    | with_reducible assumption
    | with_reducible (simp only [follows_mk])

theorem State.modEntry_follows {s0 s : State} (h : s0.Follows s) (a2 a3) : s0.Follows (State.modEntry s a2 a3) := by
  unfold State.modEntry
  repeat' first
    | with_reducible assumption
    | with_reducible apply State.modBel_follows

theorem State.repeatEntry_follows {s0 s : State} (h : s0.Follows s) (a2) : s0.Follows (State.repeatEntry s a2) := by
  unfold State.repeatEntry
  try dsimp only
  repeat' first
    | with_reducible assumption
    | with_reducible apply State.modEntry_follows
    | with_reducible (simp only [follows_mk])
    | split
    | (intro _ _ _)

theorem State.countRaise_follows {s0 s : State} (h : s0.Follows s) (a2) : s0.Follows (State.countRaise s a2) := by
  unfold State.countRaise
  try dsimp only
  repeat' first
    | with_reducible assumption
    | with_reducible apply State.modBel_follows
    | with_reducible (simp only [follows_mk])
    | split
    | (intro _ _ _)

theorem State.faultRead_follows {s0 s : State} (h : s0.Follows s) (a2) : s0.Follows (State.faultRead s a2) := by
  unfold State.faultRead
  repeat' first
    | with_reducible assumption
    | with_reducible apply State.modPart_follows
    | with_reducible apply State.reply_follows
    | with_reducible apply State.dma_follows

theorem State.ackEntry_follows {s0 s : State} (h : s0.Follows s) (a2) : s0.Follows (State.ackEntry s a2) := by
  unfold State.ackEntry
  repeat' first
    | with_reducible assumption
    | with_reducible apply State.modEntry_follows

theorem State.clearEntry_follows {s0 s : State} (h : s0.Follows s) (a2) : s0.Follows (State.clearEntry s a2) := by
  unfold State.clearEntry
  repeat' first
    | with_reducible assumption
    | with_reducible apply State.modEntry_follows

theorem State.faultAck_follows {s0 s : State} (h : s0.Follows s) (a2) : s0.Follows (State.faultAck s a2) := by
  unfold State.faultAck
  repeat' first
    | with_reducible assumption
    | with_reducible apply State.reply_follows
    | with_reducible apply State.ackEntry_follows
    | split

theorem State.faultClear_follows {s0 s : State} (h : s0.Follows s) (a2) : s0.Follows (State.faultClear s a2) := by
  unfold State.faultClear
  repeat' first
    | with_reducible assumption
    | with_reducible apply State.reply_follows
    | with_reducible apply State.clearEntry_follows
    | split

theorem State.setPower_follows {s0 s : State} (h : s0.Follows s) (a2) : s0.Follows (State.setPower s a2) := by
  unfold State.setPower
  try dsimp only
  repeat' first
    | with_reducible assumption
    | with_reducible refine follows_fst (by assumption) (State.requestPower_follows ?_ _)
    | with_reducible apply State.reply_follows
    | with_reducible apply State.wait_follows
    | split

theorem State.modFab_follows {s0 s : State} (h : s0.Follows s) (a2) : s0.Follows (State.modFab s a2) := by
  unfold State.modFab
  repeat' first
    | with_reducible assumption
    | with_reducible (simp only [follows_mk])

theorem State.routeSet_follows {s0 s : State} (h : s0.Follows s) (a2) : s0.Follows (State.routeSet s a2) := by
  unfold State.routeSet
  repeat' first
    | with_reducible assumption
    | with_reducible apply State.reply_follows
    | with_reducible apply State.oculusUpdate_follows
    | with_reducible apply State.modFab_follows
    | split

theorem State.portRole_follows {s0 s : State} (h : s0.Follows s) (a2 a3) : s0.Follows (State.portRole s a2 a3) := by
  unfold State.portRole
  try dsimp only
  repeat' first
    | with_reducible assumption
    | with_reducible apply State.modLink_follows
    | with_reducible apply State.modLPort_follows
    | with_reducible apply State.oculusUpdate_follows
    | with_reducible apply State.purge_follows
    | with_reducible apply State.report_follows
    | split

theorem State.portDown_follows {s0 s : State} (h : s0.Follows s) (a2 a3) : s0.Follows (State.portDown s a2 a3) := by
  unfold State.portDown
  try dsimp only
  repeat' first
    | with_reducible assumption
    | with_reducible apply State.modLPort_follows
    | with_reducible apply State.dropPort_follows
    | with_reducible apply State.modLink_follows
    | with_reducible apply State.purge_follows
    | with_reducible apply State.oculusUpdate_follows
    | with_reducible apply State.report_follows
    | with_reducible (simp only [follows_mk])
    | split
    | (intro _ _ _)

theorem State.portState_follows {s0 s : State} (h : s0.Follows s) (a2) : s0.Follows (State.portState s a2) := by
  unfold State.portState
  try dsimp only
  repeat' first
    | with_reducible assumption
    | with_reducible apply State.portRole_follows
    | with_reducible apply State.reply_follows
    | with_reducible apply State.wait_follows
    | with_reducible apply State.portDown_follows
    | split

theorem State.lanternRead_follows {s0 s : State} (h : s0.Follows s) (a2) : s0.Follows (State.lanternRead s a2) := by
  unfold State.lanternRead
  try dsimp only
  repeat' first
    | with_reducible assumption
    | with_reducible apply State.dma_follows
    | with_reducible apply State.reply_follows
    | with_reducible (simp only [follows_mk])
    | split
    | (intro _ _ _)

theorem State.laserSwap_follows {s0 s : State} (h : s0.Follows s) (a2) : s0.Follows (State.laserSwap s a2) := by
  unfold State.laserSwap
  try dsimp only
  repeat' first
    | with_reducible assumption
    | with_reducible apply State.releaseSwap_follows
    | with_reducible apply State.wait_follows
    | with_reducible apply State.reply_follows
    | with_reducible refine follows_some (by assumption) (State.beginSwap_follows ?_ _ _ _ _ _ _)
    | with_reducible apply State.retireWave_follows
    | split

theorem State.gapPolicy_follows {s0 s : State} (h : s0.Follows s) (a2 a3 a4 a5) : s0.Follows (State.gapPolicy s a2 a3 a4 a5) := by
  unfold State.gapPolicy
  try dsimp only
  repeat' first
    | with_reducible assumption
    | with_reducible apply State.modLan_follows
    | with_reducible apply State.dueGap_follows
    | with_reducible apply State.startGap_follows
    | with_reducible apply State.oculusUpdate_follows
    | with_reducible (simp only [follows_mk])
    | split
    | (intro _ _ _)

theorem State.calGapPolicy_follows {s0 s : State} (h : s0.Follows s) (a2) : s0.Follows (State.calGapPolicy s a2) := by
  unfold State.calGapPolicy
  repeat' first
    | with_reducible assumption
    | with_reducible apply State.reply_follows
    | with_reducible apply State.gapPolicy_follows
    | with_reducible apply follows_foldl
    | (intro _ _ _)

theorem State.askDrain_follows {s0 s : State} (h : s0.Follows s) (a2) : s0.Follows (State.askDrain s a2) := by
  unfold State.askDrain
  try dsimp only
  repeat' first
    | with_reducible assumption
    | with_reducible apply State.completeDrain_follows
    | with_reducible apply State.modLan_follows
    | with_reducible apply State.startDrain_follows
    | split

theorem State.abandonDrain_follows {s0 s : State} (h : s0.Follows s) (a2) : s0.Follows (State.abandonDrain s a2) := by
  unfold State.abandonDrain
  try dsimp only
  repeat' first
    | with_reducible assumption
    | with_reducible apply State.modLan_follows
    | with_reducible apply State.relight_follows
    | with_reducible apply State.oculusUpdate_follows
    | with_reducible apply State.replyDrain_follows
    | with_reducible apply State.releaseSwap_follows
    | with_reducible apply State.dueGap_follows
    | with_reducible (simp only [follows_mk])
    | split
    | (intro _ _ _)

theorem State.serviceDrain_follows {s0 s : State} (h : s0.Follows s) (a2) : s0.Follows (State.serviceDrain s a2) := by
  unfold State.serviceDrain
  try dsimp only
  repeat' first
    | with_reducible assumption
    | with_reducible apply State.askDrain_follows
    | with_reducible apply State.reply_follows
    | with_reducible apply State.wait_follows
    | with_reducible apply State.startRestore_follows
    | with_reducible apply State.settleRestore_follows
    | with_reducible apply State.abandonDrain_follows
    | split

theorem State.thermStatus_follows {s0 s : State} (h : s0.Follows s) (a2) : s0.Follows (State.thermStatus s a2) := by
  unfold State.thermStatus
  try dsimp only
  repeat' first
    | with_reducible assumption
    | with_reducible apply State.dma_follows
    | with_reducible apply State.reply_follows
    | with_reducible (simp only [follows_mk])
    | split
    | (intro _ _ _)

theorem State.marginReport_follows {s0 s : State} (h : s0.Follows s) (a2) : s0.Follows (State.marginReport s a2) := by
  unfold State.marginReport
  try dsimp only
  repeat' first
    | with_reducible assumption
    | with_reducible apply State.reply_follows
    | with_reducible apply State.dma_follows
    | with_reducible apply follows_foldl
    | with_reducible apply follows_foldl_fst
    | with_reducible (simp only [follows_mk])
    | split
    | (intro _ _ _)

theorem State.killCommands_follows {s0 s : State} (h : s0.Follows s) (a2) : s0.Follows (State.killCommands s a2) := by
  unfold State.killCommands
  repeat' first
    | with_reducible assumption
    | with_reducible apply State.modEng_follows
    | with_reducible apply State.modSlot_follows
    | with_reducible apply follows_foldl
    | with_reducible (simp only [follows_mk])
    | split
    | (intro _ _ _)

theorem State.killRun_follows {s0 s : State} (h : s0.Follows s) (a2) : s0.Follows (State.killRun s a2) := by
  unfold State.killRun
  repeat' first
    | with_reducible assumption
    | with_reducible apply State.abandonRun_follows
    | split

theorem State.killTraffic_follows {s0 s : State} (h : s0.Follows s) (a2 a3) : s0.Follows (State.killTraffic s a2 a3) := by
  unfold State.killTraffic
  try dsimp only
  repeat' first
    | with_reducible assumption
    | with_reducible apply State.countFab_follows
    | with_reducible apply State.modFab_follows
    | with_reducible apply State.retryPool_follows
    | with_reducible apply State.route_follows
    | with_reducible apply follows_foldl
    | split
    | (intro _ _ _)

theorem State.freePartition_follows {s0 s : State} (h : s0.Follows s) (a2) : s0.Follows (State.freePartition s a2) := by
  unfold State.freePartition
  repeat' first
    | with_reducible assumption
    | with_reducible apply State.freeSlotOf_follows
    | with_reducible apply State.modEng_follows
    | with_reducible apply State.unmapFrames_follows
    | with_reducible apply follows_foldl
    | split
    | (intro _ _ _)

theorem State.resetPartRegs_follows {s0 s : State} (h : s0.Follows s) (a2) : s0.Follows (State.resetPartRegs s a2) := by
  unfold State.resetPartRegs
  repeat' first
    | with_reducible assumption
    | with_reducible apply State.modPart_follows
    | with_reducible (simp only [follows_mk])

theorem State.partReset_follows {s0 s : State} (h : s0.Follows s) (a2) : s0.Follows (State.partReset s a2) := by
  unfold State.partReset
  repeat' first
    | with_reducible assumption
    | with_reducible apply State.modPart_follows
    | with_reducible apply State.freePartition_follows
    | with_reducible apply State.killRun_follows
    | with_reducible apply State.killCommands_follows
    | with_reducible apply State.oculusUpdate_follows
    | with_reducible apply State.resetPartRegs_follows
    | with_reducible apply State.killTraffic_follows
    | with_reducible (simp only [follows_mk])
    | split

theorem State.partBack_follows {s0 s : State} (h : s0.Follows s) (a2) : s0.Follows (State.partBack s a2) := by
  unfold State.partBack
  repeat' first
    | with_reducible assumption
    | with_reducible apply State.modPart_follows

theorem State.resetFunction_follows {s0 s : State} (h : s0.Follows s) (a2) : s0.Follows (State.resetFunction s a2) := by
  unfold State.resetFunction
  repeat' first
    | with_reducible assumption
    | with_reducible apply State.modPort_follows

theorem State.hostLinkDown_follows {s0 s : State} (h : s0.Follows s) (a2) : s0.Follows (State.hostLinkDown s a2) := by
  unfold State.hostLinkDown
  repeat' first
    | with_reducible assumption
    | with_reducible apply State.partReset_follows
    | with_reducible apply State.oculusUpdate_follows
    | with_reducible apply State.modPort_follows
    | split

theorem State.dropWrite_follows {s0 s : State} (h : s0.Follows s) (a2) : s0.Follows (State.dropWrite s a2) := by
  unfold State.dropWrite
  repeat' first
    | with_reducible assumption
    | with_reducible apply State.goard_follows
    | split

theorem State.writePartReset_follows {s0 s : State} (h : s0.Follows s) (a2 a3 a4) : s0.Follows (State.writePartReset s a2 a3 a4) := by
  unfold State.writePartReset
  try dsimp only
  repeat' first
    | with_reducible assumption
    | with_reducible apply State.dropWrite_follows
    | with_reducible apply State.badValue_follows
    | with_reducible apply State.partBack_follows
    | with_reducible apply State.partReset_follows
    | split

theorem State.moveSteward_follows {s0 s : State} (h : s0.Follows s) (a2) : s0.Follows (State.moveSteward s a2) := by
  unfold State.moveSteward
  repeat' first
    | with_reducible assumption
    | with_reducible apply State.modPart_follows
    | with_reducible apply State.oculusUpdate_follows
    | with_reducible (simp only [follows_mk])
    | split

theorem State.writeSteward_follows {s0 s : State} (h : s0.Follows s) (a2 a3) : s0.Follows (State.writeSteward s a2 a3) := by
  unfold State.writeSteward
  try dsimp only
  repeat' first
    | with_reducible assumption
    | with_reducible apply State.dropWrite_follows
    | with_reducible apply State.moveSteward_follows
    | split

theorem State.lockStatus_follows {s0 s : State} (h : s0.Follows s) (a2) : s0.Follows (State.lockStatus s a2) := by
  unfold State.lockStatus
  repeat' first
    | with_reducible assumption
    | with_reducible apply State.modDom_follows

theorem State.keepViolation_follows {s0 s : State} (h : s0.Follows s) (a2 a3) : s0.Follows (State.keepViolation s a2 a3) := by
  unfold State.keepViolation
  try dsimp only
  repeat' first
    | with_reducible assumption
    | with_reducible apply State.lockStatus_follows
    | with_reducible apply State.report_follows
    | with_reducible (simp only [follows_mk])
    | split
    | (intro _ _ _)

theorem State.writeOffer_follows {s0 s : State} (h : s0.Follows s) (a2 a3) : s0.Follows (State.writeOffer s a2 a3) := by
  unfold State.writeOffer
  repeat' first
    | with_reducible assumption
    | with_reducible apply State.modPart_follows
    | with_reducible apply State.report_follows
    | with_reducible apply State.lockStatus_follows
    | split

theorem State.react_follows {s0 s : State} (h : s0.Follows s) (a2 a3) : s0.Follows (State.react s a2 a3) := by
  unfold State.react
  try dsimp only
  repeat' first
    | with_reducible assumption
    | with_reducible apply State.tripOff_follows
    | with_reducible apply State.fenceBundle_follows
    | with_reducible apply State.safeState_follows
    | with_reducible apply State.loseHalf_follows
    | with_reducible apply State.portDown_follows
    | with_reducible apply State.partBack_follows
    | with_reducible apply State.partReset_follows
    | with_reducible apply State.fenceLantern_follows
    | with_reducible apply follows_foldl
    | split
    | (intro _ _ _)

theorem State.notify_follows {s0 s : State} (h : s0.Follows s) (a2) : s0.Follows (State.notify s a2) := by
  unfold State.notify
  repeat' first
    | with_reducible assumption
    | with_reducible apply State.msi_follows
    | with_reducible apply State.modPart_follows
    | with_reducible apply follows_foldl
    | split
    | (intro _ _ _)

theorem State.logFullNow_follows {s0 s : State} (h : s0.Follows s) (a2) : s0.Follows (State.logFullNow s a2) := by
  unfold State.logFullNow
  try dsimp only
  repeat' first
    | with_reducible assumption
    | with_reducible apply State.repeatEntry_follows
    | with_reducible apply State.countRaise_follows
    | with_reducible apply State.modBel_follows
    | with_reducible apply State.notify_follows
    | with_reducible apply State.react_follows
    | with_reducible (simp only [follows_mk])
    | split
    | (intro _ _ _)

theorem State.noteInjected_follows {s0 s : State} (h : s0.Follows s) (a2 a3) : s0.Follows (State.noteInjected s a2 a3) := by
  unfold State.noteInjected
  try dsimp only
  repeat' first
    | with_reducible assumption
    | with_reducible apply State.modBundle_follows
    | with_reducible (simp only [follows_mk])
    | split
    | (intro _ _ _)

theorem State.putEntry_follows {s0 s : State} (h : s0.Follows s) (a2 a3 a4 a5) : s0.Follows (State.putEntry s a2 a3 a4 a5) := by
  unfold State.putEntry
  try dsimp only
  repeat' first
    | with_reducible assumption
    | with_reducible apply State.modBel_follows
    | with_reducible apply State.notify_follows
    | with_reducible apply State.logFullNow_follows
    | with_reducible (simp only [follows_mk])
    | split
    | (intro _ _ _)

theorem State.logOne_follows {s0 s : State} (h : s0.Follows s) (a2 a3) : s0.Follows (State.logOne s a2 a3) := by
  unfold State.logOne
  try dsimp only
  repeat' first
    | with_reducible assumption
    | with_reducible apply State.repeatEntry_follows
    | with_reducible apply State.countRaise_follows
    | with_reducible apply State.putEntry_follows
    | with_reducible apply State.react_follows
    | with_reducible apply State.noteInjected_follows
    | with_reducible (simp only [follows_mk])
    | split
    | (intro _ _ _)

theorem State.logDue_follows {s0 s : State} (h : s0.Follows s) : s0.Follows (State.logDue s) := by
  unfold State.logDue
  repeat' first
    | with_reducible assumption
    | with_reducible apply State.modBel_follows
    | with_reducible apply State.logOne_follows
    | with_reducible apply follows_foldl
    | (intro _ _ _)

theorem State.flushBelfry_follows {s0 s : State} (h : s0.Follows s) : s0.Follows (State.flushBelfry s) := by
  unfold State.flushBelfry
  repeat' first
    | with_reducible assumption
    | with_reducible apply State.logOne_follows
    | with_reducible apply State.modBel_follows
    | with_reducible apply follows_foldl
    | (intro _ _ _)

theorem State.belfryParity_follows {s0 s : State} (h : s0.Follows s) (a2) : s0.Follows (State.belfryParity s a2) := by
  unfold State.belfryParity
  repeat' first
    | with_reducible assumption
    | with_reducible apply State.repeatEntry_follows
    | with_reducible apply State.safeState_follows
    | with_reducible apply State.putEntry_follows
    | split

theorem State.arrive_follows {s0 s : State} (h : s0.Follows s) (a2 a3) : s0.Follows (State.arrive s a2 a3) := by
  unfold State.arrive
  try dsimp only
  repeat' first
    | with_reducible assumption
    | with_reducible apply State.noteUnsync_follows
    | with_reducible apply State.belfryParity_follows
    | with_reducible apply State.logOne_follows
    | with_reducible apply State.modBel_follows
    | split

theorem State.inject_follows {s0 s : State} (h : s0.Follows s) (a2) : s0.Follows (State.inject s a2) := by
  unfold State.inject
  repeat' first
    | with_reducible assumption
    | with_reducible apply State.reply_follows
    | with_reducible apply State.modBel_follows
    | split

theorem State.regAck_follows {s0 s : State} (h : s0.Follows s) : s0.Follows (State.regAck s) := by
  unfold State.regAck
  repeat' first
    | with_reducible assumption
    | with_reducible apply State.ackEntry_follows
    | split

theorem State.regClear_follows {s0 s : State} (h : s0.Follows s) : s0.Follows (State.regClear s) := by
  unfold State.regClear
  repeat' first
    | with_reducible assumption
    | with_reducible apply State.clearEntry_follows
    | split

theorem State.writeFltEntry_follows {s0 s : State} (h : s0.Follows s) (a2 a3) : s0.Follows (State.writeFltEntry s a2 a3) := by
  unfold State.writeFltEntry
  repeat' first
    | with_reducible assumption
    | with_reducible apply State.dropWrite_follows
    | with_reducible apply State.regAck_follows
    | with_reducible apply State.regClear_follows
    | split

/-- A release of Gallery's cores leaves Keep's fuses as they are. -/
theorem State.cutShort_fuses (s : State) :
    s.cutShort.svnMin = s.sec.svnMin ∧ s.cutShort.terminated = s.sec.terminated ∧ s.cutShort.production = s.sec.production := by
  unfold State.cutShort
  split
  · exact ⟨rfl, rfl, rfl⟩
  · exact ⟨rfl, rfl, rfl⟩

theorem State.resetTo_follows {s0 s : State} (h : s0.Follows s) (a2 a3) : s0.Follows (State.resetTo s a2 a3) := by
  have k := State.flushBelfry_follows h
  obtain ⟨e1, e2, e3⟩ := State.cutShort_fuses s.flushBelfry
  unfold State.resetTo
  dsimp only
  refine ⟨k.queue, k.time, ?_, ?_, ?_, fun o => ⟨rfl, rfl, rfl, (k.ok o).hmem, Nat.zero_le 3⟩⟩
  · refine Nat.le_trans k.svn (Nat.le_of_eq ?_)
    rw [← e1]
    simp only [Security.reset, Security.terminate]
    split <;> rfl
  · intro t
    have t := e2.trans (k.terminated t)
    simp only [Security.reset, Security.terminate]
    split
    · exact t
    · rfl
  · intro t
    have t := e3.trans (k.production t)
    simp only [Security.reset, Security.terminate]
    split <;> exact t

theorem State.deviceReset_follows {s0 s : State} (h : s0.Follows s) (a2) : s0.Follows (State.deviceReset s a2) := by
  unfold State.deviceReset
  repeat' first
    | with_reducible assumption
    | with_reducible apply State.resetTo_follows
    | with_reducible (simp only [follows_mk])
    | split

theorem State.keepReports_follows {s0 s : State} (h : s0.Follows s) (a2) : s0.Follows (State.keepReports s a2) := by
  unfold State.keepReports
  try dsimp only
  repeat' first
    | with_reducible assumption
    | with_reducible apply State.report_follows
    | with_reducible apply follows_foldl
    | with_reducible apply follows_foldl_fst
    | with_reducible (simp only [follows_mk])
    | split
    | (intro _ _ _)

theorem State.chooseSlot_follows {s0 s : State} (h : s0.Follows s) (a2) : s0.Follows (State.chooseSlot s a2).1 := by
  unfold State.chooseSlot
  try dsimp only
  repeat' first
    | with_reducible assumption
    | with_reducible apply State.report_follows
    | with_reducible (simp only [follows_mk])
    | split
    | (intro _ _ _)

theorem State.releaseGallery_follows {s0 s : State} (h : s0.Follows s) (a2) : s0.Follows (State.releaseGallery s a2) := by
  unfold State.releaseGallery
  refine State.commitDomain_follows ?_ _
  refine follows_setSec h (Nat.le_refl _) ?_ ?_
  · exact id
  · exact id

theorem State.keepSteps_follows {s0 s : State} (h : s0.Follows s) (a2) : s0.Follows (State.keepSteps s a2).1 := by
  unfold State.keepSteps
  dsimp only
  repeat' first
    | with_reducible assumption
    | with_reducible apply State.releaseGallery_follows
    | with_reducible apply State.takeFree_follows
    | with_reducible apply State.safeState_follows
    | with_reducible apply State.report_follows
    | with_reducible apply State.chooseSlot_follows
    | with_reducible apply State.keepReports_follows
    | with_reducible apply follows_foldl
    | split
    | (intro _ _ _)

theorem State.startBundle_follows {s0 s : State} (h : s0.Follows s) (a2 a3 a4) : s0.Follows (State.startBundle s a2 a3 a4) := by
  unfold State.startBundle
  try dsimp only
  repeat' first
    | with_reducible assumption
    | with_reducible apply State.modBundle_follows
    | with_reducible apply State.modLink_follows
    | with_reducible apply State.warmBundle_follows
    | with_reducible apply State.trainBundle_follows
    | with_reducible (simp only [follows_mk])
    | split
    | (intro _ _ _)

theorem State.startHbm_follows {s0 s : State} (h : s0.Follows s) (a2) : s0.Follows (State.startHbm s a2) :=
  follows_modHbm h _ _ (fun _ k => twf_foldl FrameUse.free _ (fun _ _ h => twf_tset FrameUse.free _ _ h) _ _
    (twf_foldl FrameUse.free _ (fun _ _ h => twf_tset FrameUse.free _ _ h) _ _ k))

theorem State.startArray_follows {s0 s : State} (h : s0.Follows s) (a2 a3 a4) : s0.Follows (State.startArray s a2 a3 a4) := by
  unfold State.startArray
  repeat' first
    | with_reducible assumption
    | with_reducible apply State.modArr_follows
    | with_reducible apply State.takeFree_follows
    | with_reducible apply State.failColumn_follows
    | with_reducible apply follows_foldl
    | split
    | (intro _ _ _)

theorem State.replaceLaser_follows {s0 s : State} (h : s0.Follows s) (a2 a3) : s0.Follows (State.replaceLaser s a2 a3) := by
  unfold State.replaceLaser
  try dsimp only
  repeat' first
    | with_reducible assumption
    | with_reducible apply State.retireWave_follows
    | with_reducible apply State.report_follows
    | with_reducible apply State.modLan_follows
    | split

theorem State.lasersOn_follows {s0 s : State} (h : s0.Follows s) (a2) : s0.Follows (State.lasersOn s a2) := by
  unfold State.lasersOn
  try dsimp only
  repeat' first
    | with_reducible assumption
    | with_reducible apply State.modLan_follows
    | with_reducible apply follows_foldl
    | with_reducible apply follows_foldl_fst
    | with_reducible (simp only [follows_mk])
    | split
    | (intro _ _ _)

theorem State.commissionLaser_follows {s0 s : State} (h : s0.Follows s) (a2 a3) : s0.Follows (State.commissionLaser s a2 a3) := by
  unfold State.commissionLaser
  try dsimp only
  repeat' first
    | with_reducible assumption
    | with_reducible apply State.replaceLaser_follows
    | with_reducible apply State.modLan_follows
    | with_reducible apply State.report_follows
    | with_reducible apply State.warnSwap_follows
    | with_reducible (simp only [follows_mk])
    | split
    | (intro _ _ _)

theorem State.startLantern_follows {s0 s : State} (h : s0.Follows s) (a2 a3 a4) : s0.Follows (State.startLantern s a2 a3 a4) := by
  unfold State.startLantern
  try dsimp only
  repeat' first
    | with_reducible assumption
    | with_reducible apply State.modLink_follows
    | with_reducible apply State.modLan_follows
    | with_reducible apply State.commitDomain_follows
    | with_reducible apply State.lasersOn_follows
    | with_reducible apply State.lanternBack_follows
    | with_reducible apply State.commissionLaser_follows
    | with_reducible apply follows_foldl
    | with_reducible apply follows_foldl_fst
    | with_reducible (simp only [follows_mk])
    | split
    | (intro _ _ _)

theorem State.commission_follows {s0 s : State} (h : s0.Follows s) (a2) : s0.Follows (State.commission s a2) := by
  unfold State.commission
  try dsimp only
  repeat' first
    | with_reducible assumption
    | with_reducible apply follows_foldl
    | with_reducible apply follows_foldl_fst
    | with_reducible (simp only [follows_mk])
    | split
    | (intro _ _ _)

theorem State.startSensors_follows {s0 s : State} (h : s0.Follows s) (a2) : s0.Follows (State.startSensors s a2) := by
  unfold State.startSensors
  try dsimp only
  repeat' first
    | with_reducible assumption
    | with_reducible apply State.modDie_follows
    | with_reducible apply State.report_follows
    | with_reducible apply follows_foldl
    | with_reducible apply follows_foldl_fst
    | with_reducible (simp only [follows_mk])
    | split
    | (intro _ _ _)

theorem State.svnStep_follows {s0 s : State} (h : s0.Follows s) : s0.Follows (State.svnStep s) := by
  have k : s0.Follows { s with free := s.free + 3 } := by simp only [follows_mk]; exact h
  unfold State.svnStep
  dsimp only
  refine follows_setSec k ?_ id id
  dsimp only
  split
  · exact Nat.le_max_left _ _
  · exact Nat.le_refl _

theorem State.startUnits_follows {s0 s : State} (h : s0.Follows s) (a2 a3 a4) : s0.Follows (State.startUnits s a2 a3 a4) := by
  unfold State.startUnits
  try dsimp only
  repeat' first
    | with_reducible assumption
    | with_reducible apply State.startHbm_follows
    | with_reducible apply State.retireRow_follows
    | with_reducible apply State.startArray_follows
    | with_reducible apply State.startBundle_follows
    | with_reducible apply State.startLantern_follows
    | with_reducible apply State.startSensors_follows
    | with_reducible apply follows_foldl
    | with_reducible apply follows_foldl_fst
    | with_reducible (simp only [follows_mk])
    | split
    | (intro _ _ _)

theorem State.bumpGens_follows {s0 s : State} (h : s0.Follows s) : s0.Follows (State.bumpGens s) := by
  unfold State.bumpGens
  try dsimp only
  repeat' first
    | with_reducible assumption
    | with_reducible apply State.modSlot_follows
    | with_reducible apply State.modPart_follows
    | with_reducible apply follows_foldl
    | with_reducible apply follows_foldl_fst
    | with_reducible (simp only [follows_mk])
    | split
    | (intro _ _ _)

theorem State.openDevice_follows {s0 s : State} (h : s0.Follows s) : s0.Follows (State.openDevice s) := by
  unfold State.openDevice
  try dsimp only
  repeat' first
    | with_reducible assumption
    | with_reducible apply State.bumpGens_follows
    | with_reducible apply State.commitDomain_follows
    | with_reducible apply follows_foldl
    | with_reducible apply follows_foldl_fst
    | with_reducible (simp only [follows_mk])
    | split
    | (intro _ _ _)

theorem State.endStart_follows {s0 s : State} (h : s0.Follows s) (a2) : s0.Follows (State.endStart s a2) := by
  unfold State.endStart
  try dsimp only
  repeat' first
    | with_reducible assumption
    | with_reducible apply State.oculusUpdate_follows
    | with_reducible apply follows_foldl
    | with_reducible apply follows_foldl_fst
    | with_reducible (simp only [follows_mk])
    | split
    | (intro _ _ _)

/-- The ledger's part in the end of a start keeps `Follows`. -/
theorem follows_commission {s0 s : State} (h : s0.Follows s) (r : StartReport) (kind : StartKind) :
    s0.Follows (if kind = .commissioning ∧ s.sec.st ≠ .terminated then s.commission r else s) := by
  split
  · exact State.commission_follows h _
  · exact h

/-- The quiescent time set anew keeps `Follows`. -/
theorem follows_quiesced {s0 s : State} (h : s0.Follows s) :
    s0.Follows (s.modPwr fun x => { x with quiesced := some s.now }) := State.modPwr_follows h _ (fun hx => hx)

/-- The power state of a start's end keeps `Follows`. -/
theorem follows_endStart {s0 s : State} (h : s0.Follows s) (r : StartReport) :
    s0.Follows ((if s.sec.st = .terminated then s.enterP2.1.enterP3 else s).endStart r) := by
  refine State.endStart_follows ?_ _
  split
  · exact State.enterP3_follows (State.enterP2_follows h)
  · exact h

theorem State.finishStart_follows {s0 s : State} (h : s0.Follows s) (a2 a3) : s0.Follows (State.finishStart s a2 a3) :=
  follows_endStart (follows_quiesced (State.svnStep_follows (State.replan_follows
    (follows_commission (State.openDevice_follows h) a2 a3)))) a2

theorem State.completeStart_follows {s0 s : State} (h : s0.Follows s) (a2 a3 a4) : s0.Follows (State.completeStart s a2 a3 a4) :=
  State.finishStart_follows (State.startUnits_follows h _ _ _) _ _

theorem State.runStart_follows {s0 s : State} (h : s0.Follows s) (a2 a3) : s0.Follows (State.runStart s a2 a3) := by
  unfold State.runStart
  try dsimp only
  repeat' first
    | with_reducible assumption
    | with_reducible apply State.keepSteps_follows
    | with_reducible apply State.completeStart_follows
    | with_reducible (simp only [follows_mk])
    | split
    | (intro _ _ _)

theorem State.resetHalf_follows {s0 s : State} (h : s0.Follows s) (a2 a3) : s0.Follows (State.resetHalf s a2 a3) := by
  unfold State.resetHalf
  repeat' first
    | with_reducible assumption
    | with_reducible apply State.orderlyHalf_follows
    | split

theorem State.crashHalf_follows {s0 s : State} (h : s0.Follows s) (a2 a3) : s0.Follows (State.crashHalf s a2 a3) := by
  unfold State.crashHalf
  repeat' first
    | with_reducible assumption
    | with_reducible apply State.abruptHalf_follows
    | split

theorem State.unmapHalf_follows {s0 s : State} (h : s0.Follows s) (a2) : s0.Follows (State.unmapHalf s a2) := by
  unfold State.unmapHalf
  dsimp only
  refine follows_setMem (follows_modHbm h _ _ (fun x k => twf_filter FrameUse.free _ k)) (fun e => ?_)
  rw [Memory.wf_iff] at e ⊢
  exact ⟨e.1, e.2.1, e.2.2.1, e.2.2.2.1, e.2.2.2.2.1, twf_filter none _ e.2.2.2.2.2⟩

theorem State.enterSingle_follows {s0 s : State} (h : s0.Follows s) : s0.Follows (State.enterSingle s) := by
  unfold State.enterSingle
  repeat' first
    | with_reducible assumption
    | with_reducible apply State.badValue_follows
    | with_reducible apply State.releaseBar_follows
    | with_reducible apply State.settleMem_follows
    | with_reducible apply State.oculusUpdate_follows
    | with_reducible apply State.unmapHalf_follows
    | with_reducible (simp only [follows_mk])
    | split

theorem State.resetAction_follows {s0 s : State} (h : s0.Follows s) (a2 a3) : s0.Follows (State.resetAction s a2 a3) := by
  unfold State.resetAction
  repeat' first
    | with_reducible assumption
    | with_reducible apply State.resetHalf_follows
    | with_reducible apply State.badValue_follows
    | with_reducible apply State.loseHalf_follows
    | with_reducible apply State.enterSingle_follows
    | with_reducible apply State.deviceReset_follows
    | with_reducible (simp only [follows_mk])
    | split

theorem State.writeResetCtrl_follows {s0 s : State} (h : s0.Follows s) (a2 a3) : s0.Follows (State.writeResetCtrl s a2 a3) := by
  unfold State.writeResetCtrl
  try dsimp only
  repeat' first
    | with_reducible assumption
    | with_reducible apply State.dropWrite_follows
    | with_reducible apply State.badValue_follows
    | with_reducible apply State.resetAction_follows
    | split

theorem State.railReset_follows {s0 s : State} (h : s0.Follows s) (a2) : s0.Follows (State.railReset s a2) := by
  unfold State.railReset
  repeat' first
    | with_reducible assumption
    | with_reducible apply State.resetLantern_follows
    | with_reducible apply State.resetHalf_follows
    | with_reducible apply State.crashHalf_follows
    | with_reducible apply State.deviceReset_follows
    | with_reducible apply follows_foldl
    | split
    | (intro _ _ _)

theorem State.returnBundle_follows {s0 s : State} (h : s0.Follows s) (a2 a3 a4) : s0.Follows (State.returnBundle s a2 a3 a4) := by
  unfold State.returnBundle
  try dsimp only
  repeat' first
    | with_reducible assumption
    | with_reducible apply State.settleLanes_follows
    | with_reducible apply State.warmBundle_follows
    | with_reducible (simp only [follows_mk])
    | split
    | (intro _ _ _)

theorem State.continueOp_follows {s0 s : State} (h : s0.Follows s) (a2) : s0.Follows (State.continueOp s a2) := by
  unfold State.continueOp
  repeat' first
    | with_reducible assumption
    | with_reducible apply State.countFreeRetry_follows
    | with_reducible apply State.setRun_follows
    | split

theorem State.halfBack_follows {s0 s : State} (h : s0.Follows s) (a2 a3) : s0.Follows (State.halfBack s a2 a3) := by
  unfold State.halfBack
  repeat' first
    | with_reducible assumption
    | with_reducible apply State.markInexact_follows
    | with_reducible apply State.modArr_follows
    | with_reducible (refine follows_modHbm ?_ _ _ (fun _ hx => hx))
    | with_reducible apply State.takeFree_follows
    | with_reducible apply State.failColumn_follows
    | with_reducible apply State.poisonHalf_follows
    | with_reducible apply State.returnBundle_follows
    | with_reducible apply State.lanternBack_follows
    | with_reducible apply State.oculusUpdate_follows
    | with_reducible apply State.continueOp_follows
    | with_reducible apply State.restoreDomain_follows
    | with_reducible apply State.report_follows
    | with_reducible apply State.releaseBar_follows
    | with_reducible apply State.settleMem_follows
    | with_reducible apply follows_foldl
    | split
    | (intro _ _ _)

theorem State.writeImage_follows {s0 s : State} (h : s0.Follows s) (a2 a3) : s0.Follows (State.writeImage s a2 a3) := by
  unfold State.writeImage
  try dsimp only
  repeat' first
    | with_reducible assumption
    | with_reducible (simp only [follows_mk])
    | split
    | (intro _ _ _)

theorem State.endSession_follows {s0 s : State} (h : s0.Follows s) : s0.Follows (State.endSession s) := by
  unfold State.endSession
  repeat' first
    | with_reducible assumption
    | with_reducible (simp only [follows_mk])

theorem State.markSlot_follows {s0 s : State} (h : s0.Follows s) (a2) : s0.Follows (State.markSlot s a2) := by
  unfold State.markSlot
  dsimp only
  refine follows_setSec h ?_ id id
  dsimp only
  split
  · exact Nat.le_max_left _ _
  · exact Nat.le_refl _

theorem State.fwUpdate_follows {s0 s : State} (h : s0.Follows s) (a2) : s0.Follows (State.fwUpdate s a2) := by
  unfold State.fwUpdate
  repeat' first
    | with_reducible assumption
    | with_reducible apply State.reply_follows
    | with_reducible apply State.writeImage_follows
    | with_reducible apply State.endSession_follows
    | with_reducible apply State.markSlot_follows
    | with_reducible (simp only [follows_mk])
    | split

theorem State.keepAct_follows {s0 s : State} (h : s0.Follows s) (a2 a3 a4 a5) (h5 : ∀ x0 x1, s0.Follows x1 → s0.Follows (a5 x0 x1)) : ∀ x, (State.keepAct s a2 a3 a4 a5) = .next x → s0.Follows x := by
  intro x hx
  unfold State.keepAct at hx
  try dsimp only at hx
  with_reducible obtain rfl := Host.Outcome.next.inj hx
  all_goals repeat' first
    | with_reducible assumption
    | with_reducible apply State.atTime_follows
    | with_reducible apply State.refuse_follows
    | with_reducible apply h5
    | with_reducible (simp only [follows_mk])
    | split

theorem State.zeroise_follows {s0 s : State} (h : s0.Follows s) : s0.Follows (State.zeroise s) := by
  unfold State.zeroise
  try dsimp only
  repeat' first
    | with_reducible assumption
    | with_reducible apply State.abandonRun_follows
    | with_reducible apply State.endSteps_follows
    | with_reducible apply State.modSlot_follows
    | with_reducible apply State.reply_follows
    | with_reducible apply State.modEng_follows
    | with_reducible apply State.endComing_follows
    | with_reducible apply State.endCommand_follows
    | with_reducible apply State.settleFrees_follows
    | with_reducible apply State.freePartition_follows
    | with_reducible apply State.bumpGens_follows
    | with_reducible apply follows_foldl
    | with_reducible apply follows_foldl_fst
    | with_reducible (simp only [follows_mk])
    | split
    | (intro _ _ _)

theorem State.unlockControl_follows {s0 s : State} (h : s0.Follows s) (a2) : s0.Follows (State.unlockControl s a2) := by
  unfold State.unlockControl
  try dsimp only
  repeat' first
    | with_reducible assumption
    | with_reducible apply State.resume_follows
    | with_reducible apply State.leaveP3_follows
    | with_reducible apply State.zeroise_follows
    | with_reducible apply State.controlReady_follows
    | with_reducible apply State.wait_follows
    | split

theorem State.moveSecurity_follows {s0 s : State} (h : s0.Follows s) (a2) : s0.Follows (State.moveSecurity s a2) := by
  unfold State.moveSecurity
  repeat' first
    | with_reducible assumption
    | with_reducible apply State.oculusUpdate_follows
    | with_reducible (simp only [follows_mk])

theorem State.debugUnlock_follows {s0 s : State} (h : s0.Follows s) (a2) : s0.Follows (State.debugUnlock s a2) := by
  unfold State.debugUnlock
  try dsimp only
  repeat' first
    | with_reducible assumption
    | with_reducible apply State.dma_follows
    | with_reducible apply State.reply_follows
    | with_reducible refine follows_some (by assumption) (State.take_follows ?_ _ _)
    | with_reducible apply State.deviceReset_follows
    | with_reducible apply State.unlockControl_follows
    | with_reducible apply State.moveSecurity_follows
    | with_reducible (simp only [follows_mk])
    | split
    | (intro _ _ _)

theorem State.spdm_follows {s0 s : State} (h : s0.Follows s) (a2 a3 a4 a5 a6) (h6 : ∀ x0, s0.Follows x0 → s0.Follows (a6 x0)) : ∀ x, (State.spdm s a2 a3 a4 a5 a6) = .next x → s0.Follows x := by
  intro x hx
  unfold State.spdm at hx
  try dsimp only at hx
  with_reducible obtain rfl := Host.Outcome.next.inj hx
  all_goals repeat' first
    | with_reducible assumption
    | with_reducible apply State.atTime_follows
    | with_reducible apply State.modPort_follows
    | with_reducible apply State.cfgRequest_follows
    | with_reducible apply h6
    | split
    | (intro _ _)

theorem State.respond_follows {s0 s : State} (h : s0.Follows s) (a2 a3 a4) : s0.Follows (State.respond s a2 a3 a4) := by
  unfold State.respond
  repeat' first
    | with_reducible assumption
    | with_reducible apply State.modPort_follows

theorem State.notMeasuring_follows {s0 s : State} (h : s0.Follows s) (a2) : s0.Follows (State.notMeasuring s a2) := by
  unfold State.notMeasuring
  try dsimp only
  repeat' first
    | with_reducible assumption
    | with_reducible apply State.modPort_follows
    | with_reducible (simp only [follows_mk])
    | split
    | (intro _ _ _)

theorem State.serveChain_follows {s0 s : State} (h : s0.Follows s) (a2 a3 a4) : s0.Follows (State.serveChain s a2 a3 a4) := by
  unfold State.serveChain
  try dsimp only
  repeat' first
    | with_reducible assumption
    | with_reducible apply State.notMeasuring_follows
    | with_reducible apply State.modPort_follows
    | with_reducible apply State.respond_follows
    | with_reducible (simp only [follows_mk])
    | split
    | (intro _ _ _)

theorem State.tell_follows {s0 s : State} (h : s0.Follows s) (a2) : s0.Follows (State.tell s a2) := by
  unfold State.tell
  repeat' first
    | with_reducible assumption
    | with_reducible (simp only [follows_mk])

theorem State.bmc_follows {s0 s : State} (h : s0.Follows s) (a2 a3) (h3 : ∀ x0, s0.Follows x0 → s0.Follows (a3 x0)) : ∀ x, (State.bmc s a2 a3) = .next x → s0.Follows x := by
  intro x hx
  unfold State.bmc at hx
  try dsimp only at hx
  with_reducible obtain rfl := Host.Outcome.next.inj hx
  all_goals repeat' first
    | with_reducible assumption
    | with_reducible apply State.atTime_follows
    | with_reducible apply h3
    | split

theorem State.effect_follows {s0 s : State} (h : s0.Follows s) (a2 a3 a4) (h4 : ∀ x0, s0.Follows x0 → s0.Follows (a4 x0)) : ∀ x, (State.effect s a2 a3 a4) = .next x → s0.Follows x := by
  intro x hx
  unfold State.effect at hx
  try dsimp only at hx
  all_goals repeat' first
    | with_reducible assumption
    | with_reducible (refine State.bmc_follows ?_ _ _ ?_ _ (by assumption))
    | with_reducible apply State.tell_follows
    | with_reducible apply h4
    | split
    | (intro _ _)

theorem State.setQuota_follows {s0 s : State} (h : s0.Follows s) (a2 a3 a4) : ∀ x ∈ (State.setQuota s a2 a3 a4), s0.Follows x := by
  unfold State.setQuota
  try dsimp only
  repeat' first
    | with_reducible assumption
    | with_reducible apply State.oculusUpdate_follows
    | with_reducible apply State.modPart_follows
    | with_reducible refine follows_in_some ?_
    | with_reducible refine follows_in_none
    | split

theorem State.update_follows {s0 s : State} (h : s0.Follows s) (a2 a3 a4) (h4 : ∀ x0 x1, s0.Follows x1 → s0.Follows (a4 x0 x1)) : ∀ x, (State.update s a2 a3 a4) = .next x → s0.Follows x := by
  intro x hx
  unfold State.update at hx
  try dsimp only at hx
  all_goals repeat' first
    | with_reducible assumption
    | with_reducible (refine State.bmc_follows ?_ _ _ ?_ _ (by assumption))
    | with_reducible apply State.tell_follows
    | with_reducible apply h4
    | split
    | (intro _ _)

theorem State.stage_follows {s0 s : State} (h : s0.Follows s) (a2) : s0.Follows (State.stage s a2) := by
  unfold State.stage
  repeat' first
    | with_reducible assumption
    | with_reducible apply State.tell_follows
    | with_reducible (simp only [follows_mk])

theorem State.selectInstr_follows {s0 s : State} (h : s0.Follows s) (a2 a3) : s0.Follows (State.selectInstr s a2 a3) := by
  unfold State.selectInstr
  repeat' first
    | with_reducible assumption
    | with_reducible apply State.deviceReset_follows
    | with_reducible (simp only [follows_mk])
    | split

theorem State.modMbx_follows {s0 s : State} (h : s0.Follows s) (a2 a3) : s0.Follows (State.modMbx s a2 a3) := by
  unfold State.modMbx
  repeat' first
    | with_reducible assumption
    | with_reducible (simp only [follows_mk])

theorem State.capture64_follows {s0 s : State} (h : s0.Follows s) (a2 a3) : s0.Follows (State.capture64 s a2 a3) := by
  unfold State.capture64
  repeat' first
    | with_reducible assumption
    | with_reducible apply State.modMbx_follows
    | with_reducible apply State.modDom_follows
    | with_reducible apply State.advanceCount_follows
    | split

theorem State.readD3_follows {s0 s : State} (h : s0.Follows s) (a2) : s0.Follows (State.readD3 s a2) := by
  unfold State.readD3
  repeat' first
    | with_reducible assumption
    | with_reducible apply State.modMbx_follows

theorem State.keepLocked_follows {s0 s : State} (h : s0.Follows s) : s0.Follows (State.keepLocked s) := by
  unfold State.keepLocked
  try dsimp only
  repeat' first
    | with_reducible assumption
    | with_reducible apply State.keepViolation_follows
    | with_reducible (simp only [follows_mk])
    | split
    | (intro _ _ _)

theorem State.writeCode_follows {s0 s : State} (h : s0.Follows s) (a2 a3) : s0.Follows (State.writeCode s a2 a3) := by
  unfold State.writeCode
  repeat' first
    | with_reducible assumption
    | with_reducible apply State.keepViolation_follows
    | split

theorem State.cfgAccess_follows {s0 s : State} (h : s0.Follows s) (a2 a3 a4) (h4 : ∀ x0, s0.Follows x0 → s0.Follows (a4 x0)) : s0.Follows (State.cfgAccess s a2 a3 a4) := by
  unfold State.cfgAccess
  repeat' first
    | with_reducible assumption
    | with_reducible apply State.dropWrite_follows
    | with_reducible apply State.badValue_follows
    | with_reducible apply State.keepLocked_follows
    | with_reducible apply h4
    | split

theorem State.upsetCfg_follows {s0 s : State} (h : s0.Follows s) (a2) : s0.Follows (State.upsetCfg s a2) := by
  unfold State.upsetCfg
  try dsimp only
  repeat' first
    | with_reducible assumption
    | with_reducible apply State.modBundle_follows
    | with_reducible apply State.modLink_follows
    | with_reducible apply State.modPart_follows
    | with_reducible (refine State.modPwr_follows ?_ _ (fun hx => hx))
    | with_reducible apply State.modArr_follows
    | with_reducible apply State.gateFar_follows
    | with_reducible (refine follows_modHbm ?_ _ _ (fun _ hx => hx))
    | with_reducible apply State.modLan_follows
    | split

theorem State.scanDomain_follows {s0 s : State} (h : s0.Follows s) (a2 a3) : s0.Follows (State.scanDomain s a2 a3) := by
  unfold State.scanDomain
  try dsimp only
  repeat' first
    | with_reducible assumption
    | with_reducible apply State.modDom_follows
    | with_reducible apply State.report_follows
    | split

theorem State.answerReg_follows {s0 s : State} (h : s0.Follows s) (a2 a3 a4) : s0.Follows (State.answerReg s a2 a3 a4) := by
  unfold State.answerReg
  repeat' first
    | with_reducible assumption
    | with_reducible (simp only [follows_mk])

theorem State.readBlock_follows {s0 s : State} (h : s0.Follows s) (a2 a3 a4 a5 a6 a7) : s0.Follows (State.readBlock s a2 a3 a4 a5 a6 a7) := by
  unfold State.readBlock
  repeat' first
    | with_reducible assumption
    | with_reducible apply State.answerReg_follows
    | with_reducible apply State.modDom_follows
    | with_reducible apply State.report_follows
    | with_reducible apply State.readD3_follows
    | with_reducible (simp only [follows_mk])
    | split

theorem State.readAt_follows {s0 s : State} (h : s0.Follows s) (a2 a3 a4 a5) : s0.Follows (State.readAt s a2 a3 a4 a5) := by
  unfold State.readAt
  try dsimp only
  repeat' first
    | with_reducible assumption
    | with_reducible apply State.answerUnsupported_follows
    | with_reducible apply State.answerReg_follows
    | with_reducible apply State.readBlock_follows
    | split

theorem State.writeRm_follows {s0 s : State} (h : s0.Follows s) (a2 a3 a4 a5 a6) (h6 : ∀ x0, s0.Follows (a6 x0)) : s0.Follows (State.writeRm s a2 a3 a4 a5 a6) := by
  unfold State.writeRm
  try dsimp only
  repeat' first
    | with_reducible assumption
    | with_reducible apply State.badValue_follows
    | with_reducible apply h6
    | split

theorem State.writeQuota_follows {s0 s : State} (h : s0.Follows s) (a2 a3 a4) : s0.Follows (State.writeQuota s a2 a3 a4) := by
  unfold State.writeQuota
  repeat' first
    | with_reducible assumption
    | with_reducible refine follows_getD (State.setQuota_follows ?_ _ _ _) ?_
    | with_reducible apply State.badValue_follows

theorem State.writeHst_follows {s0 s : State} (h : s0.Follows s) (a2 a3 a4 a5) : s0.Follows (State.writeHst s a2 a3 a4 a5) := by
  unfold State.writeHst
  repeat' first
    | with_reducible assumption
    | with_reducible apply State.dropWrite_follows
    | with_reducible apply State.writeQuota_follows
    | with_reducible apply State.modPart_follows
    | with_reducible apply State.badValue_follows
    | with_reducible apply State.writePartReset_follows
    | split

theorem State.writeBase_follows {s0 s : State} (h : s0.Follows s) (a2 a3 a4 a5 a6) : s0.Follows (State.writeBase s a2 a3 a4 a5 a6) := by
  unfold State.writeBase
  try dsimp only
  repeat' first
    | with_reducible assumption
    | with_reducible apply State.badValue_follows
    | with_reducible apply State.modQp_follows
    | split

theorem State.writeQueue_follows {s0 s : State} (h : s0.Follows s) (a2 a3 a4 a5) : s0.Follows (State.writeQueue s a2 a3 a4 a5) := by
  unfold State.writeQueue
  repeat' first
    | with_reducible assumption
    | with_reducible apply State.writeQCtrl_follows
    | with_reducible apply State.writeBase_follows
    | with_reducible apply State.writeTail_follows
    | with_reducible apply State.writeHead_follows
    | split

theorem State.clearStatus_follows {s0 s : State} (h : s0.Follows s) (a2 a3 a4) : s0.Follows (State.clearStatus s a2 a3 a4) := by
  unfold State.clearStatus
  repeat' first
    | with_reducible assumption
    | with_reducible apply State.modDom_follows
    | split

theorem State.writeCommit_follows {s0 s : State} (h : s0.Follows s) (a2 a3) : s0.Follows (State.writeCommit s a2 a3) := by
  unfold State.writeCommit
  try dsimp only
  repeat' first
    | with_reducible assumption
    | with_reducible apply State.cfgAccess_follows
    | with_reducible apply State.modDom_follows
    | with_reducible apply State.dropWrite_follows
    | with_reducible apply State.badValue_follows
    | split
    | (intro _ _)

theorem State.writeDrm_follows {s0 s : State} (h : s0.Follows s) (a2 a3 a4) : s0.Follows (State.writeDrm s a2 a3 a4) := by
  unfold State.writeDrm
  repeat' first
    | with_reducible assumption
    | with_reducible apply State.clearStatus_follows
    | with_reducible apply State.writeSteward_follows
    | with_reducible apply State.writeResetCtrl_follows
    | with_reducible apply State.capture64_follows
    | with_reducible apply State.writeCommit_follows
    | split

theorem State.writeReg_follows {s0 s : State} (h : s0.Follows s) (a2 a3 a4 a5 a6) : s0.Follows (State.writeReg s a2 a3 a4 a5 a6) := by
  unfold State.writeReg
  try dsimp only
  repeat' first
    | with_reducible assumption
    | with_reducible apply State.atTime_follows
    | (intro _)
    | with_reducible apply State.writeDrm_follows
    | with_reducible apply State.modArr_follows
    | with_reducible apply State.writeRm_follows
    | with_reducible apply State.gateFar_follows
    | with_reducible (refine follows_modHbm ?_ _ _ (fun _ hx => hx))
    | with_reducible apply State.modLan_follows
    | with_reducible apply State.modBundle_follows
    | with_reducible apply State.modLink_follows
    | with_reducible apply State.modFab_follows
    | with_reducible (refine State.modPwr_follows ?_ _ (fun hx => hx))
    | with_reducible (refine State.modPwr_follows ?_ _ (fun _ => by dsimp only; decide))
    | with_reducible (refine State.modPwr_follows ?_ _ (fun hx => by dsimp only; split <;> exact hx))
    | with_reducible apply State.modThm_follows
    | with_reducible apply State.modBel_follows
    | with_reducible apply State.writeFltEntry_follows
    | with_reducible apply State.writeHst_follows
    | with_reducible refine follows_in_some ?_
    | with_reducible refine follows_in_none
    | with_reducible refine follows_in_some_fst ?_
    | with_reducible refine follows_in_some_snd ?_
    | with_reducible refine follows_in_none_fst
    | with_reducible refine follows_in_none_snd
    | with_reducible apply follows_foldl
    | with_reducible apply follows_foldl_fst
    | with_reducible apply follows_iterate
    | with_reducible (simp only [follows_mk])
    | split
    | (intro _ _ _)
    | (intro _ _)

theorem State.accessErr_follows {s0 s : State} (h : s0.Follows s) (a2) : s0.Follows (State.accessErr s a2) := by
  unfold State.accessErr
  repeat' first
    | with_reducible assumption
    | with_reducible apply State.modDom_follows

theorem State.writeBlock_follows {s0 s : State} (h : s0.Follows s) (a2 a3 a4 a5 a6 a7 a8) : s0.Follows (State.writeBlock s a2 a3 a4 a5 a6 a7 a8) := by
  unfold State.writeBlock
  try dsimp only
  repeat' first
    | with_reducible assumption
    | with_reducible apply State.dropWrite_follows
    | with_reducible apply State.accessErr_follows
    | with_reducible apply State.modDom_follows
    | with_reducible apply State.writeReg_follows
    | with_reducible apply State.report_follows
    | split

theorem State.writeMsix_follows {s0 s : State} (h : s0.Follows s) (a2 a3 a4) : s0.Follows (State.writeMsix s a2 a3 a4) := by
  unfold State.writeMsix
  try dsimp only
  repeat' first
    | with_reducible assumption
    | with_reducible apply State.modPort_follows
    | with_reducible apply State.msi_follows
    | split

theorem State.writeAt_follows {s0 s : State} (h : s0.Follows s) (a2 a3 a4 a5 a6) : s0.Follows (State.writeAt s a2 a3 a4 a5 a6) := by
  unfold State.writeAt
  try dsimp only
  repeat' first
    | with_reducible assumption
    | with_reducible apply State.writeBlock_follows
    | with_reducible apply State.dropWrite_follows
    | with_reducible apply State.accessErr_follows
    | with_reducible apply State.writeHst_follows
    | with_reducible apply State.writeQueue_follows
    | with_reducible apply State.writeOffer_follows
    | with_reducible apply State.writeMsix_follows
    | with_reducible apply State.writeCode_follows
    | with_reducible (simp only [follows_mk])
    | split
    | (intro _ _ _)

end Sys2Proof.Machine
end

