-- ==== Sys2Proof/Laws/KeepExec1.lean ====
section
/-! SUPPORT. What a command answers follows the state it acts on, as `State.Follows` says: one lemma per meaning, but for
POWER_ON and POWER_OFF, with which the time base starts anew. -/

set_option Elab.async false

namespace Sys2Proof.Machine

theorem execFlitTransmit_follows {s0 s : State} (h : s0.Follows s) (a1 a2) : ∀ x, (execFlitTransmit a1 a2 s) = .next x → s0.Follows x := by
  intro x hx
  unfold execFlitTransmit at hx
  try dsimp only at hx
  with_reducible obtain rfl := Host.Outcome.next.inj hx
  all_goals repeat' first
    | with_reducible assumption
    | with_reducible apply State.linkEvent_follows
    | with_reducible apply State.modLink_follows
    | with_reducible apply State.modBundle_follows
    | split

theorem execFlitReceive_follows {s0 s : State} (h : s0.Follows s) (a1 a2 a3) : ∀ x, (execFlitReceive a1 a2 a3 s) = .next x → s0.Follows x := by
  intro x hx
  unfold execFlitReceive at hx
  try dsimp only at hx
  with_reducible obtain rfl := Host.Outcome.next.inj hx
  all_goals repeat' first
    | with_reducible assumption
    | with_reducible apply State.linkEvent_follows
    | with_reducible apply State.receiveFlit_follows
    | split

theorem execAckCoalesceTimer_follows {s0 s : State} (h : s0.Follows s) (a1 a2) : ∀ x, (execAckCoalesceTimer a1 a2 s) = .next x → s0.Follows x := by
  intro x hx
  unfold execAckCoalesceTimer at hx
  try dsimp only at hx
  with_reducible obtain rfl := Host.Outcome.next.inj hx
  all_goals repeat' first
    | with_reducible assumption
    | with_reducible apply State.modLink_follows
    | with_reducible apply State.linkEvent_follows

theorem execCreditReport_follows {s0 s : State} (h : s0.Follows s) (a1 a2 a3 a4) : ∀ x, (execCreditReport a1 a2 a3 a4 s) = .next x → s0.Follows x := by
  intro x hx
  unfold execCreditReport at hx
  try dsimp only at hx
  with_reducible obtain rfl := Host.Outcome.next.inj hx
  all_goals repeat' first
    | with_reducible assumption
    | with_reducible apply State.modLink_follows
    | with_reducible apply State.linkEvent_follows

theorem execCreditReceive_follows {s0 s : State} (h : s0.Follows s) (a1 a2 a3 a4) : ∀ x, (execCreditReceive a1 a2 a3 a4 s) = .next x → s0.Follows x := by
  intro x hx
  unfold execCreditReceive at hx
  try dsimp only at hx
  with_reducible obtain rfl := Host.Outcome.next.inj hx
  all_goals repeat' first
    | with_reducible assumption
    | with_reducible apply State.linkEvent_follows
    | with_reducible apply State.violation_follows
    | with_reducible apply State.modLink_follows
    | split

theorem execReplayTimeout_follows {s0 s : State} (h : s0.Follows s) (a1 a2) : ∀ x, (execReplayTimeout a1 a2 s) = .next x → s0.Follows x := by
  intro x hx
  unfold execReplayTimeout at hx
  try dsimp only at hx
  with_reducible obtain rfl := Host.Outcome.next.inj hx
  all_goals repeat' first
    | with_reducible assumption
    | with_reducible apply State.linkEvent_follows
    | with_reducible apply State.beginReplay_follows
    | split

theorem execRetrainTimeout_follows {s0 s : State} (h : s0.Follows s) (a1 a2) : ∀ x, (execRetrainTimeout a1 a2 s) = .next x → s0.Follows x := by
  intro x hx
  unfold execRetrainTimeout at hx
  try dsimp only at hx
  with_reducible obtain rfl := Host.Outcome.next.inj hx
  all_goals repeat' first
    | with_reducible assumption
    | with_reducible apply State.linkEvent_follows
    | with_reducible apply State.linkDown_follows
    | split

theorem execReplayRateFault_follows {s0 s : State} (h : s0.Follows s) (a1 a2) : ∀ x, (execReplayRateFault a1 a2 s) = .next x → s0.Follows x := by
  intro x hx
  unfold execReplayRateFault at hx
  try dsimp only at hx
  with_reducible obtain rfl := Host.Outcome.next.inj hx
  all_goals repeat' first
    | with_reducible assumption
    | with_reducible apply State.linkEvent_follows
    | with_reducible apply State.report_follows
    | with_reducible apply State.modLink_follows
    | split

theorem execInitReceive_follows {s0 s : State} (h : s0.Follows s) (a1 a2 a3 a4) : ∀ x, (execInitReceive a1 a2 a3 a4 s) = .next x → s0.Follows x := by
  intro x hx
  unfold execInitReceive at hx
  try dsimp only at hx
  with_reducible obtain rfl := Host.Outcome.next.inj hx
  all_goals repeat' first
    | with_reducible assumption
    | with_reducible apply State.modLink_follows
    | with_reducible apply State.linkEvent_follows

theorem execLaneFomMeasure_follows {s0 s : State} (h : s0.Follows s) (a1 a2 a3) : ∀ x, (execLaneFomMeasure a1 a2 a3 s) = .next x → s0.Follows x := by
  intro x hx
  unfold execLaneFomMeasure at hx
  try dsimp only at hx
  with_reducible obtain rfl := Host.Outcome.next.inj hx
  all_goals repeat' first
    | with_reducible assumption
    | with_reducible apply State.atTime_follows
    | with_reducible apply State.modBundle_follows
    | with_reducible apply State.declareLane_follows
    | with_reducible apply follows_foldl
    | split
    | (intro _ _ _)

theorem execLaneFailure_follows {s0 s : State} (h : s0.Follows s) (a1 a2 a3 a4) : ∀ x, (execLaneFailure a1 a2 a3 a4 s) = .next x → s0.Follows x := by
  intro x hx
  unfold execLaneFailure at hx
  try dsimp only at hx
  with_reducible obtain rfl := Host.Outcome.next.inj hx
  all_goals repeat' first
    | with_reducible assumption
    | with_reducible apply State.atTime_follows
    | with_reducible apply State.receiveBlocks_follows
    | with_reducible apply State.declareLane_follows
    | split

theorem execSpareEqSweep_follows {s0 s : State} (h : s0.Follows s) (a1 a2 a3 a4) : ∀ x, (execSpareEqSweep a1 a2 a3 a4 s) = .next x → s0.Follows x := by
  intro x hx
  unfold execSpareEqSweep at hx
  try dsimp only at hx
  with_reducible obtain rfl := Host.Outcome.next.inj hx
  all_goals repeat' first
    | with_reducible assumption
    | with_reducible apply State.atTime_follows
    | with_reducible apply State.modBundle_follows
    | split

theorem execBundleSleep_follows {s0 s : State} (h : s0.Follows s) (a1 a2) : ∀ x, (execBundleSleep a1 a2 s) = .next x → s0.Follows x := by
  intro x hx
  unfold execBundleSleep at hx
  try dsimp only at hx
  with_reducible obtain rfl := Host.Outcome.next.inj hx
  all_goals repeat' first
    | with_reducible assumption
    | with_reducible apply State.atTime_follows
    | with_reducible apply State.oculusUpdate_follows
    | with_reducible apply State.modBundle_follows
    | split

theorem execBundleWake_follows {s0 s : State} (h : s0.Follows s) (a1 a2) : ∀ x, (execBundleWake a1 a2 s) = .next x → s0.Follows x := by
  intro x hx
  unfold execBundleWake at hx
  try dsimp only at hx
  with_reducible obtain rfl := Host.Outcome.next.inj hx
  all_goals repeat' first
    | with_reducible assumption
    | with_reducible apply State.atTime_follows
    | with_reducible apply State.oculusUpdate_follows
    | with_reducible apply State.modBundle_follows
    | split

theorem execTimeBlock_follows {s0 s : State} (h : s0.Follows s) (a1 a2 a3) : ∀ x, (execTimeBlock a1 a2 a3 s) = .next x → s0.Follows x := by
  intro x hx
  unfold execTimeBlock at hx
  try dsimp only at hx
  with_reducible obtain rfl := Host.Outcome.next.inj hx
  all_goals repeat' first
    | with_reducible assumption
    | with_reducible apply State.atTime_follows
    | with_reducible apply State.modArr_follows
    | with_reducible apply State.takeFree_follows
    | split

theorem execUcieModuleLoss_follows {s0 s : State} (h : s0.Follows s) (a1 a2 a3) : ∀ x, (execUcieModuleLoss a1 a2 a3 s) = .next x → s0.Follows x := by
  intro x hx
  unfold execUcieModuleLoss at hx
  try dsimp only at hx
  with_reducible obtain rfl := Host.Outcome.next.inj hx
  all_goals repeat' first
    | with_reducible assumption
    | with_reducible apply State.atTime_follows
    | with_reducible apply State.report_follows
    | with_reducible apply State.oculusUpdate_follows
    | with_reducible apply State.modLan_follows
    | with_reducible apply State.fenceLantern_follows
    | split

theorem execDownRetry_follows {s0 s : State} (h : s0.Follows s) (a1 a2 a3) : ∀ x, (execDownRetry a1 a2 a3 s) = .next x → s0.Follows x := by
  intro x hx
  unfold execDownRetry at hx
  try dsimp only at hx
  with_reducible obtain rfl := Host.Outcome.next.inj hx
  all_goals repeat' first
    | with_reducible assumption
    | with_reducible apply State.linkEvent_follows
    | with_reducible apply State.trainBundle_follows
    | with_reducible apply State.oculusUpdate_follows
    | with_reducible apply State.modLink_follows
    | split

theorem execWidthReq_follows {s0 s : State} (h : s0.Follows s) (a1 a2 a3 a4 a5 a6) : ∀ x, (execWidthReq a1 a2 a3 a4 a5 a6 s) = .next x → s0.Follows x := by
  intro x hx
  unfold execWidthReq at hx
  try dsimp only at hx
  with_reducible obtain rfl := Host.Outcome.next.inj hx
  all_goals repeat' first
    | with_reducible assumption
    | with_reducible apply State.linkEvent_follows
    | with_reducible apply State.reAdded_follows
    | with_reducible apply State.portSettled_follows
    | with_reducible apply State.switchTx_follows
    | with_reducible apply State.modLink_follows
    | with_reducible (simp only [follows_mk])
    | split

theorem execWidthSwitch_follows {s0 s : State} (h : s0.Follows s) (a1 a2 a3 a4 a5 a6) : ∀ x, (execWidthSwitch a1 a2 a3 a4 a5 a6 s) = .next x → s0.Follows x := by
  intro x hx
  unfold execWidthSwitch at hx
  try dsimp only at hx
  with_reducible obtain rfl := Host.Outcome.next.inj hx
  all_goals repeat' first
    | with_reducible assumption
    | with_reducible apply State.oculusUpdate_follows
    | with_reducible apply State.linkEvent_follows
    | with_reducible apply State.laneChanged_follows
    | with_reducible apply State.countDrop_follows
    | with_reducible apply State.modLPort_follows
    | with_reducible apply State.modLink_follows
    | with_reducible apply State.changeLane_follows
    | with_reducible apply State.modBundle_follows
    | split

theorem execWidthDone_follows {s0 s : State} (h : s0.Follows s) (a1 a2 a3) : ∀ x, (execWidthDone a1 a2 a3 s) = .next x → s0.Follows x := by
  intro x hx
  unfold execWidthDone at hx
  try dsimp only at hx
  with_reducible obtain rfl := Host.Outcome.next.inj hx
  all_goals repeat' first
    | with_reducible assumption
    | with_reducible apply State.takeTx_follows
    | with_reducible apply State.linkEvent_follows
    | with_reducible apply State.modLink_follows
    | with_reducible apply State.switchTx_follows
    | split

theorem execRetrainComplete_follows {s0 s : State} (h : s0.Follows s) (a1 a2) : ∀ x, (execRetrainComplete a1 a2 s) = .next x → s0.Follows x := by
  intro x hx
  unfold execRetrainComplete at hx
  try dsimp only at hx
  with_reducible obtain rfl := Host.Outcome.next.inj hx
  all_goals repeat' first
    | with_reducible assumption
    | with_reducible apply State.checkLanes_follows
    | with_reducible apply State.settleWidths_follows
    | with_reducible apply State.linkEvent_follows
    | with_reducible apply State.report_follows
    | with_reducible apply State.modLink_follows
    | split

theorem execAckReceive_follows {s0 s : State} (h : s0.Follows s) (a1 a2 a3) : ∀ x, (execAckReceive a1 a2 a3 s) = .next x → s0.Follows x := by
  intro x hx
  unfold execAckReceive at hx
  try dsimp only at hx
  with_reducible obtain rfl := Host.Outcome.next.inj hx
  all_goals repeat' first
    | with_reducible assumption
    | with_reducible apply State.linkEvent_follows
    | with_reducible apply State.settleOrderly_follows
    | with_reducible apply State.modLink_follows
    | with_reducible apply State.violation_follows
    | split

theorem execNakReceive_follows {s0 s : State} (h : s0.Follows s) (a1 a2 a3) : ∀ x, (execNakReceive a1 a2 a3 s) = .next x → s0.Follows x := by
  intro x hx
  unfold execNakReceive at hx
  try dsimp only at hx
  with_reducible obtain rfl := Host.Outcome.next.inj hx
  all_goals repeat' first
    | with_reducible assumption
    | with_reducible apply State.linkEvent_follows
    | with_reducible apply State.settleOrderly_follows
    | with_reducible apply State.modLink_follows
    | with_reducible apply State.beginReplay_follows
    | split

theorem execFenceNoteReceive_follows {s0 s : State} (h : s0.Follows s) (a1 a2 a3) : ∀ x, (execFenceNoteReceive a1 a2 a3 s) = .next x → s0.Follows x := by
  intro x hx
  unfold execFenceNoteReceive at hx
  try dsimp only at hx
  with_reducible obtain rfl := Host.Outcome.next.inj hx
  all_goals repeat' first
    | with_reducible assumption
    | with_reducible apply State.linkEvent_follows
    | with_reducible apply State.modLink_follows
    | with_reducible apply State.moveEntry_follows
    | with_reducible apply State.settleOrderly_follows
    | with_reducible apply follows_foldl
    | split
    | (intro _ _ _)

theorem execRingLockUpdate_follows {s0 s : State} (h : s0.Follows s) (a1 a2 a3 a4) : ∀ x, (execRingLockUpdate a1 a2 a3 a4 s) = .next x → s0.Follows x := by
  intro x hx
  unfold execRingLockUpdate at hx
  try dsimp only at hx
  with_reducible obtain rfl := Host.Outcome.next.inj hx
  all_goals repeat' first
    | with_reducible assumption
    | with_reducible apply State.atTime_follows
    | with_reducible apply State.takeFree_follows
    | with_reducible apply State.modLan_follows
    | with_reducible (simp only [follows_mk])

theorem execLaserCheck_follows {s0 s : State} (h : s0.Follows s) (a1 a2 a3 a4 a5 a6 a7) : ∀ x, (execLaserCheck a1 a2 a3 a4 a5 a6 a7 s) = .next x → s0.Follows x := by
  intro x hx
  unfold execLaserCheck at hx
  try dsimp only at hx
  with_reducible obtain rfl := Host.Outcome.next.inj hx
  all_goals repeat' first
    | with_reducible assumption
    | with_reducible apply State.atTime_follows
    | with_reducible apply State.modLan_follows
    | with_reducible apply State.report_follows
    | with_reducible apply State.oculusUpdate_follows
    | with_reducible apply State.forceWave_follows
    | with_reducible apply State.warnSwap_follows
    | split

theorem execLaserSuddenFade_follows {s0 s : State} (h : s0.Follows s) (a1 a2 a3) : ∀ x, (execLaserSuddenFade a1 a2 a3 s) = .next x → s0.Follows x := by
  intro x hx
  unfold execLaserSuddenFade at hx
  try dsimp only at hx
  with_reducible obtain rfl := Host.Outcome.next.inj hx
  all_goals repeat' first
    | with_reducible assumption
    | with_reducible apply State.atTime_follows
    | with_reducible apply State.modLan_follows
    | with_reducible apply State.report_follows
    | with_reducible apply State.oculusUpdate_follows
    | with_reducible apply State.forceWave_follows
    | split

theorem execSpareLocked_follows {s0 s : State} (h : s0.Follows s) (a1 a2 a3) : ∀ x, (execSpareLocked a1 a2 a3 s) = .next x → s0.Follows x := by
  intro x hx
  unfold execSpareLocked at hx
  try dsimp only at hx
  with_reducible obtain rfl := Host.Outcome.next.inj hx
  all_goals repeat' first
    | with_reducible assumption
    | with_reducible apply State.atTime_follows
    | with_reducible apply State.oculusUpdate_follows
    | with_reducible apply State.modLan_follows
    | with_reducible apply State.runSwap_follows
    | with_reducible apply State.switchSpare_follows
    | split

theorem execSpareLockFail_follows {s0 s : State} (h : s0.Follows s) (a1 a2 a3) : ∀ x, (execSpareLockFail a1 a2 a3 s) = .next x → s0.Follows x := by
  intro x hx
  unfold execSpareLockFail at hx
  try dsimp only at hx
  with_reducible obtain rfl := Host.Outcome.next.inj hx
  all_goals repeat' first
    | with_reducible assumption
    | with_reducible apply State.noSpare_follows
    | with_reducible apply State.atTime_follows
    | with_reducible apply State.report_follows
    | with_reducible apply State.oculusUpdate_follows
    | with_reducible apply State.modLan_follows
    | with_reducible refine follows_some (by assumption) (State.beginSwap_follows ?_ _ _ _ _ _ _)
    | with_reducible apply State.nextSwap_follows
    | with_reducible apply State.replySwap_follows
    | with_reducible apply State.retireWave_follows
    | split

theorem execCalGapStart_follows {s0 s : State} (h : s0.Follows s) (a1 a2) : ∀ x, (execCalGapStart a1 a2 s) = .next x → s0.Follows x := by
  intro x hx
  unfold execCalGapStart at hx
  try dsimp only at hx
  with_reducible obtain rfl := Host.Outcome.next.inj hx
  all_goals repeat' first
    | with_reducible assumption
    | with_reducible apply State.atTime_follows
    | with_reducible apply State.dueGap_follows

theorem execCalGapTimeout_follows {s0 s : State} (h : s0.Follows s) (a1 a2 a3) : ∀ x, (execCalGapTimeout a1 a2 a3 s) = .next x → s0.Follows x := by
  intro x hx
  unfold execCalGapTimeout at hx
  try dsimp only at hx
  repeat' first
    | (with_reducible obtain rfl := Host.Outcome.next.inj hx)
    | split at hx
  all_goals repeat' first
    | with_reducible assumption
    | with_reducible apply State.atTime_follows
    | with_reducible apply State.portSettled_follows
    | with_reducible apply State.modLPort_follows

theorem execCalGapHoldEnd_follows {s0 s : State} (h : s0.Follows s) (a1 a2) : ∀ x, (execCalGapHoldEnd a1 a2 s) = .next x → s0.Follows x := by
  intro x hx
  unfold execCalGapHoldEnd at hx
  try dsimp only at hx
  with_reducible obtain rfl := Host.Outcome.next.inj hx
  all_goals repeat' first
    | with_reducible assumption
    | with_reducible apply State.atTime_follows
    | with_reducible apply State.modLan_follows
    | with_reducible apply State.dueGap_follows
    | with_reducible (simp only [follows_mk])
    | split

theorem execLambdaFail_follows {s0 s : State} (h : s0.Follows s) (a1 a2 a3 a4) : ∀ x, (execLambdaFail a1 a2 a3 a4 s) = .next x → s0.Follows x := by
  intro x hx
  unfold execLambdaFail at hx
  try dsimp only at hx
  with_reducible obtain rfl := Host.Outcome.next.inj hx
  all_goals repeat' first
    | with_reducible assumption
    | with_reducible apply State.atTime_follows
    | with_reducible apply State.lambdaLost_follows
    | with_reducible apply State.receiveWords_follows
    | split

theorem execModRingLockLoss_follows {s0 s : State} (h : s0.Follows s) (a1 a2 a3 a4) : ∀ x, (execModRingLockLoss a1 a2 a3 a4 s) = .next x → s0.Follows x := by
  intro x hx
  unfold execModRingLockLoss at hx
  try dsimp only at hx
  with_reducible obtain rfl := Host.Outcome.next.inj hx
  all_goals repeat' first
    | with_reducible assumption
    | with_reducible apply State.atTime_follows
    | with_reducible apply State.startWidth_follows
    | with_reducible apply State.modLPort_follows
    | split

theorem execLambdaRelockAttempt_follows {s0 s : State} (h : s0.Follows s) (a1 a2 a3 a4 a5 a6) : ∀ x, (execLambdaRelockAttempt a1 a2 a3 a4 a5 a6 s) = .next x → s0.Follows x := by
  intro x hx
  unfold execLambdaRelockAttempt at hx
  try dsimp only at hx
  with_reducible obtain rfl := Host.Outcome.next.inj hx
  all_goals repeat' first
    | with_reducible assumption
    | with_reducible apply State.atTime_follows
    | with_reducible apply State.modLPort_follows
    | with_reducible apply State.reAdded_follows
    | with_reducible apply State.startWidth_follows
    | with_reducible apply State.requestWidth_follows
    | with_reducible apply State.report_follows
    | with_reducible (simp only [follows_mk])
    | split

theorem execLambdaDropTimeout_follows {s0 s : State} (h : s0.Follows s) (a1 a2 a3 a4 a5) : ∀ x, (execLambdaDropTimeout a1 a2 a3 a4 a5 s) = .next x → s0.Follows x := by
  intro x hx
  unfold execLambdaDropTimeout at hx
  try dsimp only at hx
  with_reducible obtain rfl := Host.Outcome.next.inj hx
  all_goals repeat' first
    | with_reducible assumption
    | with_reducible apply State.atTime_follows
    | with_reducible apply State.report_follows
    | with_reducible apply State.modLPort_follows
    | split

theorem execSerCheck_follows {s0 s : State} (h : s0.Follows s) (a1 a2 a3 a4 a5 a6) : ∀ x, (execSerCheck a1 a2 a3 a4 a5 a6 s) = .next x → s0.Follows x := by
  intro x hx
  unfold execSerCheck at hx
  try dsimp only at hx
  with_reducible obtain rfl := Host.Outcome.next.inj hx
  all_goals repeat' first
    | with_reducible assumption
    | with_reducible apply State.atTime_follows
    | with_reducible apply State.modLan_follows
    | with_reducible apply State.modLPort_follows
    | with_reducible apply State.report_follows
    | split

theorem execShellOpen_follows {s0 s : State} (h : s0.Follows s) (a1 a2) : ∀ x, (execShellOpen a1 a2 s) = .next x → s0.Follows x := by
  intro x hx
  unfold execShellOpen at hx
  try dsimp only at hx
  with_reducible obtain rfl := Host.Outcome.next.inj hx
  all_goals repeat' first
    | with_reducible assumption
    | with_reducible apply State.atTime_follows
    | with_reducible apply State.modLan_follows
    | with_reducible apply State.dropAll_follows
    | with_reducible apply State.oculusUpdate_follows
    | with_reducible apply State.report_follows
    | with_reducible apply State.completeDrain_follows
    | with_reducible apply State.testShutters_follows
    | with_reducible (simp only [follows_mk])
    | split

theorem execShellClosed_follows {s0 s : State} (h : s0.Follows s) (a1 a2) : ∀ x, (execShellClosed a1 a2 s) = .next x → s0.Follows x := by
  intro x hx
  unfold execShellClosed at hx
  try dsimp only at hx
  with_reducible obtain rfl := Host.Outcome.next.inj hx
  all_goals repeat' first
    | with_reducible assumption
    | with_reducible apply State.atTime_follows
    | with_reducible apply State.modLan_follows
    | with_reducible apply State.oculusUpdate_follows
    | with_reducible apply State.relight_follows
    | with_reducible apply State.dueGap_follows
    | with_reducible (simp only [follows_mk])
    | split

theorem execRxLightLoss_follows {s0 s : State} (h : s0.Follows s) (a1 a2 a3) : ∀ x, (execRxLightLoss a1 a2 a3 s) = .next x → s0.Follows x := by
  intro x hx
  unfold execRxLightLoss at hx
  try dsimp only at hx
  with_reducible obtain rfl := Host.Outcome.next.inj hx
  all_goals repeat' first
    | with_reducible assumption
    | with_reducible apply State.atTime_follows
    | with_reducible apply State.oculusUpdate_follows
    | with_reducible apply State.dropPort_follows
    | split

theorem execBeaconReceive_follows {s0 s : State} (h : s0.Follows s) (a1 a2 a3 a4) : ∀ x, (execBeaconReceive a1 a2 a3 a4 s) = .next x → s0.Follows x := by
  intro x hx
  unfold execBeaconReceive at hx
  try dsimp only at hx
  with_reducible obtain rfl := Host.Outcome.next.inj hx
  all_goals repeat' first
    | with_reducible assumption
    | with_reducible apply State.atTime_follows
    | with_reducible apply State.modLPort_follows
    | with_reducible apply State.sendReady_follows
    | with_reducible apply State.oculusUpdate_follows
    | with_reducible apply State.setLight_follows
    | split

theorem execRampTimeout_follows {s0 s : State} (h : s0.Follows s) (a1 a2 a3) : ∀ x, (execRampTimeout a1 a2 a3 s) = .next x → s0.Follows x := by
  intro x hx
  unfold execRampTimeout at hx
  try dsimp only at hx
  with_reducible obtain rfl := Host.Outcome.next.inj hx
  all_goals repeat' first
    | with_reducible assumption
    | with_reducible apply State.atTime_follows
    | with_reducible apply State.backOff_follows
    | split

theorem execBeaconTimeout_follows {s0 s : State} (h : s0.Follows s) (a1 a2 a3) : ∀ x, (execBeaconTimeout a1 a2 a3 s) = .next x → s0.Follows x := by
  intro x hx
  unfold execBeaconTimeout at hx
  try dsimp only at hx
  with_reducible obtain rfl := Host.Outcome.next.inj hx
  all_goals repeat' first
    | with_reducible assumption
    | with_reducible apply State.atTime_follows
    | with_reducible apply State.backOff_follows
    | with_reducible apply State.modLPort_follows
    | with_reducible (simp only [follows_mk])
    | split

theorem execReadyRetry_follows {s0 s : State} (h : s0.Follows s) (a1 a2 a3) : ∀ x, (execReadyRetry a1 a2 a3 s) = .next x → s0.Follows x := by
  intro x hx
  unfold execReadyRetry at hx
  try dsimp only at hx
  with_reducible obtain rfl := Host.Outcome.next.inj hx
  all_goals repeat' first
    | with_reducible assumption
    | with_reducible apply State.atTime_follows
    | with_reducible apply State.modLPort_follows
    | with_reducible apply State.sendReady_follows
    | split

theorem execPortRampComplete_follows {s0 s : State} (h : s0.Follows s) (a1 a2 a3 a4) : ∀ x, (execPortRampComplete a1 a2 a3 a4 s) = .next x → s0.Follows x := by
  intro x hx
  unfold execPortRampComplete at hx
  try dsimp only at hx
  with_reducible obtain rfl := Host.Outcome.next.inj hx
  all_goals repeat' first
    | with_reducible assumption
    | with_reducible apply State.atTime_follows
    | with_reducible apply State.setLight_follows
    | with_reducible apply State.resumeSwap_follows
    | with_reducible apply State.baseLanes_follows
    | with_reducible apply State.modLPort_follows
    | with_reducible apply State.modLink_follows
    | with_reducible apply State.oculusUpdate_follows
    | with_reducible (simp only [follows_mk])
    | split

theorem execSvcButtonPress_follows {s0 s : State} (h : s0.Follows s) (a1 a2) : ∀ x, (execSvcButtonPress a1 a2 s) = .next x → s0.Follows x := by
  intro x hx
  unfold execSvcButtonPress at hx
  try dsimp only at hx
  with_reducible obtain rfl := Host.Outcome.next.inj hx
  all_goals repeat' first
    | with_reducible assumption
    | with_reducible apply State.atTime_follows
    | with_reducible apply State.modLan_follows
    | with_reducible apply State.startDrain_follows
    | with_reducible apply State.startRestore_follows
    | with_reducible apply State.settleRestore_follows
    | with_reducible (simp only [follows_mk])
    | split

theorem execDrainPortsEmpty_follows {s0 s : State} (h : s0.Follows s) (a1 a2) : ∀ x, (execDrainPortsEmpty a1 a2 s) = .next x → s0.Follows x := by
  intro x hx
  unfold execDrainPortsEmpty at hx
  try dsimp only at hx
  with_reducible obtain rfl := Host.Outcome.next.inj hx
  all_goals repeat' first
    | with_reducible assumption
    | with_reducible apply State.atTime_follows
    | with_reducible apply State.completeDrain_follows
    | with_reducible apply State.testShutters_follows
    | split

theorem execDrainTimeout_follows {s0 s : State} (h : s0.Follows s) (a1 a2) : ∀ x, (execDrainTimeout a1 a2 s) = .next x → s0.Follows x := by
  intro x hx
  unfold execDrainTimeout at hx
  try dsimp only at hx
  with_reducible obtain rfl := Host.Outcome.next.inj hx
  all_goals repeat' first
    | with_reducible assumption
    | with_reducible apply State.atTime_follows
    | with_reducible apply State.completeDrain_follows
    | with_reducible apply State.testShutters_follows
    | with_reducible (simp only [follows_mk])
    | split

theorem execAutoRestore_follows {s0 s : State} (h : s0.Follows s) (a1 a2) : ∀ x, (execAutoRestore a1 a2 s) = .next x → s0.Follows x := by
  intro x hx
  unfold execAutoRestore at hx
  try dsimp only at hx
  with_reducible obtain rfl := Host.Outcome.next.inj hx
  all_goals repeat' first
    | with_reducible assumption
    | with_reducible apply State.atTime_follows
    | with_reducible apply State.settleRestore_follows
    | with_reducible apply State.startRestore_follows
    | split

theorem execLanternPllUnlock_follows {s0 s : State} (h : s0.Follows s) (a1 a2) : ∀ x, (execLanternPllUnlock a1 a2 s) = .next x → s0.Follows x := by
  intro x hx
  unfold execLanternPllUnlock at hx
  try dsimp only at hx
  with_reducible obtain rfl := Host.Outcome.next.inj hx
  all_goals repeat' first
    | with_reducible assumption
    | with_reducible apply State.atTime_follows
    | with_reducible apply State.resetLantern_follows

theorem execLanternReturn_follows {s0 s : State} (h : s0.Follows s) (a1 a2 a3 a4) : ∀ x, (execLanternReturn a1 a2 a3 a4 s) = .next x → s0.Follows x := by
  intro x hx
  unfold execLanternReturn at hx
  try dsimp only at hx
  with_reducible obtain rfl := Host.Outcome.next.inj hx
  all_goals repeat' first
    | with_reducible assumption
    | with_reducible apply State.atTime_follows
    | with_reducible apply State.lanternBack_follows
    | split

theorem execLanternReturnTimeout_follows {s0 s : State} (h : s0.Follows s) (a1 a2) : ∀ x, (execLanternReturnTimeout a1 a2 s) = .next x → s0.Follows x := by
  intro x hx
  unfold execLanternReturnTimeout at hx
  try dsimp only at hx
  with_reducible obtain rfl := Host.Outcome.next.inj hx
  all_goals repeat' first
    | with_reducible assumption
    | with_reducible apply State.atTime_follows
    | with_reducible apply State.fenceLantern_follows
    | split

theorem execLanternStopExit_follows {s0 s : State} (h : s0.Follows s) (a1 a2) : ∀ x, (execLanternStopExit a1 a2 s) = .next x → s0.Follows x := by
  intro x hx
  unfold execLanternStopExit at hx
  try dsimp only at hx
  with_reducible obtain rfl := Host.Outcome.next.inj hx
  all_goals repeat' first
    | with_reducible assumption
    | with_reducible apply State.atTime_follows
    | with_reducible apply State.relight_follows
    | with_reducible apply State.modDie_follows
    | with_reducible apply State.modLan_follows
    | split

theorem execFabricMessageReceive_follows {s0 s : State} (h : s0.Follows s) (a1 a2 a3 a4) : ∀ x, (execFabricMessageReceive a1 a2 a3 a4 s) = .next x → s0.Follows x := by
  intro x hx
  unfold execFabricMessageReceive at hx
  try dsimp only at hx
  with_reducible obtain rfl := Host.Outcome.next.inj hx
  all_goals repeat' first
    | with_reducible assumption
    | with_reducible apply State.atTime_follows
    | with_reducible apply State.modLink_follows
    | with_reducible apply State.deliverFrom_follows
    | with_reducible apply State.transit_follows
    | split

theorem execRouterRelease_follows {s0 s : State} (h : s0.Follows s) (a1 a2) : ∀ x, (execRouterRelease a1 a2 s) = .next x → s0.Follows x := by
  intro x hx
  unfold execRouterRelease at hx
  try dsimp only at hx
  repeat' first
    | (with_reducible obtain rfl := Host.Outcome.next.inj hx)
    | split at hx
  all_goals repeat' first
    | with_reducible assumption
    | with_reducible apply State.atTime_follows
    | with_reducible apply State.route_follows
    | with_reducible (simp only [follows_mk])

theorem execRoleNotice_follows {s0 s : State} (h : s0.Follows s) (a1 a2 a3 a4) : ∀ x, (execRoleNotice a1 a2 a3 a4 s) = .next x → s0.Follows x := by
  intro x hx
  unfold execRoleNotice at hx
  try dsimp only at hx
  with_reducible obtain rfl := Host.Outcome.next.inj hx
  all_goals repeat' first
    | with_reducible assumption
    | with_reducible apply State.atTime_follows
    | with_reducible apply State.retryPool_follows
    | with_reducible apply State.endRole_follows

theorem execHelloReceive_follows {s0 s : State} (h : s0.Follows s) (a1 a2 a3 a4 a5) : ∀ x, (execHelloReceive a1 a2 a3 a4 a5 s) = .next x → s0.Follows x := by
  intro x hx
  unfold execHelloReceive at hx
  try dsimp only at hx
  repeat' first
    | (with_reducible obtain rfl := Host.Outcome.next.inj hx)
    | split at hx
  all_goals repeat' first
    | with_reducible assumption
    | with_reducible apply State.settlePorts_follows
    | with_reducible apply State.settleOrderly_follows
    | with_reducible apply State.hello_follows
    | with_reducible apply State.linkEvent_follows
    | with_reducible apply State.settleRestore_follows

theorem execSlabCheckFail_follows {s0 s : State} (h : s0.Follows s) (a1 a2 a3 a4 a5 a6) : ∀ x, (execSlabCheckFail a1 a2 a3 a4 a5 a6 s) = .next x → s0.Follows x := by
  intro x hx
  unfold execSlabCheckFail at hx
  try dsimp only at hx
  with_reducible obtain rfl := Host.Outcome.next.inj hx
  all_goals repeat' first
    | with_reducible assumption
    | with_reducible apply State.atTime_follows
    | with_reducible apply State.modArr_follows
    | with_reducible apply State.failSlab_follows
    | with_reducible apply State.report_follows
    | with_reducible apply State.markInexact_follows
    | with_reducible apply State.countFreeRetry_follows
    | split

theorem execSlabStallWatchdog_follows {s0 s : State} (h : s0.Follows s) (a1 a2 a3 a4 a5) : ∀ x, (execSlabStallWatchdog a1 a2 a3 a4 a5 s) = .next x → s0.Follows x := by
  intro x hx
  unfold execSlabStallWatchdog at hx
  try dsimp only at hx
  repeat' first
    | (with_reducible obtain rfl := Host.Outcome.next.inj hx)
    | split at hx
  all_goals repeat' first
    | with_reducible assumption
    | with_reducible apply State.atTime_follows
    | with_reducible apply State.failSlab_follows

theorem execProactiveReserve_follows {s0 s : State} (h : s0.Follows s) (a1 a2 a3) : ∀ x, (execProactiveReserve a1 a2 a3 s) = .next x → s0.Follows x := by
  intro x hx
  unfold execProactiveReserve at hx
  try dsimp only at hx
  with_reducible obtain rfl := Host.Outcome.next.inj hx
  all_goals repeat' first
    | with_reducible assumption
    | with_reducible apply State.atTime_follows
    | with_reducible apply State.modArr_follows
    | with_reducible apply State.report_follows
    | with_reducible apply State.oculusUpdate_follows
    | split

theorem execArrRateUpdate_follows {s0 s : State} (h : s0.Follows s) (a1 a2 a3) : ∀ x, (execArrRateUpdate a1 a2 a3 s) = .next x → s0.Follows x := by
  intro x hx
  unfold execArrRateUpdate at hx
  try dsimp only at hx
  with_reducible obtain rfl := Host.Outcome.next.inj hx
  all_goals repeat' first
    | with_reducible assumption
    | with_reducible apply State.atTime_follows
    | with_reducible apply State.modArr_follows

theorem execScrubPass_follows {s0 s : State} (h : s0.Follows s) (a1 a2 a3 a4 a5) : ∀ x, (execScrubPass a1 a2 a3 a4 a5 s) = .next x → s0.Follows x := by
  intro x hx
  unfold execScrubPass at hx
  try dsimp only at hx
  with_reducible obtain rfl := Host.Outcome.next.inj hx
  all_goals repeat' first
    | with_reducible assumption
    | with_reducible apply State.atTime_follows
    | with_reducible apply State.settle_follows
    | with_reducible apply State.strike_follows
    | with_reducible (refine follows_modHbm ?_ _ _ (fun _ hx => hx))
    | with_reducible apply State.retireDue_follows
    | with_reducible apply State.report_follows
    | with_reducible apply State.oculusUpdate_follows
    | with_reducible apply State.fencePc_follows
    | with_reducible apply follows_foldl
    | split
    | (intro _ _ _)

theorem execRetirePendingResolve_follows {s0 s : State} (h : s0.Follows s) (a1 a2) : ∀ x, (execRetirePendingResolve a1 a2 s) = .next x → s0.Follows x := by
  intro x hx
  unfold execRetirePendingResolve at hx
  try dsimp only at hx
  with_reducible obtain rfl := Host.Outcome.next.inj hx
  all_goals repeat' first
    | with_reducible assumption
    | with_reducible apply State.atTime_follows
    | with_reducible apply State.retireFrame_follows
    | with_reducible apply State.settle_follows
    | with_reducible apply follows_foldl
    | split
    | (intro _ _ _)

theorem execPcRelocationDone_follows {s0 s : State} (h : s0.Follows s) (a1 a2) : ∀ x, (execPcRelocationDone a1 a2 s) = .next x → s0.Follows x := by
  intro x hx
  unfold execPcRelocationDone at hx
  try dsimp only at hx
  repeat' first
    | (with_reducible obtain rfl := Host.Outcome.next.inj hx)
    | split at hx
  all_goals repeat' first
    | with_reducible assumption
    | with_reducible apply State.atTime_follows
    | with_reducible apply State.settle_follows
    | with_reducible apply State.oculusUpdate_follows
    | with_reducible (refine follows_modHbm ?_ _ _ (fun _ hx => hx))
    | with_reducible apply State.retryFences_follows
    | with_reducible apply State.report_follows

theorem execFencePendingResolve_follows {s0 s : State} (h : s0.Follows s) (a1 a2) : ∀ x, (execFencePendingResolve a1 a2 s) = .next x → s0.Follows x := by
  intro x hx
  unfold execFencePendingResolve at hx
  try dsimp only at hx
  with_reducible obtain rfl := Host.Outcome.next.inj hx
  all_goals repeat' first
    | with_reducible assumption
    | with_reducible apply State.atTime_follows
    | with_reducible apply State.retryFences_follows

theorem execMatmul_follows {s0 s : State} (h : s0.Follows s) (a1 a2 a3) : ∀ x, (execMatmul a1 a2 a3 s) = .next x → s0.Follows x := by
  intro x hx
  unfold execMatmul at hx
  try dsimp only at hx
  repeat' first
    | (with_reducible obtain rfl := Host.Outcome.next.inj hx)
    | split at hx
  all_goals repeat' first
    | with_reducible assumption
    | with_reducible apply State.atTime_follows
    | with_reducible refine follows_error (by assumption) (State.enter_follows ?_ _ _)
    | with_reducible refine follows_ok (by assumption) (State.enter_follows ?_ _ _)
    | with_reducible apply State.groupOp_follows

theorem execAttend_follows {s0 s : State} (h : s0.Follows s) (a1 a2) : ∀ x, (execAttend a1 a2 s) = .next x → s0.Follows x := by
  intro x hx
  unfold execAttend at hx
  try dsimp only at hx
  repeat' first
    | (with_reducible obtain rfl := Host.Outcome.next.inj hx)
    | split at hx
  all_goals repeat' first
    | with_reducible assumption
    | with_reducible apply State.atTime_follows
    | with_reducible refine follows_error (by assumption) (State.enter_follows ?_ _ _)
    | with_reducible refine follows_ok (by assumption) (State.enter_follows ?_ _ _)
    | with_reducible apply State.startOp_follows
    | with_reducible apply State.noteTent_follows
    | with_reducible apply State.perform_follows

theorem execNorm_follows {s0 s : State} (h : s0.Follows s) (a1 a2) : ∀ x, (execNorm a1 a2 s) = .next x → s0.Follows x := by
  intro x hx
  unfold execNorm at hx
  try dsimp only at hx
  all_goals repeat' first
    | with_reducible assumption
    | with_reducible (refine State.runOp_follows ?_ _ _ _ _ _ (by assumption))

theorem execAct_follows {s0 s : State} (h : s0.Follows s) (a1 a2) : ∀ x, (execAct a1 a2 s) = .next x → s0.Follows x := by
  intro x hx
  unfold execAct at hx
  try dsimp only at hx
  all_goals repeat' first
    | with_reducible assumption
    | with_reducible (refine State.runOp_follows ?_ _ _ _ _ _ (by assumption))

theorem execRope_follows {s0 s : State} (h : s0.Follows s) (a1 a2) : ∀ x, (execRope a1 a2 s) = .next x → s0.Follows x := by
  intro x hx
  unfold execRope at hx
  try dsimp only at hx
  all_goals repeat' first
    | with_reducible assumption
    | with_reducible (refine State.runOp_follows ?_ _ _ _ _ _ (by assumption))

theorem execSample_follows {s0 s : State} (h : s0.Follows s) (a1 a2) : ∀ x, (execSample a1 a2 s) = .next x → s0.Follows x := by
  intro x hx
  unfold execSample at hx
  try dsimp only at hx
  all_goals repeat' first
    | with_reducible assumption
    | with_reducible (refine State.runOp_follows ?_ _ _ _ _ _ (by assumption))

theorem execDraft_follows {s0 s : State} (h : s0.Follows s) (a1 a2) : ∀ x, (execDraft a1 a2 s) = .next x → s0.Follows x := by
  intro x hx
  unfold execDraft at hx
  try dsimp only at hx
  repeat' first
    | (with_reducible obtain rfl := Host.Outcome.next.inj hx)
    | split at hx
  all_goals repeat' first
    | with_reducible assumption
    | with_reducible apply State.atTime_follows
    | with_reducible refine follows_error (by assumption) (State.enter_follows ?_ _ _)
    | with_reducible refine follows_ok (by assumption) (State.enter_follows ?_ _ _)
    | with_reducible apply State.perform_follows

theorem execGather_follows {s0 s : State} (h : s0.Follows s) (a1 a2) : ∀ x, (execGather a1 a2 s) = .next x → s0.Follows x := by
  intro x hx
  unfold execGather at hx
  try dsimp only at hx
  all_goals repeat' first
    | with_reducible assumption
    | with_reducible (refine State.runOp_follows ?_ _ _ _ _ _ (by assumption))

theorem execScatter_follows {s0 s : State} (h : s0.Follows s) (a1 a2 a3) : ∀ x, (execScatter a1 a2 a3 s) = .next x → s0.Follows x := by
  intro x hx
  unfold execScatter at hx
  try dsimp only at hx
  repeat' first
    | (with_reducible obtain rfl := Host.Outcome.next.inj hx)
    | split at hx
  all_goals repeat' first
    | with_reducible assumption
    | with_reducible apply State.atTime_follows
    | with_reducible refine follows_error (by assumption) (State.enter_follows ?_ _ _)
    | with_reducible refine follows_ok (by assumption) (State.enter_follows ?_ _ _)
    | with_reducible apply State.perform_follows
    | with_reducible apply State.setRun_follows

theorem execCopy_follows {s0 s : State} (h : s0.Follows s) (a1 a2) : ∀ x, (execCopy a1 a2 s) = .next x → s0.Follows x := by
  intro x hx
  unfold execCopy at hx
  try dsimp only at hx
  all_goals repeat' first
    | with_reducible assumption
    | with_reducible (refine State.runOp_follows ?_ _ _ _ _ _ (by assumption))

theorem execXsend_follows {s0 s : State} (h : s0.Follows s) (a1 a2) : ∀ x, (execXsend a1 a2 s) = .next x → s0.Follows x := by
  intro x hx
  unfold execXsend at hx
  try dsimp only at hx
  repeat' first
    | (with_reducible obtain rfl := Host.Outcome.next.inj hx)
    | split at hx
  all_goals repeat' first
    | with_reducible assumption
    | with_reducible apply State.atTime_follows
    | with_reducible refine follows_error (by assumption) (State.enter_follows ?_ _ _)
    | with_reducible refine follows_ok (by assumption) (State.enter_follows ?_ _ _)
    | with_reducible apply State.stopOp_follows
    | with_reducible apply State.sendTo_follows
    | with_reducible apply State.startOp_follows
    | with_reducible (simp only [follows_mk])

theorem execXrecv_follows {s0 s : State} (h : s0.Follows s) (a1) : ∀ x, (execXrecv a1 s) = .next x → s0.Follows x := by
  intro x hx
  unfold execXrecv at hx
  try dsimp only at hx
  repeat' first
    | (with_reducible obtain rfl := Host.Outcome.next.inj hx)
    | split at hx
  all_goals repeat' first
    | with_reducible assumption
    | with_reducible apply State.retryPool_follows
    | with_reducible apply State.atTime_follows
    | with_reducible refine follows_error (by assumption) (State.enter_follows ?_ _ _)
    | with_reducible refine follows_ok (by assumption) (State.enter_follows ?_ _ _)
    | with_reducible apply State.stopOp_follows
    | with_reducible apply State.unmatch_follows
    | with_reducible apply State.setRun_follows
    | with_reducible apply State.startOp_follows
    | with_reducible (simp only [follows_mk])

theorem execXreduce_follows {s0 s : State} (h : s0.Follows s) (a1 a2 a3 a4) : ∀ x, (execXreduce a1 a2 a3 a4 s) = .next x → s0.Follows x := by
  intro x hx
  unfold execXreduce at hx
  try dsimp only at hx
  repeat' first
    | (with_reducible obtain rfl := Host.Outcome.next.inj hx)
    | split at hx
  all_goals repeat' first
    | with_reducible assumption
    | with_reducible apply State.atTime_follows
    | with_reducible refine follows_error (by assumption) (State.enter_follows ?_ _ _)
    | with_reducible refine follows_ok (by assumption) (State.enter_follows ?_ _ _)
    | with_reducible apply State.stopOp_follows
    | with_reducible apply State.groupOp_follows

theorem execExactReduce_follows {s0 s : State} (h : s0.Follows s) (a1 a2 a3) : ∀ x, (execExactReduce a1 a2 a3 s) = .next x → s0.Follows x := by
  intro x hx
  unfold execExactReduce at hx
  try dsimp only at hx
  repeat' first
    | (with_reducible obtain rfl := Host.Outcome.next.inj hx)
    | split at hx
  all_goals repeat' first
    | with_reducible assumption
    | with_reducible apply State.atTime_follows
    | with_reducible refine follows_error (by assumption) (State.enter_follows ?_ _ _)
    | with_reducible refine follows_ok (by assumption) (State.enter_follows ?_ _ _)
    | with_reducible apply State.groupOp_follows

theorem execDigestMark_follows {s0 s : State} (h : s0.Follows s) (a1) : ∀ x, (execDigestMark a1 s) = .next x → s0.Follows x := by
  intro x hx
  unfold execDigestMark at hx
  try dsimp only at hx
  repeat' first
    | (with_reducible obtain rfl := Host.Outcome.next.inj hx)
    | split at hx
  all_goals repeat' first
    | with_reducible assumption
    | with_reducible apply State.atTime_follows
    | with_reducible refine follows_error (by assumption) (State.enter_follows ?_ _ _)
    | with_reducible refine follows_ok (by assumption) (State.enter_follows ?_ _ _)
    | with_reducible apply State.startOp_follows
    | with_reducible apply State.partWrite_follows

theorem execLoop_follows {s0 s : State} (h : s0.Follows s) (a1) : ∀ x, (execLoop a1 s) = .next x → s0.Follows x := by
  intro x hx
  unfold execLoop at hx
  try dsimp only at hx
  with_reducible obtain rfl := Host.Outcome.next.inj hx
  all_goals repeat' first
    | with_reducible assumption
    | with_reducible apply State.atTime_follows
    | with_reducible apply State.fetchDesc_follows
    | with_reducible apply State.setRun_follows
    | with_reducible apply State.stopOp_follows
    | split

theorem execFence_follows {s0 s : State} (h : s0.Follows s) (a1) : ∀ x, (execFence a1 s) = .next x → s0.Follows x := by
  intro x hx
  unfold execFence at hx
  try dsimp only at hx
  with_reducible obtain rfl := Host.Outcome.next.inj hx
  all_goals repeat' first
    | with_reducible assumption
    | with_reducible apply State.atTime_follows
    | with_reducible refine follows_error (by assumption) (State.enter_follows ?_ _ _)
    | with_reducible refine follows_ok (by assumption) (State.enter_follows ?_ _ _)
    | with_reducible apply State.startOp_follows
    | with_reducible apply State.tryFence_follows
    | with_reducible apply State.sendWide_follows
    | split

theorem execFenceSatisfied_follows {s0 s : State} (h : s0.Follows s) (a1) : ∀ x, (execFenceSatisfied a1 s) = .next x → s0.Follows x := by
  intro x hx
  unfold execFenceSatisfied at hx
  try dsimp only at hx
  with_reducible obtain rfl := Host.Outcome.next.inj hx
  all_goals repeat' first
    | with_reducible assumption
    | with_reducible apply State.atTime_follows
    | with_reducible apply State.settlePart_follows
    | with_reducible apply State.stopOp_follows
    | with_reducible apply State.tryFence_follows
    | split

theorem execFenceTimeout_follows {s0 s : State} (h : s0.Follows s) (a1) : ∀ x, (execFenceTimeout a1 s) = .next x → s0.Follows x := by
  intro x hx
  unfold execFenceTimeout at hx
  try dsimp only at hx
  with_reducible obtain rfl := Host.Outcome.next.inj hx
  all_goals repeat' first
    | with_reducible assumption
    | with_reducible apply State.atTime_follows
    | with_reducible apply State.stopOp_follows
    | with_reducible apply State.spend_follows
    | split

theorem execVerify_follows {s0 s : State} (h : s0.Follows s) (a1 a2) : ∀ x, (execVerify a1 a2 s) = .next x → s0.Follows x := by
  intro x hx
  unfold execVerify at hx
  try dsimp only at hx
  with_reducible obtain rfl := Host.Outcome.next.inj hx
  all_goals repeat' first
    | with_reducible assumption
    | with_reducible apply State.dropEarly_follows
    | with_reducible apply State.atTime_follows
    | with_reducible refine follows_error (by assumption) (State.enter_follows ?_ _ _)
    | with_reducible refine follows_ok (by assumption) (State.enter_follows ?_ _ _)
    | with_reducible apply State.stopOp_follows
    | with_reducible apply State.commitMember_follows
    | with_reducible apply State.settleFrees_follows
    | with_reducible apply State.setRun_follows
    | with_reducible apply follows_foldl_fst
    | split
    | (intro _ _ _)

theorem execDrafterIteration_follows {s0 s : State} (h : s0.Follows s) (a1) : ∀ x, (execDrafterIteration a1 s) = .next x → s0.Follows x := by
  intro x hx
  unfold execDrafterIteration at hx
  try dsimp only at hx
  with_reducible obtain rfl := Host.Outcome.next.inj hx
  all_goals repeat' first
    | with_reducible assumption
    | with_reducible apply State.atTime_follows
    | with_reducible apply State.writeRowMap_follows
    | with_reducible apply State.setRun_follows
    | split

theorem execDraftEarlyStart_follows {s0 s : State} (h : s0.Follows s) (a1) : ∀ x, (execDraftEarlyStart a1 s) = .next x → s0.Follows x := by
  intro x hx
  unfold execDraftEarlyStart at hx
  try dsimp only at hx
  with_reducible obtain rfl := Host.Outcome.next.inj hx
  all_goals repeat' first
    | with_reducible assumption
    | with_reducible apply State.atTime_follows
    | with_reducible apply State.setRun_follows
    | split

theorem execOperationBoundary_follows {s0 s : State} (h : s0.Follows s) (a1) : ∀ x, (execOperationBoundary a1 s) = .next x → s0.Follows x := by
  intro x hx
  unfold execOperationBoundary at hx
  try dsimp only at hx
  with_reducible obtain rfl := Host.Outcome.next.inj hx
  all_goals repeat' first
    | with_reducible assumption
    | with_reducible apply State.atTime_follows
    | with_reducible apply State.retryPool_follows
    | with_reducible apply State.closeOp_follows
    | split

theorem execTileWrite_follows {s0 s : State} (h : s0.Follows s) (a1 a2 a3) : ∀ x, (execTileWrite a1 a2 a3 s) = .next x → s0.Follows x := by
  intro x hx
  unfold execTileWrite at hx
  try dsimp only at hx
  with_reducible obtain rfl := Host.Outcome.next.inj hx
  all_goals repeat' first
    | with_reducible assumption
    | with_reducible apply State.atTime_follows
    | with_reducible apply State.setRun_follows
    | with_reducible apply State.writeTile_follows
    | with_reducible apply State.modArr_follows
    | with_reducible apply State.report_follows
    | with_reducible apply State.stopOp_follows
    | with_reducible apply State.countFreeRetry_follows
    | split

theorem execRunForm_follows {s0 s : State} (h : s0.Follows s) (a1) : ∀ x, (execRunForm a1 s) = .next x → s0.Follows x := by
  intro x hx
  unfold execRunForm at hx
  try dsimp only at hx
  with_reducible obtain rfl := Host.Outcome.next.inj hx
  all_goals repeat' first
    | with_reducible assumption
    | with_reducible apply State.atTime_follows
    | with_reducible apply State.startList_follows
    | with_reducible apply State.formSteps_follows
    | split

theorem execIdleEntry_follows {s0 s : State} (h : s0.Follows s) (a1) : ∀ x, (execIdleEntry a1 s) = .next x → s0.Follows x := by
  intro x hx
  unfold execIdleEntry at hx
  try dsimp only at hx
  with_reducible obtain rfl := Host.Outcome.next.inj hx
  all_goals repeat' first
    | with_reducible assumption
    | with_reducible apply State.atTime_follows
    | with_reducible apply State.enterP1_follows
    | with_reducible apply State.replyPower_follows
    | split

theorem execP2Suspend_follows {s0 s : State} (h : s0.Follows s) (a1) : ∀ x, (execP2Suspend a1 s) = .next x → s0.Follows x := by
  intro x hx
  unfold execP2Suspend at hx
  try dsimp only at hx
  with_reducible obtain rfl := Host.Outcome.next.inj hx
  all_goals repeat' first
    | with_reducible assumption
    | with_reducible apply State.atTime_follows
    | with_reducible apply State.descend_follows
    | with_reducible apply State.replyPower_follows
    | split

theorem execPowerSample_follows {s0 s : State} (h : s0.Follows s) (a1 a2 a3 a4 a5) : ∀ x, (execPowerSample a1 a2 a3 a4 a5 s) = .next x → s0.Follows x := by
  intro x hx
  unfold execPowerSample at hx
  try dsimp only at hx
  with_reducible obtain rfl := Host.Outcome.next.inj hx
  all_goals repeat' first
    | with_reducible assumption
    | with_reducible apply State.atTime_follows
    | with_reducible apply State.sampleRails_follows
    | with_reducible (refine State.modPwr_follows ?_ _ (fun hx => hx))
    | with_reducible apply State.tighten_follows
    | with_reducible apply State.loosen_follows
    | with_reducible apply State.replyCap_follows
    | with_reducible (simp only [follows_mk])
    | split

theorem execVoltageAdjust_follows {s0 s : State} (h : s0.Follows s) (a1 a2 a3 a4) : ∀ x, (execVoltageAdjust a1 a2 a3 a4 s) = .next x → s0.Follows x := by
  intro x hx
  unfold execVoltageAdjust at hx
  try dsimp only at hx
  with_reducible obtain rfl := Host.Outcome.next.inj hx
  all_goals repeat' first
    | with_reducible assumption
    | with_reducible apply State.atTime_follows
    | with_reducible apply State.modArr_follows
    | with_reducible (refine State.modPwr_follows ?_ _ (fun hx => hx))
    | with_reducible apply State.takeFree_follows
    | split

theorem execTelemetryTimeout_follows {s0 s : State} (h : s0.Follows s) (a1 a2 a3) : ∀ x, (execTelemetryTimeout a1 a2 a3 s) = .next x → s0.Follows x := by
  intro x hx
  unfold execTelemetryTimeout at hx
  try dsimp only at hx
  with_reducible obtain rfl := Host.Outcome.next.inj hx
  all_goals repeat' first
    | with_reducible assumption
    | with_reducible apply State.atTime_follows
    | with_reducible apply State.modDie_follows
    | with_reducible (refine State.modPwr_follows ?_ _ (fun hx => hx))
    | with_reducible apply State.report_follows
    | split

theorem execRailBelowWarning_follows {s0 s : State} (h : s0.Follows s) (a1 a2 a3) : ∀ x, (execRailBelowWarning a1 a2 a3 s) = .next x → s0.Follows x := by
  intro x hx
  unfold execRailBelowWarning at hx
  try dsimp only at hx
  with_reducible obtain rfl := Host.Outcome.next.inj hx
  all_goals repeat' first
    | with_reducible assumption
    | with_reducible apply State.atTime_follows
    | with_reducible apply State.modRail_follows
    | with_reducible apply State.modEng_follows
    | split

theorem execDroopHoldRelease_follows {s0 s : State} (h : s0.Follows s) (a1) : ∀ x, (execDroopHoldRelease a1 s) = .next x → s0.Follows x := by
  intro x hx
  unfold execDroopHoldRelease at hx
  try dsimp only at hx
  with_reducible obtain rfl := Host.Outcome.next.inj hx
  all_goals repeat' first
    | with_reducible assumption
    | with_reducible apply State.atTime_follows
    | with_reducible apply State.modEng_follows
    | with_reducible apply State.modRail_follows
    | with_reducible apply follows_foldl
    | split
    | (intro _ _ _)

theorem execDroopRate_follows {s0 s : State} (h : s0.Follows s) (a1 a2) : ∀ x, (execDroopRate a1 a2 s) = .next x → s0.Follows x := by
  intro x hx
  unfold execDroopRate at hx
  try dsimp only at hx
  with_reducible obtain rfl := Host.Outcome.next.inj hx
  all_goals repeat' first
    | with_reducible assumption
    | with_reducible apply State.atTime_follows
    | with_reducible apply State.report_follows
    | with_reducible apply State.modRail_follows
    | split

theorem execHardTrip_follows {s0 s : State} (h : s0.Follows s) (a1 a2 a3) : ∀ x, (execHardTrip a1 a2 a3 s) = .next x → s0.Follows x := by
  intro x hx
  unfold execHardTrip at hx
  try dsimp only at hx
  with_reducible obtain rfl := Host.Outcome.next.inj hx
  all_goals repeat' first
    | with_reducible assumption
    | with_reducible apply State.atTime_follows
    | with_reducible apply State.hardTrip_follows
    | split

theorem execThermalSample_follows {s0 s : State} (h : s0.Follows s) (a1 a2 a3) : ∀ x, (execThermalSample a1 a2 a3 s) = .next x → s0.Follows x := by
  intro x hx
  unfold execThermalSample at hx
  try dsimp only at hx
  with_reducible obtain rfl := Host.Outcome.next.inj hx
  all_goals repeat' first
    | with_reducible assumption
    | with_reducible apply State.atTime_follows
    | with_reducible apply State.take_follows
    | with_reducible apply State.modDie_follows
    | with_reducible apply State.checkSensors_follows
    | with_reducible apply State.checkCore_follows
    | with_reducible apply State.checkLantern_follows
    | with_reducible apply State.testShutters_follows
    | with_reducible apply State.noteCool_follows
    | with_reducible apply State.noteThrottle_follows
    | with_reducible (simp only [follows_mk])
    | split

theorem execThrottleAdjust_follows {s0 s : State} (h : s0.Follows s) (a1 a2) : ∀ x, (execThrottleAdjust a1 a2 s) = .next x → s0.Follows x := by
  intro x hx
  unfold execThrottleAdjust at hx
  try dsimp only at hx
  with_reducible obtain rfl := Host.Outcome.next.inj hx
  all_goals repeat' first
    | with_reducible assumption
    | with_reducible apply State.atTime_follows
    | with_reducible apply State.modDie_follows
    | split

theorem execHbmTempSample_follows {s0 s : State} (h : s0.Follows s) (a1 a2 a3 a4) : ∀ x, (execHbmTempSample a1 a2 a3 a4 s) = .next x → s0.Follows x := by
  intro x hx
  unfold execHbmTempSample at hx
  extract_lets _ h k x lim was at_ put s1 s2 s3 s4 at hx
  with_reducible obtain rfl := Host.Outcome.next.inj hx
  have h1 : s0.Follows s1 := follows_modHbm (State.atTime_follows ‹_› _) _ _ (fun _ hx => hx)
  clear_value s1
  have h2 : s0.Follows s2 := by
    dsimp only [s2]
    split
    · exact State.oculusUpdate_follows h1
    · exact h1
  clear_value s2
  have h3 : s0.Follows s3 := by
    dsimp only [s3]
    split
    · exact State.report_follows h2 _ _ _ _
    · exact h2
  clear_value s3
  refine State.noteCool_follows ?_
  dsimp only [s4]
  split
  · exact State.hardTrip_follows h3 _ _
  · split
    · exact State.orderlyStop_follows h3 _
    · exact h3

theorem execSentinelSample_follows {s0 s : State} (h : s0.Follows s) (a1 a2 a3) : ∀ x, (execSentinelSample a1 a2 a3 s) = .next x → s0.Follows x := by
  intro x hx
  unfold execSentinelSample at hx
  try dsimp only at hx
  with_reducible obtain rfl := Host.Outcome.next.inj hx
  all_goals repeat' first
    | with_reducible assumption
    | with_reducible apply State.atTime_follows
    | with_reducible apply State.recordSentinels_follows
    | with_reducible apply State.modArr_follows
    | with_reducible apply State.replan_follows
    | split

theorem execLedgerRecord_follows {s0 s : State} (h : s0.Follows s) (a1 a2) : ∀ x, (execLedgerRecord a1 a2 s) = .next x → s0.Follows x := by
  intro x hx
  unfold execLedgerRecord at hx
  try dsimp only at hx
  with_reducible obtain rfl := Host.Outcome.next.inj hx
  all_goals repeat' first
    | with_reducible assumption
    | with_reducible apply State.atTime_follows
    | with_reducible apply State.recordSentinels_follows
    | with_reducible apply State.replan_follows
    | with_reducible (simp only [follows_mk])
    | with_reducible apply State.appendRecord_follows
    | split

theorem execHstSqTail_follows {s0 s : State} (h : s0.Follows s) (a1 a2 a3 a4 a5 a6) : ∀ x, (execHstSqTail a1 a2 a3 a4 a5 a6 s) = .next x → s0.Follows x := by
  intro x hx
  unfold execHstSqTail at hx
  with_reducible obtain rfl := Host.Outcome.next.inj hx
  refine State.writeTail_follows ?_ _ _ _
  have k := State.atTime_follows h a1
  exact ⟨k.queue, k.time, k.svn, k.terminated, k.production, fun o => ⟨(k.ok o).mem, (k.ok o).west, (k.ok o).east,
    twf_foldl 0 _ (fun _ _ h => twf_tset 0 _ _ h) _ _ (k.ok o).hmem, (k.ok o).power⟩⟩

theorem execHstCqHead_follows {s0 s : State} (h : s0.Follows s) (a1 a2 a3 a4) : ∀ x, (execHstCqHead a1 a2 a3 a4 s) = .next x → s0.Follows x := by
  intro x hx
  unfold execHstCqHead at hx
  try dsimp only at hx
  with_reducible obtain rfl := Host.Outcome.next.inj hx
  all_goals repeat' first
    | with_reducible assumption
    | with_reducible apply State.atTime_follows
    | with_reducible apply State.writeHead_follows

theorem execQueueEnable_follows {s0 s : State} (h : s0.Follows s) (a1 a2 a3 a4) : ∀ x, (execQueueEnable a1 a2 a3 a4 s) = .next x → s0.Follows x := by
  intro x hx
  unfold execQueueEnable at hx
  try dsimp only at hx
  with_reducible obtain rfl := Host.Outcome.next.inj hx
  all_goals repeat' first
    | with_reducible assumption
    | with_reducible apply State.atTime_follows
    | with_reducible apply State.writeQCtrl_follows

theorem execQueueDisable_follows {s0 s : State} (h : s0.Follows s) (a1 a2 a3 a4) : ∀ x, (execQueueDisable a1 a2 a3 a4 s) = .next x → s0.Follows x := by
  intro x hx
  unfold execQueueDisable at hx
  try dsimp only at hx
  with_reducible obtain rfl := Host.Outcome.next.inj hx
  all_goals repeat' first
    | with_reducible assumption
    | with_reducible apply State.atTime_follows
    | with_reducible apply State.writeQCtrl_follows

theorem execCommandFetch_follows {s0 s : State} (h : s0.Follows s) (a1) : ∀ x, (execCommandFetch a1 s) = .next x → s0.Follows x := by
  intro x hx
  unfold execCommandFetch at hx
  try dsimp only at hx
  with_reducible obtain rfl := Host.Outcome.next.inj hx
  all_goals repeat' first
    | with_reducible assumption
    | with_reducible apply State.atTime_follows
    | with_reducible apply State.modPart_follows
    | with_reducible apply State.fetch1_follows
    | with_reducible (simp only [follows_mk])
    | split

theorem execMemAlloc_follows {s0 s : State} (h : s0.Follows s) (a1 a2) : ∀ x, (execMemAlloc a1 a2 s) = .next x → s0.Follows x := by
  intro x hx
  unfold execMemAlloc at hx
  try dsimp only at hx
  all_goals repeat' first
    | with_reducible assumption
    | with_reducible (refine State.act_follows ?_ _ _ _ _ ?_ _ (by assumption))
    | with_reducible apply State.memAlloc_follows
    | (intro _ _ _)

theorem execMemFree_follows {s0 s : State} (h : s0.Follows s) (a1 a2) : ∀ x, (execMemFree a1 a2 s) = .next x → s0.Follows x := by
  intro x hx
  unfold execMemFree at hx
  try dsimp only at hx
  all_goals repeat' first
    | with_reducible assumption
    | with_reducible (refine State.act_follows ?_ _ _ _ _ ?_ _ (by assumption))
    | with_reducible apply State.freeRange_follows
    | with_reducible apply State.wait_follows
    | split
    | (intro _ _ _)

theorem execMemCopy_follows {s0 s : State} (h : s0.Follows s) (a1 a2) : ∀ x, (execMemCopy a1 a2 s) = .next x → s0.Follows x := by
  intro x hx
  unfold execMemCopy at hx
  try dsimp only at hx
  all_goals repeat' first
    | with_reducible assumption
    | with_reducible (refine State.actOn_follows ?_ _ _ _ _ ?_ _ (by assumption))
    | with_reducible apply State.memCopy_follows
    | (intro _ _ _)

theorem execMemFill_follows {s0 s : State} (h : s0.Follows s) (a1 a2) : ∀ x, (execMemFill a1 a2 s) = .next x → s0.Follows x := by
  intro x hx
  unfold execMemFill at hx
  try dsimp only at hx
  all_goals repeat' first
    | with_reducible assumption
    | with_reducible (refine State.actOn_follows ?_ _ _ _ _ ?_ _ (by assumption))
    | with_reducible apply State.memFill_follows
    | (intro _ _ _)

theorem execGoardBurst_follows {s0 s : State} (h : s0.Follows s) (a1 a2 a3) : ∀ x, (execGoardBurst a1 a2 a3 s) = .next x → s0.Follows x := by
  intro x hx
  unfold execGoardBurst at hx
  try dsimp only at hx
  with_reducible obtain rfl := Host.Outcome.next.inj hx
  all_goals repeat' first
    | with_reducible assumption
    | with_reducible apply State.atTime_follows
    | with_reducible apply State.report_follows
    | with_reducible apply State.modPart_follows
    | split

theorem execBar2Read_follows {s0 s : State} (h : s0.Follows s) (a1 a2 a3 a4 a5) : ∀ x, (execBar2Read a1 a2 a3 a4 a5 s) = .next x → s0.Follows x := by
  intro x hx
  unfold execBar2Read at hx
  try dsimp only at hx
  with_reducible obtain rfl := Host.Outcome.next.inj hx
  all_goals repeat' first
    | with_reducible assumption
    | with_reducible apply State.atTime_follows
    | with_reducible apply State.strike_follows
    | with_reducible apply State.answerUnsupported_follows
    | with_reducible apply State.goard_follows
    | with_reducible apply State.holdBar_follows
    | with_reducible apply State.barRead_follows
    | split

theorem execBar2Write_follows {s0 s : State} (h : s0.Follows s) (a1 a2 a3 a4) : ∀ x, (execBar2Write a1 a2 a3 a4 s) = .next x → s0.Follows x := by
  intro x hx
  unfold execBar2Write at hx
  try dsimp only at hx
  with_reducible obtain rfl := Host.Outcome.next.inj hx
  all_goals repeat' first
    | with_reducible assumption
    | with_reducible apply State.atTime_follows
    | with_reducible apply State.goard_follows
    | with_reducible apply State.holdBar_follows
    | with_reducible apply State.barWrite_follows
    | split

end Sys2Proof.Machine
end

