-- ==== Sys2Proof/Laws/KeepExec2.lean ====
section
/-! SUPPORT. What a command answers follows the state it acts on, as `State.Follows` says: one lemma per meaning, but for
POWER_ON and POWER_OFF, with which the time base starts anew. -/

set_option Elab.async false

namespace Sys2Proof.Machine

theorem execSeqOpen_follows {s0 s : State} (h : s0.Follows s) (a1 a2) : ∀ x, (execSeqOpen a1 a2 s) = .next x → s0.Follows x := by
  intro x hx
  unfold execSeqOpen at hx
  try dsimp only at hx
  all_goals repeat' first
    | with_reducible assumption
    | with_reducible (refine State.act_follows ?_ _ _ _ _ ?_ _ (by assumption))
    | with_reducible apply State.tryOpen_follows
    | (intro _ _ _)

theorem execSeqSave_follows {s0 s : State} (h : s0.Follows s) (a1 a2) : ∀ x, (execSeqSave a1 a2 s) = .next x → s0.Follows x := by
  intro x hx
  unfold execSeqSave at hx
  try dsimp only at hx
  all_goals repeat' first
    | with_reducible assumption
    | with_reducible (refine State.actOn_follows ?_ _ _ _ _ ?_ _ (by assumption))
    | with_reducible apply State.saveSlot_follows
    | (intro _ _ _)

theorem execSeqRestore_follows {s0 s : State} (h : s0.Follows s) (a1 a2) : ∀ x, (execSeqRestore a1 a2 s) = .next x → s0.Follows x := by
  intro x hx
  unfold execSeqRestore at hx
  try dsimp only at hx
  all_goals repeat' first
    | with_reducible assumption
    | with_reducible (refine State.act_follows ?_ _ _ _ _ ?_ _ (by assumption))
    | with_reducible apply State.restore_follows
    | (intro _ _ _)

theorem execSeqStep_follows {s0 s : State} (h : s0.Follows s) (a1 a2) : ∀ x, (execSeqStep a1 a2 s) = .next x → s0.Follows x := by
  intro x hx
  unfold execSeqStep at hx
  try dsimp only at hx
  all_goals repeat' first
    | with_reducible assumption
    | with_reducible (refine State.actOn_follows ?_ _ _ _ _ ?_ _ (by assumption))
    | with_reducible apply State.modSlot_follows
    | with_reducible apply State.wake_follows
    | with_reducible apply State.dropStep_follows
    | split
    | (intro _ _ _)

theorem execSeqCancel_follows {s0 s : State} (h : s0.Follows s) (a1 a2) : ∀ x, (execSeqCancel a1 a2 s) = .next x → s0.Follows x := by
  intro x hx
  unfold execSeqCancel at hx
  try dsimp only at hx
  all_goals repeat' first
    | with_reducible assumption
    | with_reducible (refine State.actOn_follows ?_ _ _ _ _ ?_ _ (by assumption))
    | with_reducible apply State.refuse_follows
    | with_reducible apply State.cancelWork_follows
    | with_reducible apply State.reply_follows
    | split
    | (intro _ _ _)

theorem execSeqClose_follows {s0 s : State} (h : s0.Follows s) (a1 a2) : ∀ x, (execSeqClose a1 a2 s) = .next x → s0.Follows x := by
  intro x hx
  unfold execSeqClose at hx
  try dsimp only at hx
  all_goals repeat' first
    | with_reducible assumption
    | with_reducible (refine State.actOn_follows ?_ _ _ _ _ ?_ _ (by assumption))
    | with_reducible apply State.refuse_follows
    | with_reducible apply State.cancelWork_follows
    | with_reducible apply State.reply_follows
    | with_reducible apply State.freeSlotOf_follows
    | split
    | (intro _ _ _)

theorem execOplistLoad_follows {s0 s : State} (h : s0.Follows s) (a1 a2) : ∀ x, (execOplistLoad a1 a2 s) = .next x → s0.Follows x := by
  intro x hx
  unfold execOplistLoad at hx
  try dsimp only at hx
  all_goals repeat' first
    | with_reducible assumption
    | with_reducible (refine State.act_follows ?_ _ _ _ _ ?_ _ (by assumption))
    | with_reducible apply State.loadList_follows
    | (intro _ _ _)

theorem execOplistRun_follows {s0 s : State} (h : s0.Follows s) (a1 a2) : ∀ x, (execOplistRun a1 a2 s) = .next x → s0.Follows x := by
  intro x hx
  unfold execOplistRun at hx
  try dsimp only at hx
  all_goals repeat' first
    | with_reducible assumption
    | with_reducible (refine State.act_follows ?_ _ _ _ _ ?_ _ (by assumption))
    | with_reducible apply State.modPart_follows
    | with_reducible apply State.reply_follows
    | with_reducible apply State.settleFrees_follows
    | with_reducible apply State.modEng_follows
    | with_reducible apply State.wake_follows
    | split
    | (intro _ _ _)

theorem execDigestRead_follows {s0 s : State} (h : s0.Follows s) (a1 a2) : ∀ x, (execDigestRead a1 a2 s) = .next x → s0.Follows x := by
  intro x hx
  unfold execDigestRead at hx
  try dsimp only at hx
  all_goals repeat' first
    | with_reducible assumption
    | with_reducible (refine State.actOn_follows ?_ _ _ _ _ ?_ _ (by assumption))
    | with_reducible apply State.reply_follows
    | with_reducible apply State.dma_follows
    | (intro _ _ _)

theorem execFrameZeroingDone_follows {s0 s : State} (h : s0.Follows s) (a1 a2) : ∀ x, (execFrameZeroingDone a1 a2 s) = .next x → s0.Follows x := by
  intro x hx
  unfold execFrameZeroingDone at hx
  try dsimp only at hx
  with_reducible obtain rfl := Host.Outcome.next.inj hx
  all_goals repeat' first
    | with_reducible assumption
    | with_reducible apply State.atTime_follows
    | with_reducible apply State.settleMem_follows
    | with_reducible apply State.zeroDone_follows
    | with_reducible apply State.controlReady_follows
    | with_reducible apply State.dropWaiter_follows
    | with_reducible apply follows_foldl
    | split
    | (intro _ _ _)

theorem execGetOculus_follows {s0 s : State} (h : s0.Follows s) (a1 a2) : ∀ x, (execGetOculus a1 a2 s) = .next x → s0.Follows x := by
  intro x hx
  unfold execGetOculus at hx
  try dsimp only at hx
  all_goals repeat' first
    | with_reducible assumption
    | with_reducible (refine State.actOn_follows ?_ _ _ _ _ ?_ _ (by assumption))
    | with_reducible apply State.getOculus_follows
    | (intro _ _ _)

theorem execFaultRead_follows {s0 s : State} (h : s0.Follows s) (a1 a2) : ∀ x, (execFaultRead a1 a2 s) = .next x → s0.Follows x := by
  intro x hx
  unfold execFaultRead at hx
  try dsimp only at hx
  all_goals repeat' first
    | with_reducible assumption
    | with_reducible (refine State.actOn_follows ?_ _ _ _ _ ?_ _ (by assumption))
    | with_reducible apply State.faultRead_follows
    | (intro _ _ _)

theorem execFaultAck_follows {s0 s : State} (h : s0.Follows s) (a1 a2) : ∀ x, (execFaultAck a1 a2 s) = .next x → s0.Follows x := by
  intro x hx
  unfold execFaultAck at hx
  try dsimp only at hx
  all_goals repeat' first
    | with_reducible assumption
    | with_reducible (refine State.actOn_follows ?_ _ _ _ _ ?_ _ (by assumption))
    | with_reducible apply State.faultAck_follows
    | (intro _ _ _)

theorem execFaultClear_follows {s0 s : State} (h : s0.Follows s) (a1 a2) : ∀ x, (execFaultClear a1 a2 s) = .next x → s0.Follows x := by
  intro x hx
  unfold execFaultClear at hx
  try dsimp only at hx
  all_goals repeat' first
    | with_reducible assumption
    | with_reducible (refine State.actOn_follows ?_ _ _ _ _ ?_ _ (by assumption))
    | with_reducible apply State.faultClear_follows
    | (intro _ _ _)

theorem execSetPowerState_follows {s0 s : State} (h : s0.Follows s) (a1 a2) : ∀ x, (execSetPowerState a1 a2 s) = .next x → s0.Follows x := by
  intro x hx
  unfold execSetPowerState at hx
  try dsimp only at hx
  all_goals repeat' first
    | with_reducible assumption
    | with_reducible (refine State.act_follows ?_ _ _ _ _ ?_ _ (by assumption))
    | with_reducible apply State.reply_follows
    | with_reducible apply State.setPower_follows
    | split
    | (intro _ _ _)

theorem execPwrCapSet_follows {s0 s : State} (h : s0.Follows s) (a1 a2) : ∀ x, (execPwrCapSet a1 a2 s) = .next x → s0.Follows x := by
  intro x hx
  unfold execPwrCapSet at hx
  try dsimp only at hx
  all_goals repeat' first
    | with_reducible assumption
    | with_reducible (refine State.act_follows ?_ _ _ _ _ ?_ _ (by assumption))
    | with_reducible apply State.setCap_follows
    | with_reducible apply State.reply_follows
    | with_reducible apply State.wait_follows
    | split
    | (intro _ _ _)

theorem execFabRouteSet_follows {s0 s : State} (h : s0.Follows s) (a1 a2) : ∀ x, (execFabRouteSet a1 a2 s) = .next x → s0.Follows x := by
  intro x hx
  unfold execFabRouteSet at hx
  try dsimp only at hx
  all_goals repeat' first
    | with_reducible assumption
    | with_reducible (refine State.act_follows ?_ _ _ _ _ ?_ _ (by assumption))
    | with_reducible apply State.routeSet_follows
    | (intro _ _ _)

theorem execFabPortState_follows {s0 s : State} (h : s0.Follows s) (a1 a2) : ∀ x, (execFabPortState a1 a2 s) = .next x → s0.Follows x := by
  intro x hx
  unfold execFabPortState at hx
  try dsimp only at hx
  all_goals repeat' first
    | with_reducible assumption
    | with_reducible (refine State.act_follows ?_ _ _ _ _ ?_ _ (by assumption))
    | with_reducible apply State.portState_follows
    | (intro _ _ _)

theorem execLanternStatus_follows {s0 s : State} (h : s0.Follows s) (a1 a2) : ∀ x, (execLanternStatus a1 a2 s) = .next x → s0.Follows x := by
  intro x hx
  unfold execLanternStatus at hx
  try dsimp only at hx
  all_goals repeat' first
    | with_reducible assumption
    | with_reducible (refine State.actOn_follows ?_ _ _ _ _ ?_ _ (by assumption))
    | with_reducible apply State.lanternRead_follows
    | (intro _ _ _)

theorem execLaserSwap_follows {s0 s : State} (h : s0.Follows s) (a1 a2) : ∀ x, (execLaserSwap a1 a2 s) = .next x → s0.Follows x := by
  intro x hx
  unfold execLaserSwap at hx
  try dsimp only at hx
  all_goals repeat' first
    | with_reducible assumption
    | with_reducible (refine State.act_follows ?_ _ _ _ _ ?_ _ (by assumption))
    | with_reducible apply State.laserSwap_follows
    | (intro _ _ _)

theorem execCalGapPolicy_follows {s0 s : State} (h : s0.Follows s) (a1 a2) : ∀ x, (execCalGapPolicy a1 a2 s) = .next x → s0.Follows x := by
  intro x hx
  unfold execCalGapPolicy at hx
  try dsimp only at hx
  all_goals repeat' first
    | with_reducible assumption
    | with_reducible (refine State.act_follows ?_ _ _ _ _ ?_ _ (by assumption))
    | with_reducible apply State.calGapPolicy_follows
    | (intro _ _ _)

theorem execServiceDrain_follows {s0 s : State} (h : s0.Follows s) (a1 a2) : ∀ x, (execServiceDrain a1 a2 s) = .next x → s0.Follows x := by
  intro x hx
  unfold execServiceDrain at hx
  try dsimp only at hx
  all_goals repeat' first
    | with_reducible assumption
    | with_reducible (refine State.act_follows ?_ _ _ _ _ ?_ _ (by assumption))
    | with_reducible apply State.serviceDrain_follows
    | (intro _ _ _)

theorem execThermStatus_follows {s0 s : State} (h : s0.Follows s) (a1 a2) : ∀ x, (execThermStatus a1 a2 s) = .next x → s0.Follows x := by
  intro x hx
  unfold execThermStatus at hx
  try dsimp only at hx
  all_goals repeat' first
    | with_reducible assumption
    | with_reducible (refine State.actOn_follows ?_ _ _ _ _ ?_ _ (by assumption))
    | with_reducible apply State.thermStatus_follows
    | (intro _ _ _)

theorem execMarginReport_follows {s0 s : State} (h : s0.Follows s) (a1 a2) : ∀ x, (execMarginReport a1 a2 s) = .next x → s0.Follows x := by
  intro x hx
  unfold execMarginReport at hx
  try dsimp only at hx
  all_goals repeat' first
    | with_reducible assumption
    | with_reducible (refine State.actOn_follows ?_ _ _ _ _ ?_ _ (by assumption))
    | with_reducible apply State.marginReport_follows
    | (intro _ _ _)

theorem execLaneBitslip_follows {s0 s : State} (h : s0.Follows s) (a1 a2) : ∀ x, (execLaneBitslip a1 a2 s) = .next x → s0.Follows x := by
  intro x hx
  unfold execLaneBitslip at hx
  try dsimp only at hx
  all_goals repeat' first
    | with_reducible assumption
    | with_reducible (refine State.act_follows ?_ _ _ _ _ ?_ _ (by assumption))
    | with_reducible apply State.modBundle_follows
    | with_reducible apply State.reply_follows
    | split
    | (intro _ _ _)

theorem execLaneFomRead_follows {s0 s : State} (h : s0.Follows s) (a1 a2) : ∀ x, (execLaneFomRead a1 a2 s) = .next x → s0.Follows x := by
  intro x hx
  unfold execLaneFomRead at hx
  try dsimp only at hx
  all_goals repeat' first
    | with_reducible assumption
    | with_reducible (refine State.actOn_follows ?_ _ _ _ _ ?_ _ (by assumption))
    | with_reducible apply State.reply_follows
    | (intro _ _ _)

theorem execFunctionLevelReset_follows {s0 s : State} (h : s0.Follows s) (a1 a2) : ∀ x, (execFunctionLevelReset a1 a2 s) = .next x → s0.Follows x := by
  intro x hx
  unfold execFunctionLevelReset at hx
  try dsimp only at hx
  with_reducible obtain rfl := Host.Outcome.next.inj hx
  all_goals repeat' first
    | with_reducible assumption
    | with_reducible apply State.atTime_follows
    | with_reducible apply State.partReset_follows
    | with_reducible apply State.resetFunction_follows
    | with_reducible apply State.partBack_follows
    | split

theorem execHotReset_follows {s0 s : State} (h : s0.Follows s) (a1 a2) : ∀ x, (execHotReset a1 a2 s) = .next x → s0.Follows x := by
  intro x hx
  unfold execHotReset at hx
  try dsimp only at hx
  with_reducible obtain rfl := Host.Outcome.next.inj hx
  all_goals repeat' first
    | with_reducible assumption
    | with_reducible apply State.atTime_follows
    | with_reducible apply State.hostLinkDown_follows

theorem execPerstNAssert_follows {s0 s : State} (h : s0.Follows s) (a1 a2) : ∀ x, (execPerstNAssert a1 a2 s) = .next x → s0.Follows x := by
  intro x hx
  unfold execPerstNAssert at hx
  try dsimp only at hx
  with_reducible obtain rfl := Host.Outcome.next.inj hx
  all_goals repeat' first
    | with_reducible assumption
    | with_reducible apply State.atTime_follows
    | with_reducible apply State.hostLinkDown_follows

theorem execHostLinkUp_follows {s0 s : State} (h : s0.Follows s) (a1 a2 a3 a4) : ∀ x, (execHostLinkUp a1 a2 a3 a4 s) = .next x → s0.Follows x := by
  intro x hx
  unfold execHostLinkUp at hx
  try dsimp only at hx
  with_reducible obtain rfl := Host.Outcome.next.inj hx
  all_goals repeat' first
    | with_reducible assumption
    | with_reducible apply State.atTime_follows
    | with_reducible apply State.partBack_follows
    | with_reducible apply State.oculusUpdate_follows
    | with_reducible apply State.modPort_follows
    | with_reducible apply State.report_follows
    | split

theorem execD3hotEntry_follows {s0 s : State} (h : s0.Follows s) (a1 a2) : ∀ x, (execD3hotEntry a1 a2 s) = .next x → s0.Follows x := by
  intro x hx
  unfold execD3hotEntry at hx
  try dsimp only at hx
  with_reducible obtain rfl := Host.Outcome.next.inj hx
  all_goals repeat' first
    | with_reducible assumption
    | with_reducible apply State.atTime_follows
    | with_reducible apply State.cfgRequest_follows
    | with_reducible apply State.modPort_follows
    | (intro _ _)

theorem execD3hotExit_follows {s0 s : State} (h : s0.Follows s) (a1 a2) : ∀ x, (execD3hotExit a1 a2 s) = .next x → s0.Follows x := by
  intro x hx
  unfold execD3hotExit at hx
  try dsimp only at hx
  with_reducible obtain rfl := Host.Outcome.next.inj hx
  all_goals repeat' first
    | with_reducible assumption
    | with_reducible apply State.atTime_follows
    | with_reducible apply State.cfgRequest_follows
    | with_reducible apply State.modPort_follows
    | (intro _ _)

theorem execHstPartReset_follows {s0 s : State} (h : s0.Follows s) (a1 a2 a3 a4) : ∀ x, (execHstPartReset a1 a2 a3 a4 s) = .next x → s0.Follows x := by
  intro x hx
  unfold execHstPartReset at hx
  try dsimp only at hx
  with_reducible obtain rfl := Host.Outcome.next.inj hx
  all_goals repeat' first
    | with_reducible assumption
    | with_reducible apply State.atTime_follows
    | with_reducible apply State.writePartReset_follows

theorem execDrmSteward_follows {s0 s : State} (h : s0.Follows s) (a1 a2 a3) : ∀ x, (execDrmSteward a1 a2 a3 s) = .next x → s0.Follows x := by
  intro x hx
  unfold execDrmSteward at hx
  try dsimp only at hx
  with_reducible obtain rfl := Host.Outcome.next.inj hx
  all_goals repeat' first
    | with_reducible assumption
    | with_reducible apply State.atTime_follows
    | with_reducible apply State.writeSteward_follows

theorem execOcuGenOffer_follows {s0 s : State} (h : s0.Follows s) (a1 a2 a3) : ∀ x, (execOcuGenOffer a1 a2 a3 s) = .next x → s0.Follows x := by
  intro x hx
  unfold execOcuGenOffer at hx
  try dsimp only at hx
  with_reducible obtain rfl := Host.Outcome.next.inj hx
  all_goals repeat' first
    | with_reducible assumption
    | with_reducible apply State.atTime_follows
    | with_reducible apply State.writeOffer_follows

theorem execBelfryLog_follows {s0 s : State} (h : s0.Follows s) (a1) : ∀ x, (execBelfryLog a1 s) = .next x → s0.Follows x := by
  intro x hx
  unfold execBelfryLog at hx
  try dsimp only at hx
  with_reducible obtain rfl := Host.Outcome.next.inj hx
  all_goals repeat' first
    | with_reducible assumption
    | with_reducible apply State.atTime_follows
    | with_reducible apply State.logDue_follows

theorem execBelfryParity_follows {s0 s : State} (h : s0.Follows s) (a1 a2) : ∀ x, (execBelfryParity a1 a2 s) = .next x → s0.Follows x := by
  intro x hx
  unfold execBelfryParity at hx
  try dsimp only at hx
  with_reducible obtain rfl := Host.Outcome.next.inj hx
  all_goals repeat' first
    | with_reducible assumption
    | with_reducible apply State.atTime_follows
    | with_reducible apply State.belfryParity_follows

theorem execBelfryMessageArrival_follows {s0 s : State} (h : s0.Follows s) (a1 a2 a3) : ∀ x, (execBelfryMessageArrival a1 a2 a3 s) = .next x → s0.Follows x := by
  intro x hx
  unfold execBelfryMessageArrival at hx
  try dsimp only at hx
  repeat' first
    | (with_reducible obtain rfl := Host.Outcome.next.inj hx)
    | split at hx
  all_goals repeat' first
    | with_reducible assumption
    | with_reducible apply State.atTime_follows
    | with_reducible apply State.arrive_follows

theorem execFaultInject_follows {s0 s : State} (h : s0.Follows s) (a1 a2) : ∀ x, (execFaultInject a1 a2 s) = .next x → s0.Follows x := by
  intro x hx
  unfold execFaultInject at hx
  try dsimp only at hx
  all_goals repeat' first
    | with_reducible assumption
    | with_reducible (refine State.actOn_follows ?_ _ _ _ _ ?_ _ (by assumption))
    | with_reducible apply State.inject_follows
    | (intro _ _ _)

theorem execFltEntryAck_follows {s0 s : State} (h : s0.Follows s) (a1 a2) : ∀ x, (execFltEntryAck a1 a2 s) = .next x → s0.Follows x := by
  intro x hx
  unfold execFltEntryAck at hx
  try dsimp only at hx
  with_reducible obtain rfl := Host.Outcome.next.inj hx
  all_goals repeat' first
    | with_reducible assumption
    | with_reducible apply State.atTime_follows
    | with_reducible apply State.writeFltEntry_follows

theorem execFltEntryClear_follows {s0 s : State} (h : s0.Follows s) (a1 a2) : ∀ x, (execFltEntryClear a1 a2 s) = .next x → s0.Follows x := by
  intro x hx
  unfold execFltEntryClear at hx
  try dsimp only at hx
  with_reducible obtain rfl := Host.Outcome.next.inj hx
  all_goals repeat' first
    | with_reducible assumption
    | with_reducible apply State.atTime_follows
    | with_reducible apply State.writeFltEntry_follows

theorem execTrainingParamsWrite_follows {s0 s : State} (h : s0.Follows s) (a1) : ∀ x, (execTrainingParamsWrite a1 s) = .next x → s0.Follows x := by
  intro x hx
  unfold execTrainingParamsWrite at hx
  try dsimp only at hx
  with_reducible obtain rfl := Host.Outcome.next.inj hx
  all_goals repeat' first
    | with_reducible assumption
    | with_reducible apply State.atTime_follows
    | with_reducible (simp only [follows_mk])
    | split

theorem execColdStart_follows {s0 s : State} (h : s0.Follows s) (a1 a2) : ∀ x, (execColdStart a1 a2 s) = .next x → s0.Follows x := by
  intro x hx
  unfold execColdStart at hx
  try dsimp only at hx
  with_reducible obtain rfl := Host.Outcome.next.inj hx
  all_goals repeat' first
    | with_reducible assumption
    | with_reducible apply State.atTime_follows
    | with_reducible apply State.runStart_follows
    | split

theorem execWarmStart_follows {s0 s : State} (h : s0.Follows s) (a1 a2) : ∀ x, (execWarmStart a1 a2 s) = .next x → s0.Follows x := by
  intro x hx
  unfold execWarmStart at hx
  try dsimp only at hx
  with_reducible obtain rfl := Host.Outcome.next.inj hx
  all_goals repeat' first
    | with_reducible assumption
    | with_reducible apply State.atTime_follows
    | with_reducible apply State.runStart_follows
    | split

theorem execStartFailure_follows {s0 s : State} (h : s0.Follows s) (a1 a2) : ∀ x, (execStartFailure a1 a2 s) = .next x → s0.Follows x := by
  intro x hx
  unfold execStartFailure at hx
  try dsimp only at hx
  with_reducible obtain rfl := Host.Outcome.next.inj hx
  all_goals repeat' first
    | with_reducible assumption
    | with_reducible apply State.atTime_follows
    | with_reducible apply State.releaseGallery_follows
    | with_reducible apply State.report_follows
    | with_reducible apply State.safeState_follows
    | with_reducible (simp only [follows_mk])
    | split

theorem execAutoDeviceReset_follows {s0 s : State} (h : s0.Follows s) (a1) : ∀ x, (execAutoDeviceReset a1 s) = .next x → s0.Follows x := by
  intro x hx
  unfold execAutoDeviceReset at hx
  try dsimp only at hx
  with_reducible obtain rfl := Host.Outcome.next.inj hx
  all_goals repeat' first
    | with_reducible assumption
    | with_reducible apply State.atTime_follows
    | with_reducible apply State.deviceReset_follows
    | split

theorem execPackageReset_follows {s0 s : State} (h : s0.Follows s) (a1 a2) : ∀ x, (execPackageReset a1 a2 s) = .next x → s0.Follows x := by
  intro x hx
  unfold execPackageReset at hx
  try dsimp only at hx
  repeat' first
    | (with_reducible obtain rfl := Host.Outcome.next.inj hx)
    | split at hx
  all_goals repeat' first
    | with_reducible assumption
    | with_reducible apply State.atTime_follows
    | with_reducible apply State.resetTo_follows

theorem execPackageResetRelease_follows {s0 s : State} (h : s0.Follows s) (a1 a2 a3) : ∀ x, (execPackageResetRelease a1 a2 a3 s) = .next x → s0.Follows x := by
  intro x hx
  unfold execPackageResetRelease at hx
  try dsimp only at hx
  with_reducible obtain rfl := Host.Outcome.next.inj hx
  all_goals repeat' first
    | with_reducible assumption
    | with_reducible apply State.atTime_follows
    | with_reducible (simp only [follows_mk])
    | split

theorem execTbrefLoss_follows {s0 s : State} (h : s0.Follows s) (a1) : ∀ x, (execTbrefLoss a1 s) = .next x → s0.Follows x := by
  intro x hx
  unfold execTbrefLoss at hx
  try dsimp only at hx
  with_reducible obtain rfl := Host.Outcome.next.inj hx
  all_goals repeat' first
    | with_reducible assumption
    | with_reducible apply State.atTime_follows
    | with_reducible (simp only [follows_mk])

theorem execOrderlyHalfReset_follows {s0 s : State} (h : s0.Follows s) (a1 a2 a3 a4) : ∀ x, (execOrderlyHalfReset a1 a2 a3 a4 s) = .next x → s0.Follows x := by
  intro x hx
  unfold execOrderlyHalfReset at hx
  try dsimp only at hx
  with_reducible obtain rfl := Host.Outcome.next.inj hx
  all_goals repeat' first
    | with_reducible assumption
    | with_reducible apply State.atTime_follows
    | with_reducible apply State.writeResetCtrl_follows

theorem execDeclareHalfLost_follows {s0 s : State} (h : s0.Follows s) (a1 a2 a3 a4) : ∀ x, (execDeclareHalfLost a1 a2 a3 a4 s) = .next x → s0.Follows x := by
  intro x hx
  unfold execDeclareHalfLost at hx
  try dsimp only at hx
  with_reducible obtain rfl := Host.Outcome.next.inj hx
  all_goals repeat' first
    | with_reducible assumption
    | with_reducible apply State.atTime_follows
    | with_reducible apply State.writeResetCtrl_follows

theorem execSingleHalfOperation_follows {s0 s : State} (h : s0.Follows s) (a1 a2 a3) : ∀ x, (execSingleHalfOperation a1 a2 a3 s) = .next x → s0.Follows x := by
  intro x hx
  unfold execSingleHalfOperation at hx
  try dsimp only at hx
  with_reducible obtain rfl := Host.Outcome.next.inj hx
  all_goals repeat' first
    | with_reducible assumption
    | with_reducible apply State.atTime_follows
    | with_reducible apply State.writeResetCtrl_follows

theorem execDeviceReset_follows {s0 s : State} (h : s0.Follows s) (a1 a2 a3) : ∀ x, (execDeviceReset a1 a2 a3 s) = .next x → s0.Follows x := by
  intro x hx
  unfold execDeviceReset at hx
  try dsimp only at hx
  with_reducible obtain rfl := Host.Outcome.next.inj hx
  all_goals repeat' first
    | with_reducible assumption
    | with_reducible apply State.atTime_follows
    | with_reducible apply State.writeResetCtrl_follows

theorem execDeviceResetCold_follows {s0 s : State} (h : s0.Follows s) (a1 a2 a3) : ∀ x, (execDeviceResetCold a1 a2 a3 s) = .next x → s0.Follows x := by
  intro x hx
  unfold execDeviceResetCold at hx
  try dsimp only at hx
  with_reducible obtain rfl := Host.Outcome.next.inj hx
  all_goals repeat' first
    | with_reducible assumption
    | with_reducible apply State.atTime_follows
    | with_reducible apply State.writeResetCtrl_follows

theorem execRequestColdStart_follows {s0 s : State} (h : s0.Follows s) (a1 a2 a3) : ∀ x, (execRequestColdStart a1 a2 a3 s) = .next x → s0.Follows x := by
  intro x hx
  unfold execRequestColdStart at hx
  try dsimp only at hx
  with_reducible obtain rfl := Host.Outcome.next.inj hx
  all_goals repeat' first
    | with_reducible assumption
    | with_reducible apply State.atTime_follows
    | with_reducible apply State.writeResetCtrl_follows

theorem execWithdrawColdRequest_follows {s0 s : State} (h : s0.Follows s) (a1 a2 a3) : ∀ x, (execWithdrawColdRequest a1 a2 a3 s) = .next x → s0.Follows x := by
  intro x hx
  unfold execWithdrawColdRequest at hx
  try dsimp only at hx
  with_reducible obtain rfl := Host.Outcome.next.inj hx
  all_goals repeat' first
    | with_reducible assumption
    | with_reducible apply State.atTime_follows
    | with_reducible apply State.writeResetCtrl_follows

theorem execRailBelowReset_follows {s0 s : State} (h : s0.Follows s) (a1 a2 a3) : ∀ x, (execRailBelowReset a1 a2 a3 s) = .next x → s0.Follows x := by
  intro x hx
  unfold execRailBelowReset at hx
  try dsimp only at hx
  with_reducible obtain rfl := Host.Outcome.next.inj hx
  all_goals repeat' first
    | with_reducible assumption
    | with_reducible apply State.atTime_follows
    | with_reducible apply State.modRail_follows
    | with_reducible apply State.modEng_follows
    | with_reducible apply State.report_follows
    | with_reducible apply State.railReset_follows
    | with_reducible (simp only [follows_mk])
    | split

theorem execHalfPllUnlock_follows {s0 s : State} (h : s0.Follows s) (a1 a2) : ∀ x, (execHalfPllUnlock a1 a2 s) = .next x → s0.Follows x := by
  intro x hx
  unfold execHalfPllUnlock at hx
  try dsimp only at hx
  with_reducible obtain rfl := Host.Outcome.next.inj hx
  all_goals repeat' first
    | with_reducible assumption
    | with_reducible apply State.atTime_follows
    | with_reducible apply State.crashHalf_follows

theorem execOrderlyResetTimeout_follows {s0 s : State} (h : s0.Follows s) (a1 a2) : ∀ x, (execOrderlyResetTimeout a1 a2 s) = .next x → s0.Follows x := by
  intro x hx
  unfold execOrderlyResetTimeout at hx
  try dsimp only at hx
  with_reducible obtain rfl := Host.Outcome.next.inj hx
  all_goals repeat' first
    | with_reducible assumption
    | with_reducible apply State.atTime_follows
    | with_reducible apply State.crashHalf_follows
    | split

theorem execHalfReturn_follows {s0 s : State} (h : s0.Follows s) (a1 a2 a3) : ∀ x, (execHalfReturn a1 a2 a3 s) = .next x → s0.Follows x := by
  intro x hx
  unfold execHalfReturn at hx
  try dsimp only at hx
  with_reducible obtain rfl := Host.Outcome.next.inj hx
  all_goals repeat' first
    | with_reducible assumption
    | with_reducible apply State.atTime_follows
    | with_reducible apply State.safeState_follows
    | with_reducible apply State.report_follows
    | with_reducible apply State.halfBack_follows
    | with_reducible apply follows_foldl
    | split
    | (intro _ _ _)

theorem execHalfStartFailure_follows {s0 s : State} (h : s0.Follows s) (a1 a2) : ∀ x, (execHalfStartFailure a1 a2 s) = .next x → s0.Follows x := by
  intro x hx
  unfold execHalfStartFailure at hx
  try dsimp only at hx
  with_reducible obtain rfl := Host.Outcome.next.inj hx
  all_goals repeat' first
    | with_reducible assumption
    | with_reducible apply State.atTime_follows
    | with_reducible apply State.loseHalf_follows
    | with_reducible apply State.modArr_follows
    | split

theorem execFwUpdate_follows {s0 s : State} (h : s0.Follows s) (a1 a2) : ∀ x, (execFwUpdate a1 a2 s) = .next x → s0.Follows x := by
  intro x hx
  unfold execFwUpdate at hx
  try dsimp only at hx
  all_goals repeat' first
    | with_reducible assumption
    | with_reducible (refine State.keepAct_follows ?_ _ _ _ _ ?_ _ (by assumption))
    | with_reducible apply State.fwUpdate_follows
    | (intro _ _ _)

theorem execUpdateSessionTimeout_follows {s0 s : State} (h : s0.Follows s) (a1) : ∀ x, (execUpdateSessionTimeout a1 s) = .next x → s0.Follows x := by
  intro x hx
  unfold execUpdateSessionTimeout at hx
  try dsimp only at hx
  with_reducible obtain rfl := Host.Outcome.next.inj hx
  all_goals repeat' first
    | with_reducible assumption
    | with_reducible apply State.atTime_follows
    | with_reducible apply State.endSession_follows
    | split

theorem execAttest_follows {s0 s : State} (h : s0.Follows s) (a1 a2) : ∀ x, (execAttest a1 a2 s) = .next x → s0.Follows x := by
  intro x hx
  unfold execAttest at hx
  try dsimp only at hx
  all_goals repeat' first
    | with_reducible assumption
    | with_reducible (refine State.keepAct_follows ?_ _ _ _ _ ?_ _ (by assumption))
    | with_reducible apply State.reply_follows
    | with_reducible apply State.dma_follows
    | split
    | (intro _ _ _)

theorem execDebugUnlock_follows {s0 s : State} (h : s0.Follows s) (a1 a2) : ∀ x, (execDebugUnlock a1 a2 s) = .next x → s0.Follows x := by
  intro x hx
  unfold execDebugUnlock at hx
  try dsimp only at hx
  all_goals repeat' first
    | with_reducible assumption
    | with_reducible (refine State.keepAct_follows ?_ _ _ _ _ ?_ _ (by assumption))
    | with_reducible apply State.debugUnlock_follows
    | (intro _ _ _)

theorem execFactoryCommand_follows {s0 s : State} (h : s0.Follows s) (a1 a2) : ∀ x, (execFactoryCommand a1 a2 s) = .next x → s0.Follows x := by
  intro x hx
  unfold execFactoryCommand at hx
  try dsimp only at hx
  repeat' first
    | (with_reducible obtain rfl := Host.Outcome.next.inj hx)
    | cases hx; done
    | split at hx
  all_goals repeat' first
    | with_reducible assumption
    | with_reducible apply State.atTime_follows

theorem execSpdmGetVersion_follows {s0 s : State} (h : s0.Follows s) (a1 a2) : ∀ x, (execSpdmGetVersion a1 a2 s) = .next x → s0.Follows x := by
  intro x hx
  unfold execSpdmGetVersion at hx
  try dsimp only at hx
  all_goals repeat' first
    | with_reducible assumption
    | with_reducible (refine State.spdm_follows ?_ _ _ _ _ _ ?_ _ (by assumption))
    | with_reducible apply State.modPort_follows
    | (intro _ _)

theorem execSpdmGetCapabilities_follows {s0 s : State} (h : s0.Follows s) (a1 a2) : ∀ x, (execSpdmGetCapabilities a1 a2 s) = .next x → s0.Follows x := by
  intro x hx
  unfold execSpdmGetCapabilities at hx
  try dsimp only at hx
  all_goals repeat' first
    | with_reducible assumption
    | with_reducible apply State.notMeasuring_follows
    | with_reducible (refine State.spdm_follows ?_ _ _ _ _ _ ?_ _ (by assumption))
    | with_reducible apply State.modPort_follows
    | split
    | (intro _ _)

theorem execSpdmNegotiateAlgorithms_follows {s0 s : State} (h : s0.Follows s) (a1 a2) : ∀ x, (execSpdmNegotiateAlgorithms a1 a2 s) = .next x → s0.Follows x := by
  intro x hx
  unfold execSpdmNegotiateAlgorithms at hx
  try dsimp only at hx
  all_goals repeat' first
    | with_reducible assumption
    | with_reducible apply State.notMeasuring_follows
    | with_reducible (refine State.spdm_follows ?_ _ _ _ _ _ ?_ _ (by assumption))
    | with_reducible apply State.modPort_follows
    | split
    | (intro _ _)

theorem execSpdmGetDigests_follows {s0 s : State} (h : s0.Follows s) (a1 a2) : ∀ x, (execSpdmGetDigests a1 a2 s) = .next x → s0.Follows x := by
  intro x hx
  unfold execSpdmGetDigests at hx
  try dsimp only at hx
  all_goals repeat' first
    | with_reducible assumption
    | with_reducible apply State.notMeasuring_follows
    | with_reducible apply State.serveChain_follows
    | with_reducible (refine State.spdm_follows ?_ _ _ _ _ _ ?_ _ (by assumption))
    | with_reducible apply State.respond_follows
    | with_reducible apply State.modPort_follows
    | split
    | (intro _ _)

theorem execSpdmGetCertificate_follows {s0 s : State} (h : s0.Follows s) (a1 a2 a3 a4) : ∀ x, (execSpdmGetCertificate a1 a2 a3 a4 s) = .next x → s0.Follows x := by
  intro x hx
  unfold execSpdmGetCertificate at hx
  try dsimp only at hx
  all_goals repeat' first
    | with_reducible assumption
    | with_reducible apply State.notMeasuring_follows
    | with_reducible apply State.serveChain_follows
    | with_reducible (refine State.spdm_follows ?_ _ _ _ _ _ ?_ _ (by assumption))
    | with_reducible apply State.modPort_follows
    | with_reducible apply State.respond_follows
    | split
    | (intro _ _)

theorem execSpdmChallenge_follows {s0 s : State} (h : s0.Follows s) (a1 a2 a3 a4) : ∀ x, (execSpdmChallenge a1 a2 a3 a4 s) = .next x → s0.Follows x := by
  intro x hx
  unfold execSpdmChallenge at hx
  try dsimp only at hx
  all_goals repeat' first
    | with_reducible assumption
    | with_reducible apply State.notMeasuring_follows
    | with_reducible apply State.modPort_follows
    | with_reducible (refine State.spdm_follows ?_ _ _ _ _ _ ?_ _ (by assumption))
    | with_reducible apply State.respond_follows
    | split
    | (intro _ _)

theorem execSpdmGetMeasurements_follows {s0 s : State} (h : s0.Follows s) (a1 a2 a3 a4 a5 a6) : ∀ x, (execSpdmGetMeasurements a1 a2 a3 a4 a5 a6 s) = .next x → s0.Follows x := by
  intro x hx
  unfold execSpdmGetMeasurements at hx
  try dsimp only at hx
  all_goals repeat' first
    | with_reducible assumption
    | with_reducible (refine State.spdm_follows ?_ _ _ _ _ _ ?_ _ (by assumption))
    | with_reducible apply State.modPort_follows
    | with_reducible apply State.respond_follows
    | split
    | (intro _ _)

theorem execSpdmRespondIfReady_follows {s0 s : State} (h : s0.Follows s) (a1 a2) : ∀ x, (execSpdmRespondIfReady a1 a2 s) = .next x → s0.Follows x := by
  intro x hx
  unfold execSpdmRespondIfReady at hx
  try dsimp only at hx
  split at hx
  all_goals repeat' first
    | with_reducible assumption
    | with_reducible apply State.notMeasuring_follows
    | with_reducible (refine State.spdm_follows ?_ _ _ _ _ _ ?_ _ (by assumption))
    | with_reducible apply State.modPort_follows
    | split
    | (intro _ _)

theorem execDoeDiscovery_follows {s0 s : State} (h : s0.Follows s) (a1 a2 a3) : ∀ x, (execDoeDiscovery a1 a2 a3 s) = .next x → s0.Follows x := by
  intro x hx
  unfold execDoeDiscovery at hx
  try dsimp only at hx
  with_reducible obtain rfl := Host.Outcome.next.inj hx
  all_goals repeat' first
    | with_reducible assumption
    | with_reducible apply State.atTime_follows
    | with_reducible apply State.cfgRequest_follows
    | with_reducible apply State.modPort_follows
    | split
    | (intro _ _)

theorem execPldmGetTid_follows {s0 s : State} (h : s0.Follows s) (a1) : ∀ x, (execPldmGetTid a1 s) = .next x → s0.Follows x := by
  intro x hx
  unfold execPldmGetTid at hx
  try dsimp only at hx
  all_goals repeat' first
    | with_reducible assumption
    | with_reducible (refine State.bmc_follows ?_ _ _ ?_ _ (by assumption))
    | with_reducible apply State.tell_follows
    | (intro _ _)

theorem execPldmGetVersion_follows {s0 s : State} (h : s0.Follows s) (a1 a2) : ∀ x, (execPldmGetVersion a1 a2 s) = .next x → s0.Follows x := by
  intro x hx
  unfold execPldmGetVersion at hx
  try dsimp only at hx
  all_goals repeat' first
    | with_reducible assumption
    | with_reducible (refine State.bmc_follows ?_ _ _ ?_ _ (by assumption))
    | with_reducible apply State.tell_follows
    | (intro _ _)

theorem execPldmGetTypes_follows {s0 s : State} (h : s0.Follows s) (a1) : ∀ x, (execPldmGetTypes a1 s) = .next x → s0.Follows x := by
  intro x hx
  unfold execPldmGetTypes at hx
  try dsimp only at hx
  all_goals repeat' first
    | with_reducible assumption
    | with_reducible (refine State.bmc_follows ?_ _ _ ?_ _ (by assumption))
    | with_reducible apply State.tell_follows
    | (intro _ _)

theorem execPldmGetCommands_follows {s0 s : State} (h : s0.Follows s) (a1 a2) : ∀ x, (execPldmGetCommands a1 a2 s) = .next x → s0.Follows x := by
  intro x hx
  unfold execPldmGetCommands at hx
  try dsimp only at hx
  all_goals repeat' first
    | with_reducible assumption
    | with_reducible (refine State.bmc_follows ?_ _ _ ?_ _ (by assumption))
    | with_reducible apply State.tell_follows
    | (intro _ _)

theorem execPldmReadSensor_follows {s0 s : State} (h : s0.Follows s) (a1 a2) : ∀ x, (execPldmReadSensor a1 a2 s) = .next x → s0.Follows x := by
  intro x hx
  unfold execPldmReadSensor at hx
  try dsimp only at hx
  all_goals repeat' first
    | with_reducible assumption
    | with_reducible (refine State.bmc_follows ?_ _ _ ?_ _ (by assumption))
    | with_reducible apply State.tell_follows
    | (intro _ _)

theorem execPldmSetPowerCap_follows {s0 s : State} (h : s0.Follows s) (a1 a2) : ∀ x, (execPldmSetPowerCap a1 a2 s) = .next x → s0.Follows x := by
  intro x hx
  unfold execPldmSetPowerCap at hx
  try dsimp only at hx
  all_goals repeat' first
    | with_reducible assumption
    | with_reducible (refine State.effect_follows ?_ _ _ _ ?_ _ (by assumption))
    | with_reducible apply State.tell_follows
    | with_reducible apply State.setCap_follows
    | split
    | (intro _ _)

theorem execPldmSetPowerState_follows {s0 s : State} (h : s0.Follows s) (a1 a2) : ∀ x, (execPldmSetPowerState a1 a2 s) = .next x → s0.Follows x := by
  intro x hx
  unfold execPldmSetPowerState at hx
  try dsimp only at hx
  all_goals repeat' first
    | with_reducible assumption
    | with_reducible (refine State.effect_follows ?_ _ _ _ ?_ _ (by assumption))
    | with_reducible apply State.tell_follows
    | with_reducible refine follows_fst (by assumption) (State.requestPower_follows ?_ _)
    | split
    | (intro _ _)

theorem execPldmSetSteward_follows {s0 s : State} (h : s0.Follows s) (a1 a2) : ∀ x, (execPldmSetSteward a1 a2 s) = .next x → s0.Follows x := by
  intro x hx
  unfold execPldmSetSteward at hx
  try dsimp only at hx
  all_goals repeat' first
    | with_reducible assumption
    | with_reducible (refine State.effect_follows ?_ _ _ _ ?_ _ (by assumption))
    | with_reducible apply State.tell_follows
    | with_reducible apply State.writeSteward_follows
    | split
    | (intro _ _)

theorem execPldmPartitionReset_follows {s0 s : State} (h : s0.Follows s) (a1 a2) : ∀ x, (execPldmPartitionReset a1 a2 s) = .next x → s0.Follows x := by
  intro x hx
  unfold execPldmPartitionReset at hx
  try dsimp only at hx
  all_goals repeat' first
    | with_reducible assumption
    | with_reducible (refine State.effect_follows ?_ _ _ _ ?_ _ (by assumption))
    | with_reducible apply State.tell_follows
    | with_reducible apply State.writePartReset_follows
    | split
    | (intro _ _)

theorem execPldmSetQuota_follows {s0 s : State} (h : s0.Follows s) (a1 a2 a3 a4) : ∀ x, (execPldmSetQuota a1 a2 a3 a4 s) = .next x → s0.Follows x := by
  intro x hx
  unfold execPldmSetQuota at hx
  try dsimp only at hx
  all_goals repeat' first
    | with_reducible assumption
    | with_reducible (refine State.effect_follows ?_ _ _ _ ?_ _ (by assumption))
    | with_reducible refine follows_getD (State.setQuota_follows ?_ _ _ _) ?_
    | with_reducible apply State.tell_follows
    | with_reducible apply State.galleryCommit_follows
    | split
    | (intro _ _)

theorem execPldmLanternService_follows {s0 s : State} (h : s0.Follows s) (a1 a2) : ∀ x, (execPldmLanternService a1 a2 s) = .next x → s0.Follows x := by
  intro x hx
  unfold execPldmLanternService at hx
  try dsimp only at hx
  all_goals repeat' first
    | with_reducible assumption
    | with_reducible (refine State.effect_follows ?_ _ _ _ ?_ _ (by assumption))
    | with_reducible apply State.tell_follows
    | with_reducible apply State.askDrain_follows
    | with_reducible apply State.settleRestore_follows
    | with_reducible apply State.startRestore_follows
    | with_reducible apply State.abandonDrain_follows
    | split
    | (intro _ _)

theorem execPldmPollEvent_follows {s0 s : State} (h : s0.Follows s) (a1 a2) : ∀ x, (execPldmPollEvent a1 a2 s) = .next x → s0.Follows x := by
  intro x hx
  unfold execPldmPollEvent at hx
  try dsimp only at hx
  all_goals repeat' first
    | with_reducible assumption
    | with_reducible (refine State.bmc_follows ?_ _ _ ?_ _ (by assumption))
    | with_reducible apply State.tell_follows
    | with_reducible apply State.ackEntry_follows
    | with_reducible (simp only [follows_mk])
    | split
    | (intro _ _)

theorem execPldmFaultClear_follows {s0 s : State} (h : s0.Follows s) (a1 a2) : ∀ x, (execPldmFaultClear a1 a2 s) = .next x → s0.Follows x := by
  intro x hx
  unfold execPldmFaultClear at hx
  try dsimp only at hx
  all_goals repeat' first
    | with_reducible assumption
    | with_reducible (refine State.effect_follows ?_ _ _ _ ?_ _ (by assumption))
    | with_reducible apply State.tell_follows
    | with_reducible apply State.clearEntry_follows
    | split
    | (intro _ _)

theorem execPldmRequestUpdate_follows {s0 s : State} (h : s0.Follows s) (a1 a2) : ∀ x, (execPldmRequestUpdate a1 a2 s) = .next x → s0.Follows x := by
  intro x hx
  unfold execPldmRequestUpdate at hx
  try dsimp only at hx
  all_goals repeat' first
    | with_reducible assumption
    | with_reducible (refine State.bmc_follows ?_ _ _ ?_ _ (by assumption))
    | with_reducible apply State.tell_follows
    | with_reducible apply State.stage_follows
    | with_reducible (simp only [follows_mk])
    | split
    | (intro _ _)

theorem execPldmPassComponentTable_follows {s0 s : State} (h : s0.Follows s) (a1 a2) : ∀ x, (execPldmPassComponentTable a1 a2 s) = .next x → s0.Follows x := by
  intro x hx
  unfold execPldmPassComponentTable at hx
  try dsimp only at hx
  all_goals repeat' first
    | with_reducible assumption
    | with_reducible (refine State.update_follows ?_ _ _ _ ?_ _ (by assumption))
    | with_reducible apply State.tell_follows
    | with_reducible apply State.stage_follows
    | with_reducible (simp only [follows_mk])
    | split
    | (intro _ _ _)

theorem execPldmUpdateComponent_follows {s0 s : State} (h : s0.Follows s) (a1) : ∀ x, (execPldmUpdateComponent a1 s) = .next x → s0.Follows x := by
  intro x hx
  unfold execPldmUpdateComponent at hx
  try dsimp only at hx
  all_goals repeat' first
    | with_reducible assumption
    | with_reducible (refine State.update_follows ?_ _ _ _ ?_ _ (by assumption))
    | with_reducible apply State.stage_follows
    | (intro _ _ _)

theorem execPldmRequestFirmwareData_follows {s0 s : State} (h : s0.Follows s) (a1 a2 a3) : ∀ x, (execPldmRequestFirmwareData a1 a2 a3 s) = .next x → s0.Follows x := by
  intro x hx
  unfold execPldmRequestFirmwareData at hx
  try dsimp only at hx
  all_goals repeat' first
    | with_reducible assumption
    | with_reducible (refine State.update_follows ?_ _ _ _ ?_ _ (by assumption))
    | with_reducible apply State.tell_follows
    | with_reducible apply State.writeImage_follows
    | split
    | (intro _ _ _)

theorem execPldmTransferComplete_follows {s0 s : State} (h : s0.Follows s) (a1) : ∀ x, (execPldmTransferComplete a1 s) = .next x → s0.Follows x := by
  intro x hx
  unfold execPldmTransferComplete at hx
  try dsimp only at hx
  all_goals repeat' first
    | with_reducible assumption
    | with_reducible (refine State.update_follows ?_ _ _ _ ?_ _ (by assumption))
    | with_reducible apply State.tell_follows
    | with_reducible apply State.stage_follows
    | split
    | (intro _ _ _)

theorem execPldmVerifyComplete_follows {s0 s : State} (h : s0.Follows s) (a1) : ∀ x, (execPldmVerifyComplete a1 s) = .next x → s0.Follows x := by
  intro x hx
  unfold execPldmVerifyComplete at hx
  try dsimp only at hx
  all_goals repeat' first
    | with_reducible assumption
    | with_reducible (refine State.update_follows ?_ _ _ _ ?_ _ (by assumption))
    | with_reducible apply State.stage_follows
    | with_reducible apply State.tell_follows
    | split
    | (intro _ _ _)

theorem execPldmApplyComplete_follows {s0 s : State} (h : s0.Follows s) (a1) : ∀ x, (execPldmApplyComplete a1 s) = .next x → s0.Follows x := by
  intro x hx
  unfold execPldmApplyComplete at hx
  try dsimp only at hx
  all_goals repeat' first
    | with_reducible assumption
    | with_reducible (refine State.update_follows ?_ _ _ _ ?_ _ (by assumption))
    | with_reducible apply State.stage_follows
    | (intro _ _ _)

theorem execPldmActivateFirmware_follows {s0 s : State} (h : s0.Follows s) (a1) : ∀ x, (execPldmActivateFirmware a1 s) = .next x → s0.Follows x := by
  intro x hx
  unfold execPldmActivateFirmware at hx
  try dsimp only at hx
  all_goals repeat' first
    | with_reducible assumption
    | with_reducible (refine State.update_follows ?_ _ _ _ ?_ _ (by assumption))
    | with_reducible apply State.tell_follows
    | with_reducible apply State.endSession_follows
    | with_reducible apply State.markSlot_follows
    | (intro _ _ _)

theorem execPldmGetStatus_follows {s0 s : State} (h : s0.Follows s) (a1) : ∀ x, (execPldmGetStatus a1 s) = .next x → s0.Follows x := by
  intro x hx
  unfold execPldmGetStatus at hx
  try dsimp only at hx
  all_goals repeat' first
    | with_reducible assumption
    | with_reducible (refine State.bmc_follows ?_ _ _ ?_ _ (by assumption))
    | with_reducible apply State.tell_follows
    | (intro _ _)

theorem execPldmCancelUpdate_follows {s0 s : State} (h : s0.Follows s) (a1) : ∀ x, (execPldmCancelUpdate a1 s) = .next x → s0.Follows x := by
  intro x hx
  unfold execPldmCancelUpdate at hx
  try dsimp only at hx
  all_goals repeat' first
    | with_reducible assumption
    | with_reducible (refine State.bmc_follows ?_ _ _ ?_ _ (by assumption))
    | with_reducible apply State.tell_follows
    | with_reducible apply State.endSession_follows
    | split
    | (intro _ _)

theorem execEndpointIdAssignment_follows {s0 s : State} (h : s0.Follows s) (a1 a2) : ∀ x, (execEndpointIdAssignment a1 a2 s) = .next x → s0.Follows x := by
  intro x hx
  unfold execEndpointIdAssignment at hx
  try dsimp only at hx
  all_goals repeat' first
    | with_reducible assumption
    | with_reducible (refine State.bmc_follows ?_ _ _ ?_ _ (by assumption))
    | with_reducible (simp only [follows_mk])
    | (intro _ _)

theorem execDynamicAddressAssignment_follows {s0 s : State} (h : s0.Follows s) (a1 a2) : ∀ x, (execDynamicAddressAssignment a1 a2 s) = .next x → s0.Follows x := by
  intro x hx
  unfold execDynamicAddressAssignment at hx
  try dsimp only at hx
  all_goals repeat' first
    | with_reducible assumption
    | with_reducible (refine State.bmc_follows ?_ _ _ ?_ _ (by assumption))
    | with_reducible (simp only [follows_mk])
    | (intro _ _)

theorem execJtagBypass_follows {s0 s : State} (h : s0.Follows s) (a1) : ∀ x, (execJtagBypass a1 s) = .next x → s0.Follows x := by
  intro x hx
  unfold execJtagBypass at hx
  try dsimp only at hx
  with_reducible obtain rfl := Host.Outcome.next.inj hx
  all_goals repeat' first
    | with_reducible assumption
    | with_reducible apply State.atTime_follows
    | with_reducible apply State.selectInstr_follows

theorem execJtagIdcode_follows {s0 s : State} (h : s0.Follows s) (a1) : ∀ x, (execJtagIdcode a1 s) = .next x → s0.Follows x := by
  intro x hx
  unfold execJtagIdcode at hx
  try dsimp only at hx
  with_reducible obtain rfl := Host.Outcome.next.inj hx
  all_goals repeat' first
    | with_reducible assumption
    | with_reducible apply State.atTime_follows
    | with_reducible apply State.selectInstr_follows

theorem execJtagSamplePreload_follows {s0 s : State} (h : s0.Follows s) (a1 a2 a3) : ∀ x, (execJtagSamplePreload a1 a2 a3 s) = .next x → s0.Follows x := by
  intro x hx
  unfold execJtagSamplePreload at hx
  try dsimp only at hx
  with_reducible obtain rfl := Host.Outcome.next.inj hx
  all_goals repeat' first
    | with_reducible assumption
    | with_reducible apply State.atTime_follows
    | with_reducible apply State.selectInstr_follows

theorem execJtagExtest_follows {s0 s : State} (h : s0.Follows s) (a1) : ∀ x, (execJtagExtest a1 s) = .next x → s0.Follows x := by
  intro x hx
  unfold execJtagExtest at hx
  try dsimp only at hx
  with_reducible obtain rfl := Host.Outcome.next.inj hx
  all_goals repeat' first
    | with_reducible assumption
    | with_reducible apply State.atTime_follows
    | with_reducible apply State.selectInstr_follows

theorem execJtagClamp_follows {s0 s : State} (h : s0.Follows s) (a1) : ∀ x, (execJtagClamp a1 s) = .next x → s0.Follows x := by
  intro x hx
  unfold execJtagClamp at hx
  try dsimp only at hx
  with_reducible obtain rfl := Host.Outcome.next.inj hx
  all_goals repeat' first
    | with_reducible assumption
    | with_reducible apply State.atTime_follows
    | with_reducible apply State.selectInstr_follows

theorem execJtagHighz_follows {s0 s : State} (h : s0.Follows s) (a1) : ∀ x, (execJtagHighz a1 s) = .next x → s0.Follows x := by
  intro x hx
  unfold execJtagHighz at hx
  try dsimp only at hx
  with_reducible obtain rfl := Host.Outcome.next.inj hx
  all_goals repeat' first
    | with_reducible assumption
    | with_reducible apply State.atTime_follows
    | with_reducible apply State.selectInstr_follows

theorem execJtagDieSelect_follows {s0 s : State} (h : s0.Follows s) (a1) : ∀ x, (execJtagDieSelect a1 s) = .next x → s0.Follows x := by
  intro x hx
  unfold execJtagDieSelect at hx
  try dsimp only at hx
  with_reducible obtain rfl := Host.Outcome.next.inj hx
  all_goals repeat' first
    | with_reducible assumption
    | with_reducible apply State.atTime_follows
    | with_reducible apply State.selectInstr_follows
    | split

theorem execTapLeaveTestInstruction_follows {s0 s : State} (h : s0.Follows s) (a1) : ∀ x, (execTapLeaveTestInstruction a1 s) = .next x → s0.Follows x := by
  intro x hx
  unfold execTapLeaveTestInstruction at hx
  try dsimp only at hx
  with_reducible obtain rfl := Host.Outcome.next.inj hx
  all_goals repeat' first
    | with_reducible assumption
    | with_reducible apply State.atTime_follows
    | with_reducible apply State.selectInstr_follows
    | split

theorem execDrmMbxSel_follows {s0 s : State} (h : s0.Follows s) (a1 a2 a3) : ∀ x, (execDrmMbxSel a1 a2 a3 s) = .next x → s0.Follows x := by
  intro x hx
  unfold execDrmMbxSel at hx
  try dsimp only at hx
  with_reducible obtain rfl := Host.Outcome.next.inj hx
  all_goals repeat' first
    | with_reducible assumption
    | with_reducible apply State.atTime_follows
    | with_reducible apply State.capture64_follows
    | split

theorem execCfgOpen_follows {s0 s : State} (h : s0.Follows s) (a1 a2 a3) : ∀ x, (execCfgOpen a1 a2 a3 s) = .next x → s0.Follows x := by
  intro x hx
  unfold execCfgOpen at hx
  try dsimp only at hx
  with_reducible obtain rfl := Host.Outcome.next.inj hx
  all_goals repeat' first
    | with_reducible assumption
    | with_reducible apply State.atTime_follows
    | with_reducible apply State.cfgAccess_follows
    | with_reducible apply State.modDom_follows
    | (intro _ _)

theorem execCfgCommit_follows {s0 s : State} (h : s0.Follows s) (a1 a2 a3) : ∀ x, (execCfgCommit a1 a2 a3 s) = .next x → s0.Follows x := by
  intro x hx
  unfold execCfgCommit at hx
  try dsimp only at hx
  with_reducible obtain rfl := Host.Outcome.next.inj hx
  all_goals repeat' first
    | with_reducible assumption
    | with_reducible apply State.atTime_follows
    | with_reducible apply State.cfgAccess_follows
    | with_reducible apply State.modDom_follows
    | (intro _ _)

theorem execCfgCommitComplete_follows {s0 s : State} (h : s0.Follows s) (a1 a2) : ∀ x, (execCfgCommitComplete a1 a2 s) = .next x → s0.Follows x := by
  intro x hx
  unfold execCfgCommitComplete at hx
  try dsimp only at hx
  with_reducible obtain rfl := Host.Outcome.next.inj hx
  all_goals repeat' first
    | with_reducible assumption
    | with_reducible apply State.atTime_follows
    | with_reducible apply State.commitDomain_follows
    | split

theorem execCfgScan_follows {s0 s : State} (h : s0.Follows s) (a1 a2) : ∀ x, (execCfgScan a1 a2 s) = .next x → s0.Follows x := by
  intro x hx
  unfold execCfgScan at hx
  try dsimp only at hx
  with_reducible obtain rfl := Host.Outcome.next.inj hx
  all_goals repeat' first
    | with_reducible assumption
    | with_reducible apply State.atTime_follows
    | with_reducible apply State.upsetCfg_follows
    | with_reducible apply State.scanDomain_follows
    | with_reducible apply follows_foldl
    | with_reducible (simp only [follows_mk])
    | split
    | (intro _ _ _)

theorem execRegisterRead_follows {s0 s : State} (h : s0.Follows s) (a1 a2 a3 a4 a5) : ∀ x, (execRegisterRead a1 a2 a3 a4 a5 s) = .next x → s0.Follows x := by
  intro x hx
  unfold execRegisterRead at hx
  try dsimp only at hx
  with_reducible obtain rfl := Host.Outcome.next.inj hx
  all_goals repeat' first
    | with_reducible assumption
    | with_reducible apply State.atTime_follows
    | with_reducible apply State.readAt_follows
    | with_reducible (simp only [follows_mk])
    | split

theorem execDrmMbxD3Read_follows {s0 s : State} (h : s0.Follows s) (a1 a2) : ∀ x, (execDrmMbxD3Read a1 a2 s) = .next x → s0.Follows x := by
  intro x hx
  unfold execDrmMbxD3Read at hx
  try dsimp only at hx
  with_reducible obtain rfl := Host.Outcome.next.inj hx
  all_goals repeat' first
    | with_reducible assumption
    | with_reducible apply State.atTime_follows
    | with_reducible apply State.readAt_follows
    | with_reducible apply State.answerReg_follows
    | with_reducible apply State.readD3_follows
    | split

theorem execRegisterWrite_follows {s0 s : State} (h : s0.Follows s) (a1 a2 a3 a4 a5 a6) : ∀ x, (execRegisterWrite a1 a2 a3 a4 a5 a6 s) = .next x → s0.Follows x := by
  intro x hx
  unfold execRegisterWrite at hx
  try dsimp only at hx
  with_reducible obtain rfl := Host.Outcome.next.inj hx
  all_goals repeat' first
    | with_reducible assumption
    | with_reducible apply State.atTime_follows
    | with_reducible apply State.writeAt_follows
    | split

end Sys2Proof.Machine
end

