-- ==== Sys2Proof/Laws/State.lean ====
section
/-! SUPPORT. What each update of one part of the block leaves in every field of the state: the field it names takes the new
value and every other field is as it was. -/

namespace Sys2Proof.Machine

section

variable (s : State) (t : Nat)

@[simp] theorem State.atTime_pending : (s.atTime t).pending = s.pending := rfl
@[simp] theorem State.atTime_now : (s.atTime t).now = max s.now t := rfl
@[simp] theorem State.atTime_free : (s.atTime t).free = s.free := rfl
@[simp] theorem State.atTime_bus : (s.atTime t).bus = s.bus := rfl
@[simp] theorem State.atTime_start : (s.atTime t).start = s.start := rfl
@[simp] theorem State.atTime_drm : (s.atTime t).drm = s.drm := rfl
@[simp] theorem State.atTime_fuses : (s.atTime t).fuses = s.fuses := rfl
@[simp] theorem State.atTime_bel : (s.atTime t).bel = s.bel := rfl
@[simp] theorem State.atTime_ports : (s.atTime t).ports = s.ports := rfl
@[simp] theorem State.atTime_parts : (s.atTime t).parts = s.parts := rfl
@[simp] theorem State.atTime_qps : (s.atTime t).qps = s.qps := rfl
@[simp] theorem State.atTime_gal : (s.atTime t).gal = s.gal := rfl
@[simp] theorem State.atTime_hmem : (s.atTime t).hmem = s.hmem := rfl
@[simp] theorem State.atTime_hbad : (s.atTime t).hbad = s.hbad := rfl
@[simp] theorem State.atTime_barHeld : (s.atTime t).barHeld = s.barHeld := rfl
@[simp] theorem State.atTime_mem : (s.atTime t).mem = s.mem := rfl
@[simp] theorem State.atTime_hbm : (s.atTime t).hbm = s.hbm := rfl
@[simp] theorem State.atTime_arr : (s.atTime t).arr = s.arr := rfl
@[simp] theorem State.atTime_slots : (s.atTime t).slots = s.slots := rfl
@[simp] theorem State.atTime_eng : (s.atTime t).eng = s.eng := rfl
@[simp] theorem State.atTime_pwr : (s.atTime t).pwr = s.pwr := rfl
@[simp] theorem State.atTime_thm : (s.atTime t).thm = s.thm := rfl
@[simp] theorem State.atTime_led : (s.atTime t).led = s.led := rfl
@[simp] theorem State.atTime_sec : (s.atTime t).sec = s.sec := rfl
@[simp] theorem State.atTime_mgmt : (s.atTime t).mgmt = s.mgmt := rfl
@[simp] theorem State.atTime_fab : (s.atTime t).fab = s.fab := rfl
@[simp] theorem State.atTime_links : (s.atTime t).links = s.links := rfl
@[simp] theorem State.atTime_bundles : (s.atTime t).bundles = s.bundles := rfl
@[simp] theorem State.atTime_lans : (s.atTime t).lans = s.lans := rfl
@[simp] theorem State.atTime_jtag : (s.atTime t).jtag = s.jtag := rfl

end

section

variable (s : State) (p : Fin 4) (f : Port → Port)

@[simp] theorem State.modPort_pending : (s.modPort p f).pending = s.pending := rfl
@[simp] theorem State.modPort_now : (s.modPort p f).now = s.now := rfl
@[simp] theorem State.modPort_free : (s.modPort p f).free = s.free := rfl
@[simp] theorem State.modPort_bus : (s.modPort p f).bus = s.bus := rfl
@[simp] theorem State.modPort_start : (s.modPort p f).start = s.start := rfl
@[simp] theorem State.modPort_drm : (s.modPort p f).drm = s.drm := rfl
@[simp] theorem State.modPort_fuses : (s.modPort p f).fuses = s.fuses := rfl
@[simp] theorem State.modPort_bel : (s.modPort p f).bel = s.bel := rfl
@[simp] theorem State.modPort_ports : (s.modPort p f).ports = tmod Port.init s.ports p.val f := rfl
@[simp] theorem State.modPort_parts : (s.modPort p f).parts = s.parts := rfl
@[simp] theorem State.modPort_qps : (s.modPort p f).qps = s.qps := rfl
@[simp] theorem State.modPort_gal : (s.modPort p f).gal = s.gal := rfl
@[simp] theorem State.modPort_hmem : (s.modPort p f).hmem = s.hmem := rfl
@[simp] theorem State.modPort_hbad : (s.modPort p f).hbad = s.hbad := rfl
@[simp] theorem State.modPort_barHeld : (s.modPort p f).barHeld = s.barHeld := rfl
@[simp] theorem State.modPort_mem : (s.modPort p f).mem = s.mem := rfl
@[simp] theorem State.modPort_hbm : (s.modPort p f).hbm = s.hbm := rfl
@[simp] theorem State.modPort_arr : (s.modPort p f).arr = s.arr := rfl
@[simp] theorem State.modPort_slots : (s.modPort p f).slots = s.slots := rfl
@[simp] theorem State.modPort_eng : (s.modPort p f).eng = s.eng := rfl
@[simp] theorem State.modPort_pwr : (s.modPort p f).pwr = s.pwr := rfl
@[simp] theorem State.modPort_thm : (s.modPort p f).thm = s.thm := rfl
@[simp] theorem State.modPort_led : (s.modPort p f).led = s.led := rfl
@[simp] theorem State.modPort_sec : (s.modPort p f).sec = s.sec := rfl
@[simp] theorem State.modPort_mgmt : (s.modPort p f).mgmt = s.mgmt := rfl
@[simp] theorem State.modPort_fab : (s.modPort p f).fab = s.fab := rfl
@[simp] theorem State.modPort_links : (s.modPort p f).links = s.links := rfl
@[simp] theorem State.modPort_bundles : (s.modPort p f).bundles = s.bundles := rfl
@[simp] theorem State.modPort_lans : (s.modPort p f).lans = s.lans := rfl
@[simp] theorem State.modPort_jtag : (s.modPort p f).jtag = s.jtag := rfl

end

section

variable (s : State) (p : Fin 4) (f : Part → Part)

@[simp] theorem State.modPart_pending : (s.modPart p f).pending = s.pending := rfl
@[simp] theorem State.modPart_now : (s.modPart p f).now = s.now := rfl
@[simp] theorem State.modPart_free : (s.modPart p f).free = s.free := rfl
@[simp] theorem State.modPart_bus : (s.modPart p f).bus = s.bus := rfl
@[simp] theorem State.modPart_start : (s.modPart p f).start = s.start := rfl
@[simp] theorem State.modPart_drm : (s.modPart p f).drm = s.drm := rfl
@[simp] theorem State.modPart_fuses : (s.modPart p f).fuses = s.fuses := rfl
@[simp] theorem State.modPart_bel : (s.modPart p f).bel = s.bel := rfl
@[simp] theorem State.modPart_ports : (s.modPart p f).ports = s.ports := rfl
@[simp] theorem State.modPart_parts : (s.modPart p f).parts = tmod Part.init s.parts p.val f := rfl
@[simp] theorem State.modPart_qps : (s.modPart p f).qps = s.qps := rfl
@[simp] theorem State.modPart_gal : (s.modPart p f).gal = s.gal := rfl
@[simp] theorem State.modPart_hmem : (s.modPart p f).hmem = s.hmem := rfl
@[simp] theorem State.modPart_hbad : (s.modPart p f).hbad = s.hbad := rfl
@[simp] theorem State.modPart_barHeld : (s.modPart p f).barHeld = s.barHeld := rfl
@[simp] theorem State.modPart_mem : (s.modPart p f).mem = s.mem := rfl
@[simp] theorem State.modPart_hbm : (s.modPart p f).hbm = s.hbm := rfl
@[simp] theorem State.modPart_arr : (s.modPart p f).arr = s.arr := rfl
@[simp] theorem State.modPart_slots : (s.modPart p f).slots = s.slots := rfl
@[simp] theorem State.modPart_eng : (s.modPart p f).eng = s.eng := rfl
@[simp] theorem State.modPart_pwr : (s.modPart p f).pwr = s.pwr := rfl
@[simp] theorem State.modPart_thm : (s.modPart p f).thm = s.thm := rfl
@[simp] theorem State.modPart_led : (s.modPart p f).led = s.led := rfl
@[simp] theorem State.modPart_sec : (s.modPart p f).sec = s.sec := rfl
@[simp] theorem State.modPart_mgmt : (s.modPart p f).mgmt = s.mgmt := rfl
@[simp] theorem State.modPart_fab : (s.modPart p f).fab = s.fab := rfl
@[simp] theorem State.modPart_links : (s.modPart p f).links = s.links := rfl
@[simp] theorem State.modPart_bundles : (s.modPart p f).bundles = s.bundles := rfl
@[simp] theorem State.modPart_lans : (s.modPart p f).lans = s.lans := rfl
@[simp] theorem State.modPart_jtag : (s.modPart p f).jtag = s.jtag := rfl

end

section

variable (s : State) (p : Fin 4) (q : Fin 16) (f : QPair → QPair)

@[simp] theorem State.modQp_pending : (s.modQp p q f).pending = s.pending := rfl
@[simp] theorem State.modQp_now : (s.modQp p q f).now = s.now := rfl
@[simp] theorem State.modQp_free : (s.modQp p q f).free = s.free := rfl
@[simp] theorem State.modQp_bus : (s.modQp p q f).bus = s.bus := rfl
@[simp] theorem State.modQp_start : (s.modQp p q f).start = s.start := rfl
@[simp] theorem State.modQp_drm : (s.modQp p q f).drm = s.drm := rfl
@[simp] theorem State.modQp_fuses : (s.modQp p q f).fuses = s.fuses := rfl
@[simp] theorem State.modQp_bel : (s.modQp p q f).bel = s.bel := rfl
@[simp] theorem State.modQp_ports : (s.modQp p q f).ports = s.ports := rfl
@[simp] theorem State.modQp_parts : (s.modQp p q f).parts = s.parts := rfl
@[simp] theorem State.modQp_qps : (s.modQp p q f).qps = tmod QPair.init s.qps (16 * p.val + q.val) f := rfl
@[simp] theorem State.modQp_gal : (s.modQp p q f).gal = s.gal := rfl
@[simp] theorem State.modQp_hmem : (s.modQp p q f).hmem = s.hmem := rfl
@[simp] theorem State.modQp_hbad : (s.modQp p q f).hbad = s.hbad := rfl
@[simp] theorem State.modQp_barHeld : (s.modQp p q f).barHeld = s.barHeld := rfl
@[simp] theorem State.modQp_mem : (s.modQp p q f).mem = s.mem := rfl
@[simp] theorem State.modQp_hbm : (s.modQp p q f).hbm = s.hbm := rfl
@[simp] theorem State.modQp_arr : (s.modQp p q f).arr = s.arr := rfl
@[simp] theorem State.modQp_slots : (s.modQp p q f).slots = s.slots := rfl
@[simp] theorem State.modQp_eng : (s.modQp p q f).eng = s.eng := rfl
@[simp] theorem State.modQp_pwr : (s.modQp p q f).pwr = s.pwr := rfl
@[simp] theorem State.modQp_thm : (s.modQp p q f).thm = s.thm := rfl
@[simp] theorem State.modQp_led : (s.modQp p q f).led = s.led := rfl
@[simp] theorem State.modQp_sec : (s.modQp p q f).sec = s.sec := rfl
@[simp] theorem State.modQp_mgmt : (s.modQp p q f).mgmt = s.mgmt := rfl
@[simp] theorem State.modQp_fab : (s.modQp p q f).fab = s.fab := rfl
@[simp] theorem State.modQp_links : (s.modQp p q f).links = s.links := rfl
@[simp] theorem State.modQp_bundles : (s.modQp p q f).bundles = s.bundles := rfl
@[simp] theorem State.modQp_lans : (s.modQp p q f).lans = s.lans := rfl
@[simp] theorem State.modQp_jtag : (s.modQp p q f).jtag = s.jtag := rfl

end

section

variable (s : State) (i : Nat) (f : Slot → Slot)

@[simp] theorem State.modSlot_pending : (s.modSlot i f).pending = s.pending := rfl
@[simp] theorem State.modSlot_now : (s.modSlot i f).now = s.now := rfl
@[simp] theorem State.modSlot_free : (s.modSlot i f).free = s.free := rfl
@[simp] theorem State.modSlot_bus : (s.modSlot i f).bus = s.bus := rfl
@[simp] theorem State.modSlot_start : (s.modSlot i f).start = s.start := rfl
@[simp] theorem State.modSlot_drm : (s.modSlot i f).drm = s.drm := rfl
@[simp] theorem State.modSlot_fuses : (s.modSlot i f).fuses = s.fuses := rfl
@[simp] theorem State.modSlot_bel : (s.modSlot i f).bel = s.bel := rfl
@[simp] theorem State.modSlot_ports : (s.modSlot i f).ports = s.ports := rfl
@[simp] theorem State.modSlot_parts : (s.modSlot i f).parts = s.parts := rfl
@[simp] theorem State.modSlot_qps : (s.modSlot i f).qps = s.qps := rfl
@[simp] theorem State.modSlot_gal : (s.modSlot i f).gal = s.gal := rfl
@[simp] theorem State.modSlot_hmem : (s.modSlot i f).hmem = s.hmem := rfl
@[simp] theorem State.modSlot_hbad : (s.modSlot i f).hbad = s.hbad := rfl
@[simp] theorem State.modSlot_barHeld : (s.modSlot i f).barHeld = s.barHeld := rfl
@[simp] theorem State.modSlot_mem : (s.modSlot i f).mem = s.mem := rfl
@[simp] theorem State.modSlot_hbm : (s.modSlot i f).hbm = s.hbm := rfl
@[simp] theorem State.modSlot_arr : (s.modSlot i f).arr = s.arr := rfl
@[simp] theorem State.modSlot_slots : (s.modSlot i f).slots = tmod Slot.init s.slots i f := rfl
@[simp] theorem State.modSlot_eng : (s.modSlot i f).eng = s.eng := rfl
@[simp] theorem State.modSlot_pwr : (s.modSlot i f).pwr = s.pwr := rfl
@[simp] theorem State.modSlot_thm : (s.modSlot i f).thm = s.thm := rfl
@[simp] theorem State.modSlot_led : (s.modSlot i f).led = s.led := rfl
@[simp] theorem State.modSlot_sec : (s.modSlot i f).sec = s.sec := rfl
@[simp] theorem State.modSlot_mgmt : (s.modSlot i f).mgmt = s.mgmt := rfl
@[simp] theorem State.modSlot_fab : (s.modSlot i f).fab = s.fab := rfl
@[simp] theorem State.modSlot_links : (s.modSlot i f).links = s.links := rfl
@[simp] theorem State.modSlot_bundles : (s.modSlot i f).bundles = s.bundles := rfl
@[simp] theorem State.modSlot_lans : (s.modSlot i f).lans = s.lans := rfl
@[simp] theorem State.modSlot_jtag : (s.modSlot i f).jtag = s.jtag := rfl

end

section

variable (s : State) (i : Nat) (f : Dom → Dom)

@[simp] theorem State.modDom_pending : (s.modDom i f).pending = s.pending := rfl
@[simp] theorem State.modDom_now : (s.modDom i f).now = s.now := rfl
@[simp] theorem State.modDom_free : (s.modDom i f).free = s.free := rfl
@[simp] theorem State.modDom_bus : (s.modDom i f).bus = s.bus := rfl
@[simp] theorem State.modDom_start : (s.modDom i f).start = s.start := rfl
@[simp] theorem State.modDom_drm : (s.modDom i f).drm = { s.drm with doms := tmod Dom.init s.drm.doms i f } := rfl
@[simp] theorem State.modDom_fuses : (s.modDom i f).fuses = s.fuses := rfl
@[simp] theorem State.modDom_bel : (s.modDom i f).bel = s.bel := rfl
@[simp] theorem State.modDom_ports : (s.modDom i f).ports = s.ports := rfl
@[simp] theorem State.modDom_parts : (s.modDom i f).parts = s.parts := rfl
@[simp] theorem State.modDom_qps : (s.modDom i f).qps = s.qps := rfl
@[simp] theorem State.modDom_gal : (s.modDom i f).gal = s.gal := rfl
@[simp] theorem State.modDom_hmem : (s.modDom i f).hmem = s.hmem := rfl
@[simp] theorem State.modDom_hbad : (s.modDom i f).hbad = s.hbad := rfl
@[simp] theorem State.modDom_barHeld : (s.modDom i f).barHeld = s.barHeld := rfl
@[simp] theorem State.modDom_mem : (s.modDom i f).mem = s.mem := rfl
@[simp] theorem State.modDom_hbm : (s.modDom i f).hbm = s.hbm := rfl
@[simp] theorem State.modDom_arr : (s.modDom i f).arr = s.arr := rfl
@[simp] theorem State.modDom_slots : (s.modDom i f).slots = s.slots := rfl
@[simp] theorem State.modDom_eng : (s.modDom i f).eng = s.eng := rfl
@[simp] theorem State.modDom_pwr : (s.modDom i f).pwr = s.pwr := rfl
@[simp] theorem State.modDom_thm : (s.modDom i f).thm = s.thm := rfl
@[simp] theorem State.modDom_led : (s.modDom i f).led = s.led := rfl
@[simp] theorem State.modDom_sec : (s.modDom i f).sec = s.sec := rfl
@[simp] theorem State.modDom_mgmt : (s.modDom i f).mgmt = s.mgmt := rfl
@[simp] theorem State.modDom_fab : (s.modDom i f).fab = s.fab := rfl
@[simp] theorem State.modDom_links : (s.modDom i f).links = s.links := rfl
@[simp] theorem State.modDom_bundles : (s.modDom i f).bundles = s.bundles := rfl
@[simp] theorem State.modDom_lans : (s.modDom i f).lans = s.lans := rfl
@[simp] theorem State.modDom_jtag : (s.modDom i f).jtag = s.jtag := rfl

end

section

variable (s : State) (k : Nat) (f : Mbx → Mbx)

@[simp] theorem State.modMbx_pending : (s.modMbx k f).pending = s.pending := rfl
@[simp] theorem State.modMbx_now : (s.modMbx k f).now = s.now := rfl
@[simp] theorem State.modMbx_free : (s.modMbx k f).free = s.free := rfl
@[simp] theorem State.modMbx_bus : (s.modMbx k f).bus = s.bus := rfl
@[simp] theorem State.modMbx_start : (s.modMbx k f).start = s.start := rfl
@[simp] theorem State.modMbx_drm : (s.modMbx k f).drm = { s.drm with mbx := tmod Mbx.init s.drm.mbx k f } := rfl
@[simp] theorem State.modMbx_fuses : (s.modMbx k f).fuses = s.fuses := rfl
@[simp] theorem State.modMbx_bel : (s.modMbx k f).bel = s.bel := rfl
@[simp] theorem State.modMbx_ports : (s.modMbx k f).ports = s.ports := rfl
@[simp] theorem State.modMbx_parts : (s.modMbx k f).parts = s.parts := rfl
@[simp] theorem State.modMbx_qps : (s.modMbx k f).qps = s.qps := rfl
@[simp] theorem State.modMbx_gal : (s.modMbx k f).gal = s.gal := rfl
@[simp] theorem State.modMbx_hmem : (s.modMbx k f).hmem = s.hmem := rfl
@[simp] theorem State.modMbx_hbad : (s.modMbx k f).hbad = s.hbad := rfl
@[simp] theorem State.modMbx_barHeld : (s.modMbx k f).barHeld = s.barHeld := rfl
@[simp] theorem State.modMbx_mem : (s.modMbx k f).mem = s.mem := rfl
@[simp] theorem State.modMbx_hbm : (s.modMbx k f).hbm = s.hbm := rfl
@[simp] theorem State.modMbx_arr : (s.modMbx k f).arr = s.arr := rfl
@[simp] theorem State.modMbx_slots : (s.modMbx k f).slots = s.slots := rfl
@[simp] theorem State.modMbx_eng : (s.modMbx k f).eng = s.eng := rfl
@[simp] theorem State.modMbx_pwr : (s.modMbx k f).pwr = s.pwr := rfl
@[simp] theorem State.modMbx_thm : (s.modMbx k f).thm = s.thm := rfl
@[simp] theorem State.modMbx_led : (s.modMbx k f).led = s.led := rfl
@[simp] theorem State.modMbx_sec : (s.modMbx k f).sec = s.sec := rfl
@[simp] theorem State.modMbx_mgmt : (s.modMbx k f).mgmt = s.mgmt := rfl
@[simp] theorem State.modMbx_fab : (s.modMbx k f).fab = s.fab := rfl
@[simp] theorem State.modMbx_links : (s.modMbx k f).links = s.links := rfl
@[simp] theorem State.modMbx_bundles : (s.modMbx k f).bundles = s.bundles := rfl
@[simp] theorem State.modMbx_lans : (s.modMbx k f).lans = s.lans := rfl
@[simp] theorem State.modMbx_jtag : (s.modMbx k f).jtag = s.jtag := rfl

end

section

variable (s : State) (h : Half) (f : Hbm → Hbm)

@[simp] theorem State.modHbm_pending : (s.modHbm h f).pending = s.pending := rfl
@[simp] theorem State.modHbm_now : (s.modHbm h f).now = s.now := rfl
@[simp] theorem State.modHbm_free : (s.modHbm h f).free = s.free := rfl
@[simp] theorem State.modHbm_bus : (s.modHbm h f).bus = s.bus := rfl
@[simp] theorem State.modHbm_start : (s.modHbm h f).start = s.start := rfl
@[simp] theorem State.modHbm_drm : (s.modHbm h f).drm = s.drm := rfl
@[simp] theorem State.modHbm_fuses : (s.modHbm h f).fuses = s.fuses := rfl
@[simp] theorem State.modHbm_bel : (s.modHbm h f).bel = s.bel := rfl
@[simp] theorem State.modHbm_ports : (s.modHbm h f).ports = s.ports := rfl
@[simp] theorem State.modHbm_parts : (s.modHbm h f).parts = s.parts := rfl
@[simp] theorem State.modHbm_qps : (s.modHbm h f).qps = s.qps := rfl
@[simp] theorem State.modHbm_gal : (s.modHbm h f).gal = s.gal := rfl
@[simp] theorem State.modHbm_hmem : (s.modHbm h f).hmem = s.hmem := rfl
@[simp] theorem State.modHbm_hbad : (s.modHbm h f).hbad = s.hbad := rfl
@[simp] theorem State.modHbm_barHeld : (s.modHbm h f).barHeld = s.barHeld := rfl
@[simp] theorem State.modHbm_mem : (s.modHbm h f).mem = s.mem := rfl
@[simp] theorem State.modHbm_hbm : (s.modHbm h f).hbm = s.hbm.mod h f := rfl
@[simp] theorem State.modHbm_arr : (s.modHbm h f).arr = s.arr := rfl
@[simp] theorem State.modHbm_slots : (s.modHbm h f).slots = s.slots := rfl
@[simp] theorem State.modHbm_eng : (s.modHbm h f).eng = s.eng := rfl
@[simp] theorem State.modHbm_pwr : (s.modHbm h f).pwr = s.pwr := rfl
@[simp] theorem State.modHbm_thm : (s.modHbm h f).thm = s.thm := rfl
@[simp] theorem State.modHbm_led : (s.modHbm h f).led = s.led := rfl
@[simp] theorem State.modHbm_sec : (s.modHbm h f).sec = s.sec := rfl
@[simp] theorem State.modHbm_mgmt : (s.modHbm h f).mgmt = s.mgmt := rfl
@[simp] theorem State.modHbm_fab : (s.modHbm h f).fab = s.fab := rfl
@[simp] theorem State.modHbm_links : (s.modHbm h f).links = s.links := rfl
@[simp] theorem State.modHbm_bundles : (s.modHbm h f).bundles = s.bundles := rfl
@[simp] theorem State.modHbm_lans : (s.modHbm h f).lans = s.lans := rfl
@[simp] theorem State.modHbm_jtag : (s.modHbm h f).jtag = s.jtag := rfl

end

section

variable (s : State) (h : Half) (f : Arr → Arr)

@[simp] theorem State.modArr_pending : (s.modArr h f).pending = s.pending := rfl
@[simp] theorem State.modArr_now : (s.modArr h f).now = s.now := rfl
@[simp] theorem State.modArr_free : (s.modArr h f).free = s.free := rfl
@[simp] theorem State.modArr_bus : (s.modArr h f).bus = s.bus := rfl
@[simp] theorem State.modArr_start : (s.modArr h f).start = s.start := rfl
@[simp] theorem State.modArr_drm : (s.modArr h f).drm = s.drm := rfl
@[simp] theorem State.modArr_fuses : (s.modArr h f).fuses = s.fuses := rfl
@[simp] theorem State.modArr_bel : (s.modArr h f).bel = s.bel := rfl
@[simp] theorem State.modArr_ports : (s.modArr h f).ports = s.ports := rfl
@[simp] theorem State.modArr_parts : (s.modArr h f).parts = s.parts := rfl
@[simp] theorem State.modArr_qps : (s.modArr h f).qps = s.qps := rfl
@[simp] theorem State.modArr_gal : (s.modArr h f).gal = s.gal := rfl
@[simp] theorem State.modArr_hmem : (s.modArr h f).hmem = s.hmem := rfl
@[simp] theorem State.modArr_hbad : (s.modArr h f).hbad = s.hbad := rfl
@[simp] theorem State.modArr_barHeld : (s.modArr h f).barHeld = s.barHeld := rfl
@[simp] theorem State.modArr_mem : (s.modArr h f).mem = s.mem := rfl
@[simp] theorem State.modArr_hbm : (s.modArr h f).hbm = s.hbm := rfl
@[simp] theorem State.modArr_arr : (s.modArr h f).arr = s.arr.mod h f := rfl
@[simp] theorem State.modArr_slots : (s.modArr h f).slots = s.slots := rfl
@[simp] theorem State.modArr_eng : (s.modArr h f).eng = s.eng := rfl
@[simp] theorem State.modArr_pwr : (s.modArr h f).pwr = s.pwr := rfl
@[simp] theorem State.modArr_thm : (s.modArr h f).thm = s.thm := rfl
@[simp] theorem State.modArr_led : (s.modArr h f).led = s.led := rfl
@[simp] theorem State.modArr_sec : (s.modArr h f).sec = s.sec := rfl
@[simp] theorem State.modArr_mgmt : (s.modArr h f).mgmt = s.mgmt := rfl
@[simp] theorem State.modArr_fab : (s.modArr h f).fab = s.fab := rfl
@[simp] theorem State.modArr_links : (s.modArr h f).links = s.links := rfl
@[simp] theorem State.modArr_bundles : (s.modArr h f).bundles = s.bundles := rfl
@[simp] theorem State.modArr_lans : (s.modArr h f).lans = s.lans := rfl
@[simp] theorem State.modArr_jtag : (s.modArr h f).jtag = s.jtag := rfl

end

section

variable (s : State) (i : Nat) (f : DieTh → DieTh)

@[simp] theorem State.modDie_pending : (s.modDie i f).pending = s.pending := rfl
@[simp] theorem State.modDie_now : (s.modDie i f).now = s.now := rfl
@[simp] theorem State.modDie_free : (s.modDie i f).free = s.free := rfl
@[simp] theorem State.modDie_bus : (s.modDie i f).bus = s.bus := rfl
@[simp] theorem State.modDie_start : (s.modDie i f).start = s.start := rfl
@[simp] theorem State.modDie_drm : (s.modDie i f).drm = s.drm := rfl
@[simp] theorem State.modDie_fuses : (s.modDie i f).fuses = s.fuses := rfl
@[simp] theorem State.modDie_bel : (s.modDie i f).bel = s.bel := rfl
@[simp] theorem State.modDie_ports : (s.modDie i f).ports = s.ports := rfl
@[simp] theorem State.modDie_parts : (s.modDie i f).parts = s.parts := rfl
@[simp] theorem State.modDie_qps : (s.modDie i f).qps = s.qps := rfl
@[simp] theorem State.modDie_gal : (s.modDie i f).gal = s.gal := rfl
@[simp] theorem State.modDie_hmem : (s.modDie i f).hmem = s.hmem := rfl
@[simp] theorem State.modDie_hbad : (s.modDie i f).hbad = s.hbad := rfl
@[simp] theorem State.modDie_barHeld : (s.modDie i f).barHeld = s.barHeld := rfl
@[simp] theorem State.modDie_mem : (s.modDie i f).mem = s.mem := rfl
@[simp] theorem State.modDie_hbm : (s.modDie i f).hbm = s.hbm := rfl
@[simp] theorem State.modDie_arr : (s.modDie i f).arr = s.arr := rfl
@[simp] theorem State.modDie_slots : (s.modDie i f).slots = s.slots := rfl
@[simp] theorem State.modDie_eng : (s.modDie i f).eng = s.eng := rfl
@[simp] theorem State.modDie_pwr : (s.modDie i f).pwr = s.pwr := rfl
@[simp] theorem State.modDie_thm : (s.modDie i f).thm = { s.thm with dies := tmod DieTh.init s.thm.dies i f } := rfl
@[simp] theorem State.modDie_led : (s.modDie i f).led = s.led := rfl
@[simp] theorem State.modDie_sec : (s.modDie i f).sec = s.sec := rfl
@[simp] theorem State.modDie_mgmt : (s.modDie i f).mgmt = s.mgmt := rfl
@[simp] theorem State.modDie_fab : (s.modDie i f).fab = s.fab := rfl
@[simp] theorem State.modDie_links : (s.modDie i f).links = s.links := rfl
@[simp] theorem State.modDie_bundles : (s.modDie i f).bundles = s.bundles := rfl
@[simp] theorem State.modDie_lans : (s.modDie i f).lans = s.lans := rfl
@[simp] theorem State.modDie_jtag : (s.modDie i f).jtag = s.jtag := rfl

end

section

variable (s : State) (i : Nat) (f : Rail → Rail)

@[simp] theorem State.modRail_pending : (s.modRail i f).pending = s.pending := rfl
@[simp] theorem State.modRail_now : (s.modRail i f).now = s.now := rfl
@[simp] theorem State.modRail_free : (s.modRail i f).free = s.free := rfl
@[simp] theorem State.modRail_bus : (s.modRail i f).bus = s.bus := rfl
@[simp] theorem State.modRail_start : (s.modRail i f).start = s.start := rfl
@[simp] theorem State.modRail_drm : (s.modRail i f).drm = s.drm := rfl
@[simp] theorem State.modRail_fuses : (s.modRail i f).fuses = s.fuses := rfl
@[simp] theorem State.modRail_bel : (s.modRail i f).bel = s.bel := rfl
@[simp] theorem State.modRail_ports : (s.modRail i f).ports = s.ports := rfl
@[simp] theorem State.modRail_parts : (s.modRail i f).parts = s.parts := rfl
@[simp] theorem State.modRail_qps : (s.modRail i f).qps = s.qps := rfl
@[simp] theorem State.modRail_gal : (s.modRail i f).gal = s.gal := rfl
@[simp] theorem State.modRail_hmem : (s.modRail i f).hmem = s.hmem := rfl
@[simp] theorem State.modRail_hbad : (s.modRail i f).hbad = s.hbad := rfl
@[simp] theorem State.modRail_barHeld : (s.modRail i f).barHeld = s.barHeld := rfl
@[simp] theorem State.modRail_mem : (s.modRail i f).mem = s.mem := rfl
@[simp] theorem State.modRail_hbm : (s.modRail i f).hbm = s.hbm := rfl
@[simp] theorem State.modRail_arr : (s.modRail i f).arr = s.arr := rfl
@[simp] theorem State.modRail_slots : (s.modRail i f).slots = s.slots := rfl
@[simp] theorem State.modRail_eng : (s.modRail i f).eng = s.eng := rfl
@[simp] theorem State.modRail_pwr : (s.modRail i f).pwr = { s.pwr with rails := tmod Rail.init s.pwr.rails i f } := rfl
@[simp] theorem State.modRail_thm : (s.modRail i f).thm = s.thm := rfl
@[simp] theorem State.modRail_led : (s.modRail i f).led = s.led := rfl
@[simp] theorem State.modRail_sec : (s.modRail i f).sec = s.sec := rfl
@[simp] theorem State.modRail_mgmt : (s.modRail i f).mgmt = s.mgmt := rfl
@[simp] theorem State.modRail_fab : (s.modRail i f).fab = s.fab := rfl
@[simp] theorem State.modRail_links : (s.modRail i f).links = s.links := rfl
@[simp] theorem State.modRail_bundles : (s.modRail i f).bundles = s.bundles := rfl
@[simp] theorem State.modRail_lans : (s.modRail i f).lans = s.lans := rfl
@[simp] theorem State.modRail_jtag : (s.modRail i f).jtag = s.jtag := rfl

end

section

variable (s : State) (f : Belfry → Belfry)

@[simp] theorem State.modBel_pending : (s.modBel f).pending = s.pending := rfl
@[simp] theorem State.modBel_now : (s.modBel f).now = s.now := rfl
@[simp] theorem State.modBel_free : (s.modBel f).free = s.free := rfl
@[simp] theorem State.modBel_bus : (s.modBel f).bus = s.bus := rfl
@[simp] theorem State.modBel_start : (s.modBel f).start = s.start := rfl
@[simp] theorem State.modBel_drm : (s.modBel f).drm = s.drm := rfl
@[simp] theorem State.modBel_fuses : (s.modBel f).fuses = s.fuses := rfl
@[simp] theorem State.modBel_bel : (s.modBel f).bel = f s.bel := rfl
@[simp] theorem State.modBel_ports : (s.modBel f).ports = s.ports := rfl
@[simp] theorem State.modBel_parts : (s.modBel f).parts = s.parts := rfl
@[simp] theorem State.modBel_qps : (s.modBel f).qps = s.qps := rfl
@[simp] theorem State.modBel_gal : (s.modBel f).gal = s.gal := rfl
@[simp] theorem State.modBel_hmem : (s.modBel f).hmem = s.hmem := rfl
@[simp] theorem State.modBel_hbad : (s.modBel f).hbad = s.hbad := rfl
@[simp] theorem State.modBel_barHeld : (s.modBel f).barHeld = s.barHeld := rfl
@[simp] theorem State.modBel_mem : (s.modBel f).mem = s.mem := rfl
@[simp] theorem State.modBel_hbm : (s.modBel f).hbm = s.hbm := rfl
@[simp] theorem State.modBel_arr : (s.modBel f).arr = s.arr := rfl
@[simp] theorem State.modBel_slots : (s.modBel f).slots = s.slots := rfl
@[simp] theorem State.modBel_eng : (s.modBel f).eng = s.eng := rfl
@[simp] theorem State.modBel_pwr : (s.modBel f).pwr = s.pwr := rfl
@[simp] theorem State.modBel_thm : (s.modBel f).thm = s.thm := rfl
@[simp] theorem State.modBel_led : (s.modBel f).led = s.led := rfl
@[simp] theorem State.modBel_sec : (s.modBel f).sec = s.sec := rfl
@[simp] theorem State.modBel_mgmt : (s.modBel f).mgmt = s.mgmt := rfl
@[simp] theorem State.modBel_fab : (s.modBel f).fab = s.fab := rfl
@[simp] theorem State.modBel_links : (s.modBel f).links = s.links := rfl
@[simp] theorem State.modBel_bundles : (s.modBel f).bundles = s.bundles := rfl
@[simp] theorem State.modBel_lans : (s.modBel f).lans = s.lans := rfl
@[simp] theorem State.modBel_jtag : (s.modBel f).jtag = s.jtag := rfl

end

section

variable (s : State) (f : Engine → Engine)

@[simp] theorem State.modEng_pending : (s.modEng f).pending = s.pending := rfl
@[simp] theorem State.modEng_now : (s.modEng f).now = s.now := rfl
@[simp] theorem State.modEng_free : (s.modEng f).free = s.free := rfl
@[simp] theorem State.modEng_bus : (s.modEng f).bus = s.bus := rfl
@[simp] theorem State.modEng_start : (s.modEng f).start = s.start := rfl
@[simp] theorem State.modEng_drm : (s.modEng f).drm = s.drm := rfl
@[simp] theorem State.modEng_fuses : (s.modEng f).fuses = s.fuses := rfl
@[simp] theorem State.modEng_bel : (s.modEng f).bel = s.bel := rfl
@[simp] theorem State.modEng_ports : (s.modEng f).ports = s.ports := rfl
@[simp] theorem State.modEng_parts : (s.modEng f).parts = s.parts := rfl
@[simp] theorem State.modEng_qps : (s.modEng f).qps = s.qps := rfl
@[simp] theorem State.modEng_gal : (s.modEng f).gal = s.gal := rfl
@[simp] theorem State.modEng_hmem : (s.modEng f).hmem = s.hmem := rfl
@[simp] theorem State.modEng_hbad : (s.modEng f).hbad = s.hbad := rfl
@[simp] theorem State.modEng_barHeld : (s.modEng f).barHeld = s.barHeld := rfl
@[simp] theorem State.modEng_mem : (s.modEng f).mem = s.mem := rfl
@[simp] theorem State.modEng_hbm : (s.modEng f).hbm = s.hbm := rfl
@[simp] theorem State.modEng_arr : (s.modEng f).arr = s.arr := rfl
@[simp] theorem State.modEng_slots : (s.modEng f).slots = s.slots := rfl
@[simp] theorem State.modEng_eng : (s.modEng f).eng = f s.eng := rfl
@[simp] theorem State.modEng_pwr : (s.modEng f).pwr = s.pwr := rfl
@[simp] theorem State.modEng_thm : (s.modEng f).thm = s.thm := rfl
@[simp] theorem State.modEng_led : (s.modEng f).led = s.led := rfl
@[simp] theorem State.modEng_sec : (s.modEng f).sec = s.sec := rfl
@[simp] theorem State.modEng_mgmt : (s.modEng f).mgmt = s.mgmt := rfl
@[simp] theorem State.modEng_fab : (s.modEng f).fab = s.fab := rfl
@[simp] theorem State.modEng_links : (s.modEng f).links = s.links := rfl
@[simp] theorem State.modEng_bundles : (s.modEng f).bundles = s.bundles := rfl
@[simp] theorem State.modEng_lans : (s.modEng f).lans = s.lans := rfl
@[simp] theorem State.modEng_jtag : (s.modEng f).jtag = s.jtag := rfl

end

section

variable (s : State) (f : Power → Power)

@[simp] theorem State.modPwr_pending : (s.modPwr f).pending = s.pending := rfl
@[simp] theorem State.modPwr_now : (s.modPwr f).now = s.now := rfl
@[simp] theorem State.modPwr_free : (s.modPwr f).free = s.free := rfl
@[simp] theorem State.modPwr_bus : (s.modPwr f).bus = s.bus := rfl
@[simp] theorem State.modPwr_start : (s.modPwr f).start = s.start := rfl
@[simp] theorem State.modPwr_drm : (s.modPwr f).drm = s.drm := rfl
@[simp] theorem State.modPwr_fuses : (s.modPwr f).fuses = s.fuses := rfl
@[simp] theorem State.modPwr_bel : (s.modPwr f).bel = s.bel := rfl
@[simp] theorem State.modPwr_ports : (s.modPwr f).ports = s.ports := rfl
@[simp] theorem State.modPwr_parts : (s.modPwr f).parts = s.parts := rfl
@[simp] theorem State.modPwr_qps : (s.modPwr f).qps = s.qps := rfl
@[simp] theorem State.modPwr_gal : (s.modPwr f).gal = s.gal := rfl
@[simp] theorem State.modPwr_hmem : (s.modPwr f).hmem = s.hmem := rfl
@[simp] theorem State.modPwr_hbad : (s.modPwr f).hbad = s.hbad := rfl
@[simp] theorem State.modPwr_barHeld : (s.modPwr f).barHeld = s.barHeld := rfl
@[simp] theorem State.modPwr_mem : (s.modPwr f).mem = s.mem := rfl
@[simp] theorem State.modPwr_hbm : (s.modPwr f).hbm = s.hbm := rfl
@[simp] theorem State.modPwr_arr : (s.modPwr f).arr = s.arr := rfl
@[simp] theorem State.modPwr_slots : (s.modPwr f).slots = s.slots := rfl
@[simp] theorem State.modPwr_eng : (s.modPwr f).eng = s.eng := rfl
@[simp] theorem State.modPwr_pwr : (s.modPwr f).pwr = f s.pwr := rfl
@[simp] theorem State.modPwr_thm : (s.modPwr f).thm = s.thm := rfl
@[simp] theorem State.modPwr_led : (s.modPwr f).led = s.led := rfl
@[simp] theorem State.modPwr_sec : (s.modPwr f).sec = s.sec := rfl
@[simp] theorem State.modPwr_mgmt : (s.modPwr f).mgmt = s.mgmt := rfl
@[simp] theorem State.modPwr_fab : (s.modPwr f).fab = s.fab := rfl
@[simp] theorem State.modPwr_links : (s.modPwr f).links = s.links := rfl
@[simp] theorem State.modPwr_bundles : (s.modPwr f).bundles = s.bundles := rfl
@[simp] theorem State.modPwr_lans : (s.modPwr f).lans = s.lans := rfl
@[simp] theorem State.modPwr_jtag : (s.modPwr f).jtag = s.jtag := rfl

end

section

variable (s : State) (f : Thermal → Thermal)

@[simp] theorem State.modThm_pending : (s.modThm f).pending = s.pending := rfl
@[simp] theorem State.modThm_now : (s.modThm f).now = s.now := rfl
@[simp] theorem State.modThm_free : (s.modThm f).free = s.free := rfl
@[simp] theorem State.modThm_bus : (s.modThm f).bus = s.bus := rfl
@[simp] theorem State.modThm_start : (s.modThm f).start = s.start := rfl
@[simp] theorem State.modThm_drm : (s.modThm f).drm = s.drm := rfl
@[simp] theorem State.modThm_fuses : (s.modThm f).fuses = s.fuses := rfl
@[simp] theorem State.modThm_bel : (s.modThm f).bel = s.bel := rfl
@[simp] theorem State.modThm_ports : (s.modThm f).ports = s.ports := rfl
@[simp] theorem State.modThm_parts : (s.modThm f).parts = s.parts := rfl
@[simp] theorem State.modThm_qps : (s.modThm f).qps = s.qps := rfl
@[simp] theorem State.modThm_gal : (s.modThm f).gal = s.gal := rfl
@[simp] theorem State.modThm_hmem : (s.modThm f).hmem = s.hmem := rfl
@[simp] theorem State.modThm_hbad : (s.modThm f).hbad = s.hbad := rfl
@[simp] theorem State.modThm_barHeld : (s.modThm f).barHeld = s.barHeld := rfl
@[simp] theorem State.modThm_mem : (s.modThm f).mem = s.mem := rfl
@[simp] theorem State.modThm_hbm : (s.modThm f).hbm = s.hbm := rfl
@[simp] theorem State.modThm_arr : (s.modThm f).arr = s.arr := rfl
@[simp] theorem State.modThm_slots : (s.modThm f).slots = s.slots := rfl
@[simp] theorem State.modThm_eng : (s.modThm f).eng = s.eng := rfl
@[simp] theorem State.modThm_pwr : (s.modThm f).pwr = s.pwr := rfl
@[simp] theorem State.modThm_thm : (s.modThm f).thm = f s.thm := rfl
@[simp] theorem State.modThm_led : (s.modThm f).led = s.led := rfl
@[simp] theorem State.modThm_sec : (s.modThm f).sec = s.sec := rfl
@[simp] theorem State.modThm_mgmt : (s.modThm f).mgmt = s.mgmt := rfl
@[simp] theorem State.modThm_fab : (s.modThm f).fab = s.fab := rfl
@[simp] theorem State.modThm_links : (s.modThm f).links = s.links := rfl
@[simp] theorem State.modThm_bundles : (s.modThm f).bundles = s.bundles := rfl
@[simp] theorem State.modThm_lans : (s.modThm f).lans = s.lans := rfl
@[simp] theorem State.modThm_jtag : (s.modThm f).jtag = s.jtag := rfl

end

section

variable (s : State) (f : Fabric → Fabric)

@[simp] theorem State.modFab_pending : (s.modFab f).pending = s.pending := rfl
@[simp] theorem State.modFab_now : (s.modFab f).now = s.now := rfl
@[simp] theorem State.modFab_free : (s.modFab f).free = s.free := rfl
@[simp] theorem State.modFab_bus : (s.modFab f).bus = s.bus := rfl
@[simp] theorem State.modFab_start : (s.modFab f).start = s.start := rfl
@[simp] theorem State.modFab_drm : (s.modFab f).drm = s.drm := rfl
@[simp] theorem State.modFab_fuses : (s.modFab f).fuses = s.fuses := rfl
@[simp] theorem State.modFab_bel : (s.modFab f).bel = s.bel := rfl
@[simp] theorem State.modFab_ports : (s.modFab f).ports = s.ports := rfl
@[simp] theorem State.modFab_parts : (s.modFab f).parts = s.parts := rfl
@[simp] theorem State.modFab_qps : (s.modFab f).qps = s.qps := rfl
@[simp] theorem State.modFab_gal : (s.modFab f).gal = s.gal := rfl
@[simp] theorem State.modFab_hmem : (s.modFab f).hmem = s.hmem := rfl
@[simp] theorem State.modFab_hbad : (s.modFab f).hbad = s.hbad := rfl
@[simp] theorem State.modFab_barHeld : (s.modFab f).barHeld = s.barHeld := rfl
@[simp] theorem State.modFab_mem : (s.modFab f).mem = s.mem := rfl
@[simp] theorem State.modFab_hbm : (s.modFab f).hbm = s.hbm := rfl
@[simp] theorem State.modFab_arr : (s.modFab f).arr = s.arr := rfl
@[simp] theorem State.modFab_slots : (s.modFab f).slots = s.slots := rfl
@[simp] theorem State.modFab_eng : (s.modFab f).eng = s.eng := rfl
@[simp] theorem State.modFab_pwr : (s.modFab f).pwr = s.pwr := rfl
@[simp] theorem State.modFab_thm : (s.modFab f).thm = s.thm := rfl
@[simp] theorem State.modFab_led : (s.modFab f).led = s.led := rfl
@[simp] theorem State.modFab_sec : (s.modFab f).sec = s.sec := rfl
@[simp] theorem State.modFab_mgmt : (s.modFab f).mgmt = s.mgmt := rfl
@[simp] theorem State.modFab_fab : (s.modFab f).fab = f s.fab := rfl
@[simp] theorem State.modFab_links : (s.modFab f).links = s.links := rfl
@[simp] theorem State.modFab_bundles : (s.modFab f).bundles = s.bundles := rfl
@[simp] theorem State.modFab_lans : (s.modFab f).lans = s.lans := rfl
@[simp] theorem State.modFab_jtag : (s.modFab f).jtag = s.jtag := rfl

end

section

variable (s : State) (i : Nat) (v : Link)

@[simp] theorem State.setLink_pending : (s.setLink i v).pending = s.pending := rfl
@[simp] theorem State.setLink_now : (s.setLink i v).now = s.now := rfl
@[simp] theorem State.setLink_free : (s.setLink i v).free = s.free := rfl
@[simp] theorem State.setLink_bus : (s.setLink i v).bus = s.bus := rfl
@[simp] theorem State.setLink_start : (s.setLink i v).start = s.start := rfl
@[simp] theorem State.setLink_drm : (s.setLink i v).drm = s.drm := rfl
@[simp] theorem State.setLink_fuses : (s.setLink i v).fuses = s.fuses := rfl
@[simp] theorem State.setLink_bel : (s.setLink i v).bel = s.bel := rfl
@[simp] theorem State.setLink_ports : (s.setLink i v).ports = s.ports := rfl
@[simp] theorem State.setLink_parts : (s.setLink i v).parts = s.parts := rfl
@[simp] theorem State.setLink_qps : (s.setLink i v).qps = s.qps := rfl
@[simp] theorem State.setLink_gal : (s.setLink i v).gal = s.gal := rfl
@[simp] theorem State.setLink_hmem : (s.setLink i v).hmem = s.hmem := rfl
@[simp] theorem State.setLink_hbad : (s.setLink i v).hbad = s.hbad := rfl
@[simp] theorem State.setLink_barHeld : (s.setLink i v).barHeld = s.barHeld := rfl
@[simp] theorem State.setLink_mem : (s.setLink i v).mem = s.mem := rfl
@[simp] theorem State.setLink_hbm : (s.setLink i v).hbm = s.hbm := rfl
@[simp] theorem State.setLink_arr : (s.setLink i v).arr = s.arr := rfl
@[simp] theorem State.setLink_slots : (s.setLink i v).slots = s.slots := rfl
@[simp] theorem State.setLink_eng : (s.setLink i v).eng = s.eng := rfl
@[simp] theorem State.setLink_pwr : (s.setLink i v).pwr = s.pwr := rfl
@[simp] theorem State.setLink_thm : (s.setLink i v).thm = s.thm := rfl
@[simp] theorem State.setLink_led : (s.setLink i v).led = s.led := rfl
@[simp] theorem State.setLink_sec : (s.setLink i v).sec = s.sec := rfl
@[simp] theorem State.setLink_mgmt : (s.setLink i v).mgmt = s.mgmt := rfl
@[simp] theorem State.setLink_fab : (s.setLink i v).fab = s.fab := rfl
@[simp] theorem State.setLink_links : (s.setLink i v).links =
    tset none s.links i (if v = linkInit i then none else some v) := rfl
@[simp] theorem State.setLink_bundles : (s.setLink i v).bundles = s.bundles := rfl
@[simp] theorem State.setLink_lans : (s.setLink i v).lans = s.lans := rfl
@[simp] theorem State.setLink_jtag : (s.setLink i v).jtag = s.jtag := rfl

end

section

variable (s : State) (i : Nat) (f : Link → Link)

@[simp] theorem State.modLink_pending : (s.modLink i f).pending = s.pending := rfl
@[simp] theorem State.modLink_now : (s.modLink i f).now = s.now := rfl
@[simp] theorem State.modLink_free : (s.modLink i f).free = s.free := rfl
@[simp] theorem State.modLink_bus : (s.modLink i f).bus = s.bus := rfl
@[simp] theorem State.modLink_start : (s.modLink i f).start = s.start := rfl
@[simp] theorem State.modLink_drm : (s.modLink i f).drm = s.drm := rfl
@[simp] theorem State.modLink_fuses : (s.modLink i f).fuses = s.fuses := rfl
@[simp] theorem State.modLink_bel : (s.modLink i f).bel = s.bel := rfl
@[simp] theorem State.modLink_ports : (s.modLink i f).ports = s.ports := rfl
@[simp] theorem State.modLink_parts : (s.modLink i f).parts = s.parts := rfl
@[simp] theorem State.modLink_qps : (s.modLink i f).qps = s.qps := rfl
@[simp] theorem State.modLink_gal : (s.modLink i f).gal = s.gal := rfl
@[simp] theorem State.modLink_hmem : (s.modLink i f).hmem = s.hmem := rfl
@[simp] theorem State.modLink_hbad : (s.modLink i f).hbad = s.hbad := rfl
@[simp] theorem State.modLink_barHeld : (s.modLink i f).barHeld = s.barHeld := rfl
@[simp] theorem State.modLink_mem : (s.modLink i f).mem = s.mem := rfl
@[simp] theorem State.modLink_hbm : (s.modLink i f).hbm = s.hbm := rfl
@[simp] theorem State.modLink_arr : (s.modLink i f).arr = s.arr := rfl
@[simp] theorem State.modLink_slots : (s.modLink i f).slots = s.slots := rfl
@[simp] theorem State.modLink_eng : (s.modLink i f).eng = s.eng := rfl
@[simp] theorem State.modLink_pwr : (s.modLink i f).pwr = s.pwr := rfl
@[simp] theorem State.modLink_thm : (s.modLink i f).thm = s.thm := rfl
@[simp] theorem State.modLink_led : (s.modLink i f).led = s.led := rfl
@[simp] theorem State.modLink_sec : (s.modLink i f).sec = s.sec := rfl
@[simp] theorem State.modLink_mgmt : (s.modLink i f).mgmt = s.mgmt := rfl
@[simp] theorem State.modLink_fab : (s.modLink i f).fab = s.fab := rfl
@[simp] theorem State.modLink_links : (s.modLink i f).links =
    tset none s.links i (if f (s.link i) = linkInit i then none else some (f (s.link i))) := rfl
@[simp] theorem State.modLink_bundles : (s.modLink i f).bundles = s.bundles := rfl
@[simp] theorem State.modLink_lans : (s.modLink i f).lans = s.lans := rfl
@[simp] theorem State.modLink_jtag : (s.modLink i f).jtag = s.jtag := rfl

end

section

variable (s : State) (i : Nat) (f : Bundle → Bundle)

@[simp] theorem State.modBundle_pending : (s.modBundle i f).pending = s.pending := rfl
@[simp] theorem State.modBundle_now : (s.modBundle i f).now = s.now := rfl
@[simp] theorem State.modBundle_free : (s.modBundle i f).free = s.free := rfl
@[simp] theorem State.modBundle_bus : (s.modBundle i f).bus = s.bus := rfl
@[simp] theorem State.modBundle_start : (s.modBundle i f).start = s.start := rfl
@[simp] theorem State.modBundle_drm : (s.modBundle i f).drm = s.drm := rfl
@[simp] theorem State.modBundle_fuses : (s.modBundle i f).fuses = s.fuses := rfl
@[simp] theorem State.modBundle_bel : (s.modBundle i f).bel = s.bel := rfl
@[simp] theorem State.modBundle_ports : (s.modBundle i f).ports = s.ports := rfl
@[simp] theorem State.modBundle_parts : (s.modBundle i f).parts = s.parts := rfl
@[simp] theorem State.modBundle_qps : (s.modBundle i f).qps = s.qps := rfl
@[simp] theorem State.modBundle_gal : (s.modBundle i f).gal = s.gal := rfl
@[simp] theorem State.modBundle_hmem : (s.modBundle i f).hmem = s.hmem := rfl
@[simp] theorem State.modBundle_hbad : (s.modBundle i f).hbad = s.hbad := rfl
@[simp] theorem State.modBundle_barHeld : (s.modBundle i f).barHeld = s.barHeld := rfl
@[simp] theorem State.modBundle_mem : (s.modBundle i f).mem = s.mem := rfl
@[simp] theorem State.modBundle_hbm : (s.modBundle i f).hbm = s.hbm := rfl
@[simp] theorem State.modBundle_arr : (s.modBundle i f).arr = s.arr := rfl
@[simp] theorem State.modBundle_slots : (s.modBundle i f).slots = s.slots := rfl
@[simp] theorem State.modBundle_eng : (s.modBundle i f).eng = s.eng := rfl
@[simp] theorem State.modBundle_pwr : (s.modBundle i f).pwr = s.pwr := rfl
@[simp] theorem State.modBundle_thm : (s.modBundle i f).thm = s.thm := rfl
@[simp] theorem State.modBundle_led : (s.modBundle i f).led = s.led := rfl
@[simp] theorem State.modBundle_sec : (s.modBundle i f).sec = s.sec := rfl
@[simp] theorem State.modBundle_mgmt : (s.modBundle i f).mgmt = s.mgmt := rfl
@[simp] theorem State.modBundle_fab : (s.modBundle i f).fab = s.fab := rfl
@[simp] theorem State.modBundle_links : (s.modBundle i f).links = s.links := rfl
@[simp] theorem State.modBundle_bundles : (s.modBundle i f).bundles = tmod Bundle.init s.bundles i f := rfl
@[simp] theorem State.modBundle_lans : (s.modBundle i f).lans = s.lans := rfl
@[simp] theorem State.modBundle_jtag : (s.modBundle i f).jtag = s.jtag := rfl

end

section

variable (s : State) (i : Nat) (f : Lantern → Lantern)

@[simp] theorem State.modLan_pending : (s.modLan i f).pending = s.pending := rfl
@[simp] theorem State.modLan_now : (s.modLan i f).now = s.now := rfl
@[simp] theorem State.modLan_free : (s.modLan i f).free = s.free := rfl
@[simp] theorem State.modLan_bus : (s.modLan i f).bus = s.bus := rfl
@[simp] theorem State.modLan_start : (s.modLan i f).start = s.start := rfl
@[simp] theorem State.modLan_drm : (s.modLan i f).drm = s.drm := rfl
@[simp] theorem State.modLan_fuses : (s.modLan i f).fuses = s.fuses := rfl
@[simp] theorem State.modLan_bel : (s.modLan i f).bel = s.bel := rfl
@[simp] theorem State.modLan_ports : (s.modLan i f).ports = s.ports := rfl
@[simp] theorem State.modLan_parts : (s.modLan i f).parts = s.parts := rfl
@[simp] theorem State.modLan_qps : (s.modLan i f).qps = s.qps := rfl
@[simp] theorem State.modLan_gal : (s.modLan i f).gal = s.gal := rfl
@[simp] theorem State.modLan_hmem : (s.modLan i f).hmem = s.hmem := rfl
@[simp] theorem State.modLan_hbad : (s.modLan i f).hbad = s.hbad := rfl
@[simp] theorem State.modLan_barHeld : (s.modLan i f).barHeld = s.barHeld := rfl
@[simp] theorem State.modLan_mem : (s.modLan i f).mem = s.mem := rfl
@[simp] theorem State.modLan_hbm : (s.modLan i f).hbm = s.hbm := rfl
@[simp] theorem State.modLan_arr : (s.modLan i f).arr = s.arr := rfl
@[simp] theorem State.modLan_slots : (s.modLan i f).slots = s.slots := rfl
@[simp] theorem State.modLan_eng : (s.modLan i f).eng = s.eng := rfl
@[simp] theorem State.modLan_pwr : (s.modLan i f).pwr = s.pwr := rfl
@[simp] theorem State.modLan_thm : (s.modLan i f).thm = s.thm := rfl
@[simp] theorem State.modLan_led : (s.modLan i f).led = s.led := rfl
@[simp] theorem State.modLan_sec : (s.modLan i f).sec = s.sec := rfl
@[simp] theorem State.modLan_mgmt : (s.modLan i f).mgmt = s.mgmt := rfl
@[simp] theorem State.modLan_fab : (s.modLan i f).fab = s.fab := rfl
@[simp] theorem State.modLan_links : (s.modLan i f).links = s.links := rfl
@[simp] theorem State.modLan_bundles : (s.modLan i f).bundles = s.bundles := rfl
@[simp] theorem State.modLan_lans : (s.modLan i f).lans = tmod Lantern.init s.lans i f := rfl
@[simp] theorem State.modLan_jtag : (s.modLan i f).jtag = s.jtag := rfl

end

end Sys2Proof.Machine
end

