-- ==== Sys2Proof/Laws/Ops.lean ====
section
/-! SUPPORT. The shared operations once each: a command that may act answers its effect, the time of a command changes nothing
but `now`, memory without upset words decodes clean, and the frames compose. -/

namespace Sys2Proof.Machine

/-! ### Commands that act -/

/-- A command that passes its checks answers its effect. -/
theorem State.act_of_ready {s u : State} {t id op : Nat} {a : Acc} (h : s.Ready t id op a u) (f : Acc → State → State) :
    s.act t id op f = .next (f a u) := by
  unfold State.act
  dsimp only
  rw [h.1]
  dsimp only
  rw [h.2]

/-- A command that is accepted answers its effect where no check stands before it. -/
theorem State.actOn_of_taken {s u : State} {t id op : Nat} {a : Acc} (h : s.Taken t id op a u) (f : Acc → State → State) :
    s.actOn t id op f = .next (f a u) := by
  unfold State.actOn
  dsimp only
  rw [h]

/-- A command at the front of Keep's queue answers its effect. -/
theorem State.keepAct_of_ready {s u : State} {t id op : Nat} {a : Acc} (h : s.KeepReady t id op a u)
    (f : Acc → State → State) : s.keepAct t id op f = .next (f a u) := by
  obtain ⟨rest, h1, h2, h3, h7, h4, h5, h6⟩ := h
  unfold State.keepAct
  simp only [State.atTime_gal, h1, h2, h3, h7]
  simp only [ne_eq, not_true_eq_false, Bool.false_eq_true, or_self, if_false]
  rw [← h4, h5]; simp only []; rw [h6]

/-! ### The time of a command -/

@[simp] theorem State.atTime_link_of (s : State) (t k : Nat) : (s.atTime t).link k = s.link k := rfl
@[simp] theorem State.atTime_bundle_of (s : State) (t k : Nat) : (s.atTime t).bundle k = s.bundle k := rfl
@[simp] theorem State.atTime_lan_of (s : State) (t k : Nat) : (s.atTime t).lan k = s.lan k := rfl
@[simp] theorem State.atTime_die_of (s : State) (t k : Nat) : (s.atTime t).die k = s.die k := rfl
@[simp] theorem State.atTime_rail_of (s : State) (t k : Nat) : (s.atTime t).rail k = s.rail k := rfl
@[simp] theorem State.atTime_part_of (s : State) (t : Nat) (k : Fin 4) : (s.atTime t).part k = s.part k := rfl
@[simp] theorem State.atTime_port_of (s : State) (t : Nat) (k : Fin 4) : (s.atTime t).port k = s.port k := rfl
@[simp] theorem State.atTime_dom_of (s : State) (t k : Nat) : (s.atTime t).dom k = s.dom k := rfl
@[simp] theorem State.atTime_sleepDepth (s : State) (t k : Nat) : (s.atTime t).sleepDepth k = s.sleepDepth k := rfl
@[simp] theorem State.atTime_pagesOpen (s : State) (t : Nat) (k : Fin 4) : (s.atTime t).pagesOpen k = s.pagesOpen k := rfl
@[simp] theorem State.atTime_isSteward (s : State) (t : Nat) (k : Fin 4) : (s.atTime t).isSteward k = s.isSteward k := rfl
@[simp] theorem State.atTime_running (s : State) (t : Nat) : (s.atTime t).running = s.running := rfl
@[simp] theorem State.atTime_mgmtOpen (s : State) (t : Nat) : (s.atTime t).mgmtOpen = s.mgmtOpen := rfl

/-! ### Halves and memory -/

/-- With both halves in service no half is missing. -/
theorem State.halvesMissing_none {u : State} (w : u.arr.west.half = .inService) (e : u.arr.east.half = .inService)
    (l : List Half) : u.halvesMissing l = none := by
  unfold State.halvesMissing
  have : ∀ h : Half, (u.arr.get h).half = .inService := by intro h; cases h <;> assumption
  simp [this]

/-- Memory without upset words decodes clean. -/
theorem State.decodeHits_clean {u : State} (h : u.mem.upset = []) (f) : u.decodeHits f = (u, []) := by
  unfold State.decodeHits; simp [h]

/-- Memory without upset words has nothing to correct. -/
theorem State.settle_clean {u : State} (h : u.mem.upset = []) (f) : u.settle f = u := by
  unfold State.settle; rw [State.decodeHits_clean h]; simp [State.retireDue]

/-- The same over a range of a partition's addresses. -/
theorem State.settlePart_clean {u : State} (h : u.mem.upset = []) (p a n) : u.settlePart p a n = u := by
  unfold State.settlePart; exact State.settle_clean h _

/-! ### Frames -/

/-- Two frames compose. -/
theorem State.keepsBut_trans {s t u : State} {l l' m : List StateField} (h : s.KeepsBut l t) (k : t.KeepsBut l' u)
    (e : l ⊆ m) (e' : l' ⊆ m) : s.KeepsBut m u := by
  intro f hf
  have h1 := h f (fun x => hf (e x))
  have h2 := k f (fun x => hf (e' x))
  cases f <;> exact Eq.trans h2 h1

/-- A message interrupt touches the ports and host memory alone. -/
theorem State.msi_keepsBut (s : State) (p : Fin 4) (v : Nat) : s.KeepsBut [.ports, .hmem] (s.msi p v) := by
  intro f hf
  unfold State.msi
  dsimp only
  split
  · cases f <;> rfl
  · split
    · cases f <;> first | rfl | simp at hf
    · cases f <;> first | rfl | simp at hf

end Sys2Proof.Machine
end

