-- ==== Sys2Proof/WellFormed.lean ====
section
/-! DEFINITION. The commands that an event of the block can be: widths, lengths and numbers as the manual bounds them. A
meaning is total on ill-formed terms too; no event is one. -/

namespace Sys2Proof

/-- Lanes of a bundle with its spares: 68 between the halves, 34 to and from the Drum (R302). -/
def lanesIn (b : Fin 16) : Nat := if b.val < 8 then 68 else 34

/-- Lanes or wavelengths that a width command of a link can name. -/
def lanesAt : LinkId → Nat
  | .bundle b => lanesIn b
  | .port _ _ => 16

/-- Temperature sensors of a die in the order of the THERMAL records (Table 8-7). -/
def sensorsIn (d : Fin 11) : Nat := if d.val < 2 then 64 else if d.val = 2 then 16 else 8

/-- What a lane is found to be at a speed: an eye for each of the 16 equaliser codes (R302). -/
def LaneTry.WellFormed (x : LaneTry) : Prop := x.eyes.length = 16

/-- What training finds on a bundle: at most four speeds, and every one of its physical lanes at each (R303). -/
def BundleTrain.WellFormed (n : Nat) (x : BundleTrain) : Prop :=
  x.tries.length ≤ 4 ∧ (∀ l ∈ x.tries, l.length = n ∧ ∀ y ∈ l, y.WellFormed) ∧ x.again.length = n ∧
    ∀ y ∈ x.again, y.WellFormed

/-- What a start finds on a bundle: physical lanes that fail, and what cold training finds. -/
def BundleStart.WellFormed (n : Nat) (x : BundleStart) : Prop := (∀ c ∈ x.lanes, c.lane < n) ∧ x.cold.WellFormed n

/-- What a retrain finds names lanes its bundle has. -/
def Retrained.WellFormed : Retrained → Prop
  | .bundle b lanes => ∀ c ∈ lanes, c.lane < lanesIn b
  | .port _ _ => True

/-- Codewords have 136 symbols (R356). -/
def wordsOk (ws : List (List (BitVec 10))) : Prop := ∀ w ∈ ws, w.length = 136

/-- A shutter test finds an attenuation for each of a Lantern's 16 shutters (R378). -/
def shuttersOk (l : List Nat) : Prop := l.length = 16

/-- A reading fits the ring: a drop ring's loop compares currents, the others follow a detuning (R350). -/
def RingReading.WellFormed : RingId → RingReading → Prop
  | .rx _ _, .currents _ _ _ => True
  | .rx _ _, .detuning _ => False
  | .tx _ _, .detuning _ => True
  | .tx _ _, .currents _ _ _ => False
  | .mux _, .detuning _ => True
  | .mux _, .currents _ _ _ => False

/-- A half's warm start names physical columns, and a module once. -/
def HalfReport.WellFormed (x : HalfReport) : Prop :=
  (∀ c ∈ x.failedCols, c < 33) ∧ x.badModules.Nodup ∧ (∀ t ∈ x.shutters, shuttersOk t.2) ∧
    ∀ b ∈ x.bundles, b.2.WellFormed (lanesIn b.1)

/-- A start's report: sixteen bundles trained, physical columns, modules each named once, sensors that exist, the shutters and
the temperature of each of the eight Lanterns. -/
def StartReport.WellFormed (x : StartReport) : Prop :=
  x.trained.length = 16 ∧ (∀ b : Fin 16, ∀ y ∈ x.trained[b.val]?, y.WellFormed (lanesIn b)) ∧ (∀ c ∈ x.westFailed, c < 33) ∧
    (∀ c ∈ x.eastFailed, c < 33) ∧ x.badModules.Nodup ∧ (∀ s ∈ x.brokenSensors, s.2 < sensorsIn s.1) ∧
    x.lanTemps.length = 8 ∧ ∀ t ∈ x.shutters, shuttersOk t.2

/-- What a cold start's sweep and shutter test find is of every ring (R386) and of every Lantern (R378). -/
def StartReport.Swept (x : StartReport) : Prop :=
  (∀ (l : Fin 8) (i : RingId), ∃ f ∈ x.rings, f.lantern = l ∧ f.ring = i) ∧ ∀ l : Fin 8, ∃ t ∈ x.shutters, t.1 = l

/-- The terms of `Instr` that stand for events. -/
def Instr.WellFormed : Instr → Prop
  | .hstSqTail _ _ _ _ writes bad => (∀ e ∈ writes, e.1 < 2 ^ 64) ∧ ∀ b ∈ bad, b < 2 ^ 64
  | .cfgCommitComplete _ domain => domain < 12
  | .cfgScan _ upset => ∀ u ∈ upset, u.domain < 12 ∧ u.bit < 32
  | .registerWrite _ _ _ width _ _ => width ∈ [8, 16, 32, 64]
  | .orderlyHalfReset _ _ _ key => key < 2 ^ 16
  | .declareHalfLost _ _ _ key => key < 2 ^ 16
  | .singleHalfOperation _ _ key => key < 2 ^ 16
  | .deviceReset _ _ key => key < 2 ^ 16
  | .deviceResetCold _ _ key => key < 2 ^ 16
  | .requestColdStart _ _ key => key < 2 ^ 16
  | .withdrawColdRequest _ _ key => key < 2 ^ 16
  | .bar2Read _ _ offset len _ => 1 ≤ len ∧ len ≤ 4096 ∧ offset + len ≤ 2 ^ 64
  | .bar2Write _ _ offset bytes => 1 ≤ bytes.length ∧ bytes.length ≤ 4096 ∧ offset + bytes.length ≤ 2 ^ 64
  | .hostLinkUp _ _ width rate => width ∈ [1, 2, 4, 8, 16] ∧ 1 ≤ rate ∧ rate ≤ 6
  | .slabCheckFail _ _ column row _ _ => column < 33 ∧ row < 32
  | .slabStallWatchdog _ _ column row _ => column < 33 ∧ row < 32
  | .sentinelSample _ _ counts => counts.length = 33
  | .proactiveReserve _ _ column => column < 33
  | .scrubPass _ _ _ _ parity => ∀ x ∈ parity, x < 64 * 16
  | .retrainComplete _ found => found.WellFormed
  | .laneFomMeasure _ bundle eyes => eyes.length = lanesIn bundle
  | .laneFailure _ bundle lane _ => lane < lanesIn bundle
  | .spareEqSweep _ bundle lane eyes => lane < lanesIn bundle ∧ eyes.length = 16
  | .flitReceive _ _ flit => flit.length = 256
  | .downRetry _ link train => ∀ tr ∈ train, match link with
    | .bundle b => tr.WellFormed (lanesIn b)
    | .port _ _ => True
  | .widthReq _ link _ _ lane spare => lane < lanesAt link ∧ (spare < lanesAt link ∨ spare = 0xFF)
  | .lambdaFail _ _ _ loss => match loss.cause with
    | .codewords words => wordsOk words
    | .ringLost => True
  | .lambdaRelockAttempt _ _ _ _ _ found => wordsOk found.words
  | .widthSwitch _ link _ _ lane seen => lane < lanesAt link ∧ (seen.spare < lanesAt link ∨ seen.spare = 0xFF)
  | .serCheck _ _ _ _ errors symbols => errors ≤ symbols
  | .lanternReturn _ _ badModules shutters => badModules.Nodup ∧ shuttersOk shutters
  | .shellOpen _ dark => shuttersOk dark.shutters
  | .drainPortsEmpty _ dark => shuttersOk dark.shutters
  | .drainTimeout _ dark => shuttersOk dark.shutters
  | .ringLockUpdate _ _ ring seen => seen.WellFormed ring
  | .portRampComplete _ _ _ found => found.powers.length = 16 ∧ found.errors.length = 16
  | .fabricMessageReceive _ _ _ msg => 32 ≤ msg.length ∧ msg.length ≤ 65568
  | .powerSample t _ voltages currents risen => voltages.length = 14 ∧ currents.length = 14 ∧ ∀ x ∈ risen, x.2 ≤ t
  | .railBelowWarning _ _ millivolts => millivolts < 4096
  | .railBelowReset _ _ millivolts => millivolts < 4096
  | .halfReturn _ _ report => report.WellFormed
  | .thermalSample _ die read => read.temps.length = sensorsIn die ∧ (read.shutters = [] ∨ shuttersOk read.shutters)
  | .jtagBypass scan => scan.opcode ∉ [0x00#8, 0x01#8, 0x02#8, 0x03#8, 0x04#8, 0x20#8]
  | .belfryMessageArrival _ _ stamp => stamp < 2 ^ 64
  | .spdmGetCertificate _ _ offset len => offset < 2 ^ 16 ∧ len < 2 ^ 16
  | .spdmRespondIfReady _ ask => ask.code ∉ spdmRows
  | .spdmChallenge _ _ nonce _ => nonce.length = 32
  | .spdmGetMeasurements _ _ _ sign nonce _ => nonce.length = 32 ∨ sign = false
  | .pldmRequestFirmwareData _ _ chunk => chunk.length ≤ 65536
  | .coldStart _ report => report.WellFormed ∧ report.Swept
  | .warmStart _ report => report.WellFormed
  | .registerRead _ _ _ width _ => width ∈ [8, 16, 32, 64]
  | .commandFetch .. | .getOculus .. | .setPowerState .. | .memAlloc .. | .memFree .. | .memCopy .. | .memFill ..
  | .seqOpen .. | .seqClose .. | .seqStep .. | .seqCancel .. | .seqSave .. | .seqRestore .. | .oplistLoad ..
  | .oplistRun .. | .digestRead .. | .fabRouteSet .. | .fabPortState .. | .lanternStatus .. | .laserSwap ..
  | .calGapPolicy .. | .serviceDrain .. | .pwrCapSet .. | .thermStatus .. | .marginReport .. | .faultRead ..
  | .faultAck .. | .faultClear .. | .attest .. | .debugUnlock .. | .fwUpdate .. | .laneBitslip .. | .laneFomRead ..
  | .faultInject .. | .factoryCommand .. | .hstCqHead .. | .queueEnable .. | .queueDisable .. | .ocuGenOffer ..
  | .drmMbxSel .. | .drmMbxD3Read .. | .cfgOpen .. | .cfgCommit .. | .goardBurst .. | .hstPartReset ..
  | .drmSteward .. | .fltEntryAck .. | .fltEntryClear .. | .functionLevelReset .. | .hotReset .. | .perstNAssert ..
  | .d3hotEntry .. | .frameZeroingDone .. | .runForm .. | .matmul .. | .attend .. | .norm .. | .act .. | .rope ..
  | .sample .. | .draft .. | .verify .. | .gather .. | .scatter .. | .copy .. | .xsend .. | .xrecv .. | .xreduce ..
  | .exactReduce .. | .digestMark .. | .fence .. | .fenceSatisfied .. | .fenceTimeout .. | .loop ..
  | .drafterIteration .. | .draftEarlyStart .. | .operationBoundary .. | .tileWrite .. | .arrRateUpdate ..
  | .retirePendingResolve .. | .pcRelocationDone .. | .fencePendingResolve .. | .hbmTempSample .. | .bundleSleep ..
  | .bundleWake .. | .timeBlock .. | .ucieModuleLoss .. | .flitTransmit .. | .ackCoalesceTimer .. | .ackReceive ..
  | .nakReceive .. | .creditReport .. | .creditReceive .. | .replayTimeout ..
  | .replayRateFault .. | .helloReceive .. | .initReceive .. | .fenceNoteReceive .. | .widthDone ..
  | .laserCheck .. | .spareLocked .. | .spareLockFail .. | .calGapStart .. | .calGapTimeout ..
  | .modRingLockLoss .. | .lambdaDropTimeout .. | .ledgerRecord ..
  | .shellClosed .. | .rxLightLoss .. | .beaconReceive .. | .rampTimeout .. | .beaconTimeout .. | .readyRetry ..
  | .svcButtonPress .. | .autoRestore ..
  | .lanternPllUnlock .. | .lanternReturnTimeout .. | .lanternStopExit .. | .routerRelease .. | .roleNotice ..
  | .voltageAdjust .. | .telemetryTimeout .. | .idleEntry .. | .p2Suspend .. | .droopHoldRelease .. | .droopRate ..
  | .halfPllUnlock .. | .orderlyResetTimeout .. | .halfStartFailure .. | .throttleAdjust .. | .hardTrip ..
  | .belfryLog .. | .belfryParity .. | .updateSessionTimeout .. | .spdmGetVersion .. | .spdmGetCapabilities ..
  | .spdmNegotiateAlgorithms .. | .spdmGetDigests .. | .pldmGetTid .. | .pldmGetVersion ..
  | .pldmGetTypes .. | .pldmGetCommands .. | .pldmReadSensor .. | .pldmSetPowerCap .. | .pldmSetPowerState ..
  | .pldmSetSteward .. | .pldmPartitionReset .. | .pldmSetQuota .. | .pldmLanternService .. | .pldmPollEvent ..
  | .pldmFaultClear .. | .pldmRequestUpdate .. | .pldmPassComponentTable .. | .pldmUpdateComponent ..
  | .pldmTransferComplete .. | .pldmVerifyComplete .. | .pldmApplyComplete .. | .pldmActivateFirmware ..
  | .pldmGetStatus .. | .pldmCancelUpdate .. | .jtagIdcode .. | .jtagSamplePreload ..
  | .jtagExtest .. | .jtagClamp .. | .jtagHighz .. | .jtagDieSelect .. | .tapLeaveTestInstruction .. | .powerOn ..
  | .packageReset .. | .packageResetRelease .. | .powerOff .. | .tbrefLoss .. | .startFailure .. | .autoDeviceReset ..
  | .trainingParamsWrite .. | .calGapHoldEnd .. | .retrainTimeout .. | .d3hotExit .. | .laserSuddenFade ..
  | .endpointIdAssignment .. | .dynamicAddressAssignment .. | .doeDiscovery .. => True

end Sys2Proof
end

