-- ==== Sys2Proof/Tests/Slice0.lean ====
section
/-! SUPPORT. Small tests: states and operands that meet the hypotheses of each statement, ill-formed terms that the checks
refuse, and single steps whose results the manual gives. -/

set_option Elab.async false

namespace Sys2Proof.Tests

open Sys2Proof Sys2Proof.Machine

/-- The block after reset, its start completed. -/
def up : State := { State.reset with start := { State.reset.start with phase := .running } }

/-- A packet of zeros but for its opcode and the bytes given. -/
def packet (op : Nat) (bs : List (Nat × Nat)) : List Byte :=
  (List.range 64).map fun i => byteOf (match bs.find? fun b => b.1 == i with
    | some b => b.2
    | none => if i = 0 then op else if i = 1 then op / 256 else 0)

/-- A command of partition 0 and queue pair 0 under number 7. -/
def cmd (op : Nat) (bs : List (Nat × Nat)) : Acc :=
  { id := 7, part := 0, qp := 0, keep := op / 256 == 9, pkt := packet op bs, ext := [], mark := 0, dead := false }

/-- The bytes of a field of a packet. -/
def field (off n v : Nat) : List (Nat × Nat) := (List.range n).map fun i => (off + i, v / 256 ^ i % 256)

/-- A state in which the command has been accepted. -/
def got (s : State) (a : Acc) : State := { s with gal := { s.gal with accepted := [a] } }

/-- A state in which the command waits in Keep's queue. -/
def keepGot (s : State) (a : Acc) : State := { s with gal := { s.gal with keepQ := [a] } }

/-- The state that the command then acts on. -/
def acting (s : State) (t : Nat) : State := { s.atTime t with gal := { s.gal with accepted := [] } }

theorem taken (s : State) (t : Nat) (a : Acc) (op : Nat) (h : a.opcode = op) : (got s a).Taken t a.id op a (acting s t) := by
  subst h
  simp [State.Taken, State.take, got, State.atTime, acting]

theorem ready (s : State) (t : Nat) (a : Acc) (op : Nat) (h : a.opcode = op) (g : (acting s t).gate3 a = none) :
    (got s a).Ready t a.id op a (acting s t) := ⟨taken s t a op h, g⟩

/-- Partition 0's queue pair 0 enabled with rings of 16 entries, its host port serving. -/
def queued : State := ({ up with ports := tset Port.init up.ports 0 { Port.init with width := 16, rate := 5 } } : State).modQp 0 0
  fun q => { q with enable := true, sizeLog2 := 4, sqBase := 4096, cqBase := 8192, irqEn := true, armed := true }

/-- Partition 0 holds two frames, one in each half. -/
def mapped : State := queued.mapFrames 0 0 [.west, .east]

/-- A list loaded as list 0. -/
def listed (s : State) (ds : List Desc) : State := s.modEng fun e => { e with
  lists := tset none e.lists (listKey 0 0) (some ⟨ds, 0, 0⟩) }

/-- A descriptor of zeros but for its version, its kind and the fields given. -/
def desc (kind : Nat) (bs : List (Nat × Nat)) : Desc := parseDesc ((List.range 128).map fun i =>
  byteOf (match bs.find? fun b => b.1 == i with
    | some b => b.2
    | none => if i = 0 then 1 else if i = 1 then kind else 0))

/-- Slot 0 open for partition 0. -/
def opened : State := mapped.modSlot 0 fun x => { x with
  owner := some 0, st := .opened, gen := 1, target := ⟨1, 1, 64, 2⟩, drafter := ⟨0, 0, 0, 0⟩, maxPos := 16, tentPos := 8, greedy := true,
  topP := 1 }

/-- A run of one list in the arrays, at its first operation. -/
def running (ds : List Desc) (rows : List RowEnt) (gs : List GroupSnap) : State :=
  (listed mapped ds).modEng fun e => { e with run := some (newRun 0 0 1 none [] rows gs) }

/-- Whether the operation in turn passes its checks and its result is `ok`. -/
def starts (s : State) (kind : Nat) (f : State → Run → Desc → OpRes) : Bool := match (s.atTime 1).enter kind [] with
  | .ok (u, r, _, d, _) => (match f u r d with
    | .ok _ _ _ => true
    | _ => false)
  | .error _ => false


/-! ### Witnesses of the statements' hypotheses -/

theorem witness_StepRunsFrontCommand :
    ({ up with pending := [.idleEntry 1, .idleEntry 2] } : State).pending = .idleEntry 1 :: [.idleEntry 2] ∧
      up.pending = [] := by decide

theorem witness_OnlyFactoryCommandStops :
    (∀ t id, Instr.idleEntry 1 ≠ .factoryCommand t id) ∧
    (∃ a ∈ (got up (cmd 0xF000 [])).gal.accepted, a.id = 7 ∧ 0xF000 ≤ a.opcode) ∧
    (∀ a ∈ (got up (cmd 0xEFFF [])).gal.accepted, a.id = 7 → a.opcode < 0xF000) :=
  ⟨fun _ _ h => Instr.noConfusion h, by decide, by decide⟩

theorem witness_StepKeepsOk : State.reset.Ok ∧
    ∃ t, step { State.reset with pending := [.idleEntry 1] } = .next t := ⟨by constructor <;> decide, _, rfl⟩

theorem witness_QueueAndTimeGoOn : (∀ x, Instr.idleEntry 1 ≠ .powerOn x) ∧ (∀ x, Instr.idleEntry 1 ≠ .powerOff x) ∧
    ∃ t, step { up with pending := [.idleEntry 1] } = .next t :=
  ⟨fun _ h => Instr.noConfusion h, fun _ h => Instr.noConfusion h, _, rfl⟩

theorem witness_ReplyIsWritten :
    ({ cmd 0x0110 [] with dead := true } : Acc).dead = true ∧ ((queued.modPart 0 fun x => { x with resetting := true }).part 0).resetting = true ∧
    (cmd 0x0110 []).dead = false ∧ (queued.part (cmd 0x0110 []).part).resetting = false ∧
    (queued.qp 0 0).irqEn = true ∧ (queued.qp 0 0).armed = true ∧ twf 0 queued.hmem = true ∧
    (queued.qp 0 0).cqBase + 32 * (queued.qp 0 0).cqTail = 8192 ∧
    (∀ k ∈ [hostKey 0 8191, hostKey 0 8224], (k < hostKey 0 8192 ∨ hostKey 0 8192 + 32 ≤ k) ∧
      (k < hostKey 0 (tget MsixVec.init (queued.port 0).msix 0).addr ∨
        hostKey 0 (tget MsixVec.init (queued.port 0).msix 0).addr + 4 ≤ k)) := by decide

theorem witness_OculusUpdateCounts :
    ({ up with drm := { up.drm with change := 2 ^ 32 - 2 } } : State).drm.change % 2 = 0 := by decide

theorem witness_FaultMessageEntersWindow :
    let s := State.issue up 1 .contained 1 0
    ((State.issue s 0 .contained 1 0).bel.waiting.Pairwise fun x y => x.stamp ≤ y.stamp) ∧
    (∀ x ∈ s.bel.waiting, (x.stamp == s.now && stampDie x.msg.src == stampDie 0x022) = false) ∧
    (s.bel.waiting.Pairwise fun x y => x.stamp < y.stamp ∨ x.stamp = y.stamp ∧ x.msg.src ≤ y.msg.src) ∧
    s.bel.waiting ≠ [] ∧
    halfOfSource 0x021 = none ∧ halfOfSource 0x022 = some .west ∧ (up.arr.get .west).unsync = false ∧
    ((up.modArr .west fun a => { a with unsync := true }).arr.get .west).unsync = true := by decide

theorem witness_CheckCodeCorrects : isLocBit 0 = false ∧ isLocBit 64 = false ∧ isLocBit 65 = true ∧ isLocBit 91 = true ∧
    isLocBit 92 = false ∧ isLocBit 106 = false := by decide

theorem witness_WordWritesAndPoison :
    up.mem.wf = true ∧ 0 + [1, 2, 3, 4, 5, 6, 7, (8 : Byte)].length ≤ 8 ∧ 7 + [(1 : Byte)].length ≤ 8 ∧
    poisoned (poisonWord up.mem 5) 5 = true ∧ (poisonWord up.mem 5).wf = true ∧ poisoned up.mem 5 = false ∧
    tget false up.mem.badLoc 5 = false ∧ 39 / 8 ≠ 5 ∧ 48 / 8 ≠ 5 := by decide

theorem witness_MemoryOperationsKeepForm :
    (writeDpa up.mem (2 ^ 21) [1, 2]).wf = true ∧ (2 ^ 21 - 1) / 2 ^ 21 ≠ 1 ∧ 2 ^ 21 / 2 ^ 21 = 1 := by decide

theorem witness_QueuesAndFetch_pages : queued.pagesOpen 0 = true ∧ (queued.qp 0 0).enable = true ∧
    (15 : Word).toNat % 4096 < (queued.qp 0 0).size ∧ (queued.qp 0 0).size ≤ (16 : Word).toNat % 4096 ∧
    (queued.qp 0 0).active = true ∧
    ((0 : Word).toNat % 4096 + (queued.qp 0 0).size - (queued.qp 0 0).cqHead) % (queued.qp 0 0).size ≤
      (queued.qp 0 0).unconsumed := by decide

theorem witness_QueuesAndFetch_enable :
    let s := queued.modQp 0 0 fun q => { q with enable := false }
    (s.qp 0 0).active = false ∧ (s.qp 0 0).sqBase ≠ 0 ∧ (s.qp 0 0).cqBase ≠ 0 ∧
      bitsOf (0x405 : Word).toNat 11 8 = (s.qp 0 0).sizeLog2 ∧ bitOf (0x405 : Word).toNat 1 = (s.qp 0 0).urgent := by decide

theorem witness_QueuesAndFetch_empty :
    let s := queued.modQp 0 0 fun q => { q with enable := false, sqBase := 0 }
    (s.qp 0 0).active = false ∧ (s.qp 0 0).enable = false ∧ (s.qp 0 0).sqBase = 0 ∧ s.pagesOpen 0 = true ∧
      bitsOf (0x405 : Word).toNat 11 8 = (s.qp 0 0).sizeLog2 ∧ bitOf (0x405 : Word).toNat 1 = (s.qp 0 0).urgent := by decide

/-- A packet stands in the ring, its tail written. -/
def rung (pkt : List Byte) : State := (queued.hostWrite 0 4096 pkt).modQp 0 0 fun q => { q with sqTail := 1 }

theorem witness_QueuesAndFetch_fetch :
    ∃ (s : State) (p : Fin 4) (i : Fin 16), s.start.phase = .running ∧ s.start.safeNoFetch = false ∧
      (s.atTime 1).pick = some (p, false, i) ∧
      (∀ j ≤ 0, s.hostBad p ((s.qp p i).entryAt j) 64 = false) ∧ le (s.hostRead p ((s.qp p i).entryAt 0) 64) 14 2 = 0 :=
  ⟨rung (packet 0x0101 []), 0, 0, by decide, by decide, by decide, by decide, by decide⟩

theorem witness_QueuesAndFetch_long :
    let s := rung (packet 0x0101 [(14, 1), (15, 16)])
    s.start.phase = .running ∧ s.start.safeNoFetch = false ∧ (s.atTime 1).pick = some (0, false, 0) ∧
      s.hostBad 0 ((s.qp 0 0).entryAt 0) 64 = false ∧ le (s.hostRead 0 ((s.qp 0 0).entryAt 0) 64) 14 2 = 4097 := by decide

theorem witness_AcceptanceStages_pass :
    let s := queued.modPart 0 fun x => { x with offer := some 1 }
    let k := cmd 0x0910 (field 2 1 1 ++ field 10 2 0xFFFF)
    let c := cmd 0x0110 (field 2 1 1 ++ field 10 2 0xFFFF ++ field 12 2 (s.part 0).gen.toNat)
    s.gate k = none ∧ k.keep = true ∧ s.gate c = none ∧ c.keep = false ∧ s.gate2 c = none ∧ s.gate3 c = none ∧
      c.opcode ≠ 0x0311 ∧ c.opcode ≠ 0x0402 := by decide

theorem witness_AcceptanceStages_numbered :
    let s := (listed queued [desc 0x10 []]).modPart 0 fun x => { x with offer := some 1 }
    let c := cmd 0x0402 (field 2 1 1 ++ field 10 2 0xFFFF ++ field 12 2 (s.part 0).gen.toNat)
    let o := opened.modPart 0 fun x => { x with offer := some 1 }
    let x := cmd 0x0311 (field 2 1 1 ++ field 12 2 1)
    s.gate c = none ∧ c.keep = false ∧ s.gate2 c = none ∧ s.gate3 c = none ∧ c.opcode = 0x0402 ∧
      o.gate x = none ∧ o.gate2 x = none ∧ o.gate3 x = none ∧ x.opcode = 0x0311 := by decide

theorem witness_AcceptanceStages_refuse :
    let s := queued.modPart 0 fun x => { x with offer := some 1 }
    let c := cmd 0x0110 (field 2 1 1 ++ field 10 2 0xFFFF ++ field 16 1 4)
    let d := cmd 0x0110 (field 2 1 1 ++ field 10 2 0xFFFF ++ field 12 2 9)
    s.gate (cmd 0x0110 []) = some ⟨stBadParam, 4, 2, 0⟩ ∧ s.gate c = none ∧ s.gate2 c = none ∧
      s.gate3 c = some ⟨stBadParam, 10, 16, 0⟩ ∧ s.gate d = none ∧ s.gate2 d = some ⟨stStale, 8, 12, 2 ^ 16⟩ := by decide

theorem witness_AcceptanceStages_generations :
    let c := cmd 0x0110 (field 12 2 9)
    let d := cmd 0x0302 (field 10 2 0 ++ field 12 2 9)
    (∃ r, cmdRow c.opcode = some r ∧ r.security.contains opened.sec.st.code = true ∧
      r.power.contains opened.powerSeen = true) ∧ opened.start.safe = false ∧ c.isSlot = false ∧
    c.genField ≠ (opened.part 0).gen.toNat ∧
    (∃ r, cmdRow d.opcode = some r ∧ r.security.contains opened.sec.st.code = true ∧
      r.power.contains opened.powerSeen = true) ∧ d.isSlot = true ∧ (opened.slot d.slotField).owner = some d.part ∧
    (opened.slot d.slotField).st ≠ .free ∧ d.genField ≠ (opened.slot d.slotField).gen.toNat :=
  ⟨⟨_, rfl, by decide, by decide⟩, by decide, by decide, by decide, ⟨_, rfl, by decide, by decide⟩, by decide, by decide,
    by decide, by decide⟩

theorem witness_PlacementDecidesHalf :
    (cmd 0x0201 (field 32 1 1)).par 32 1 = 1 ∧ (cmd 0x0201 (field 32 1 2)).par 32 1 = 2 ∧
    (cmd 0x0201 (field 32 1 3)).par 32 1 = 3 ∧ (cmd 0x0201 []).par 32 1 = 0 ∧ up.start.singleHalf = false ∧
    ({ up with start := { up.start with singleHalf := true } } : State).halfUp .west = true ∧
    ({ up with arr := ⟨{ up.arr.west with half := .lost }, up.arr.east⟩ } : State).halfUp .west = false := by decide

theorem witness_MemoryCommands_alloc : ∃ (a : Acc) (u : State), (got up a).Ready 1 a.id 0x0201 a u ∧
    u.arr.west.half = .inService ∧ u.arr.east.half = .inService ∧
    u.freeNow (u.allocShare a).1 (u.allocShare a).2 = true :=
  ⟨cmd 0x0201 (field 24 8 (2 ^ 22)), _, ready _ _ _ _ (by decide) (by decide), by decide, by decide, by decide⟩

theorem witness_MemoryCommands_free : ∃ (a : Acc) (s u v : State), (got mapped a).Ready 1 a.id 0x0202 a u ∧
    u.arr.west.half = .inService ∧ u.arr.east.half = .inService ∧ u.mappedRange a.part (a.par 16 8) (a.par 24 8) = true ∧
    (∀ r ∈ u.activeRuns a.part, a.id ≤ r) ∧ (got s a).Ready 1 a.id 0x0202 a v ∧ ∃ r ∈ v.activeRuns a.part, r < a.id :=
  ⟨cmd 0x0202 (field 24 8 (2 ^ 21)), mapped.modEng fun e => { e with waiting := [⟨{ cmd 0x0402 [] with id := 3 }, 0, 1⟩] },
    _, _, ready _ _ _ _ (by decide) (by decide), by decide, by decide, by decide, by decide,
    ready _ _ _ _ (by decide) (by decide), by decide⟩

theorem witness_MemoryCommands_copy : ∃ (a b : Acc) (u v : State), (got mapped a).Taken 1 a.id 0x0210 a u ∧
    a.par 40 1 = 0 ∧ a.par 41 1 = 0 ∧ u.mappedRange a.part (a.par 16 8) (a.par 32 8) = true ∧
    u.mappedRange a.part (a.par 24 8) (a.par 32 8) = true ∧
    (got mapped b).Taken 1 b.id 0x0220 b v ∧ b.par 41 1 = 0 ∧ v.mappedRange b.part (b.par 24 8) (b.par 32 8) = false :=
  ⟨cmd 0x0210 (field 24 8 (2 ^ 21) ++ field 32 8 64), cmd 0x0220 (field 24 8 (2 ^ 22) ++ field 32 8 64), _, _,
    taken _ _ _ _ (by decide), by decide, by decide, by decide, by decide, taken _ _ _ _ (by decide), by decide, by decide⟩

theorem witness_MemoryCommands_fill : ∃ (a b : Acc) (u v : State), (got mapped a).Taken 1 a.id 0x0220 a u ∧
    a.par 41 1 = 1 ∧ (got mapped b).Taken 1 b.id 0x0220 b v ∧ b.par 41 1 = 0 ∧
    v.mappedRange b.part (b.par 24 8) (b.par 32 8) = true ∧ v.arr.west.half = .inService ∧ v.arr.east.half = .inService :=
  ⟨cmd 0x0220 (field 41 1 1), cmd 0x0220 (field 24 8 0 ++ field 32 8 64), _, _, taken _ _ _ _ (by decide), by decide,
    taken _ _ _ _ (by decide), by decide, by decide, by decide, by decide⟩

theorem witness_ApertureAndZeroing_bar :
    (∀ s ∈ [mapped, (mapped.atTime 1).strike []], s.pagesOpen 0 = true ∧ (∀ x ∈ s.barHeld, x.port ≠ (0 : Fin 4)) ∧
      s.arr.west.half = .inService ∧ s.arr.east.half = .inService) ∧ ((mapped.atTime 1).strike []).mappedRange 0 (((mapped.atTime 1).strike []).barAddr 0 0) 8 = true ∧
    mapped.mappedRange 0 (mapped.barAddr 0 (2 ^ 22 - 1)) 1 = true ∧
    mapped.mappedRange 0 (mapped.barAddr 0 (2 ^ 22 - 1)) 2 = false ∧ 2 ^ 22 - 1 + 2 ≤ 2 ^ 36 := by decide

theorem witness_ApertureAndZeroing_zero :
    up.halfUp .west = true ∧ (up.hbm.get .west).selfRefresh = false ∧ up.gal.waiters = [] ∧
    (∃ s : State, (((s.atTime 1).zeroDone .west).settleMem).noneZeroing = false) :=
  ⟨by decide, by decide, by decide, ⟨mapped.unmapFrames 0 0 2, by decide⟩⟩

theorem witness_ApertureAndZeroing_burst :
    let s := up.modPart 0 fun x => { x with rateUnmapped := 65537, lastBurst := some 0, rateWindow := 60 }
    (s.part 0).rateWindow = max s.now (60 * 10 ^ 9) / 10 ^ 9 ∧ 65536 < (s.part 0).rateUnmapped ∧
      (∀ l ∈ (s.part 0).lastBurst, l + 60 * 10 ^ 9 ≤ max s.now (60 * 10 ^ 9)) := by decide

/-- The first 124 bytes of a DIGEST_MARK descriptor. -/
def markBody : List Byte := [1, 0x10] ++ List.replicate 122 0

theorem crc_mark : crc32c markBody = 0x584AF372#32 := by
  have h0 : ((markBody.drop 0).take 31).foldl crc32cByte 0xFFFFFFFF#32 = 0xC7D38558#32 := by decide +kernel
  have h1 : ((markBody.drop 31).take 31).foldl crc32cByte 0xC7D38558#32 = 0xD13D8FE4#32 := by decide +kernel
  have h2 : ((markBody.drop 62).take 31).foldl crc32cByte 0xD13D8FE4#32 = 0xF6F7700F#32 := by decide +kernel
  have h3 : ((markBody.drop 93).take 31).foldl crc32cByte 0xF6F7700F#32 = 0xA7B50C8D#32 := by decide +kernel
  have e : markBody = (markBody.drop 0).take 31 ++ (markBody.drop 31).take 31 ++ (markBody.drop 62).take 31 ++ (markBody.drop 93).take 31 := by decide +kernel
  unfold crc32c
  rw [e]
  simp only [List.foldl_append, h0, h1, h2, h3]
  decide

/-- The first 252 bytes of the image of a slot without tokens. -/
def imageBody : List Byte := [1, 2, 1, 0, 0, 0, 1, 0, 64, 0, 0, 0, 16, 0, 0, 0, 8] ++ List.replicate 39 0 ++ [1] ++
  List.replicate 7 0 ++ [1] ++ List.replicate 187 0

theorem crc_image : crc32c imageBody = 0xA8EDF593#32 := by
  have h0 : ((imageBody.drop 0).take 31).foldl crc32cByte 0xFFFFFFFF#32 = 0xFCB78BCE#32 := by decide +kernel
  have h1 : ((imageBody.drop 31).take 31).foldl crc32cByte 0xFCB78BCE#32 = 0x63C6F7B5#32 := by decide +kernel
  have h2 : ((imageBody.drop 62).take 31).foldl crc32cByte 0x63C6F7B5#32 = 0xE3945B50#32 := by decide +kernel
  have h3 : ((imageBody.drop 93).take 31).foldl crc32cByte 0xE3945B50#32 = 0x7DAA24AD#32 := by decide +kernel
  have h4 : ((imageBody.drop 124).take 31).foldl crc32cByte 0x7DAA24AD#32 = 0xA4DA2953#32 := by decide +kernel
  have h5 : ((imageBody.drop 155).take 31).foldl crc32cByte 0xA4DA2953#32 = 0x825DE0C7#32 := by decide +kernel
  have h6 : ((imageBody.drop 186).take 31).foldl crc32cByte 0x825DE0C7#32 = 0x175C955B#32 := by decide +kernel
  have h7 : ((imageBody.drop 217).take 31).foldl crc32cByte 0x175C955B#32 = 0x01750CBC#32 := by decide +kernel
  have h8 : ((imageBody.drop 248).take 4).foldl crc32cByte 0x01750CBC#32 = 0x57120A6C#32 := by decide +kernel
  have e : imageBody = (imageBody.drop 0).take 31 ++ (imageBody.drop 31).take 31 ++ (imageBody.drop 62).take 31 ++ (imageBody.drop 93).take 31 ++ (imageBody.drop 124).take 31 ++ (imageBody.drop 155).take 31 ++ (imageBody.drop 186).take 31 ++ (imageBody.drop 217).take 31 ++ (imageBody.drop 248).take 4 := by decide +kernel
  unfold crc32c
  rw [e]
  simp only [List.foldl_append, h0, h1, h2, h3, h4, h5, h6, h7, h8]
  decide

/-- The first 252 bytes of a flit of channel 0, number 0 and LINK_GEN 1. -/
def flitBody : List Byte := [1, 0, 0, 1, 0, 0, 1, 0] ++ List.replicate 244 0

theorem crc_flit : crc32c flitBody = 0x13290788#32 := by
  have h0 : ((flitBody.drop 0).take 31).foldl crc32cByte 0xFFFFFFFF#32 = 0x15AAA390#32 := by decide +kernel
  have h1 : ((flitBody.drop 31).take 31).foldl crc32cByte 0x15AAA390#32 = 0xCE781724#32 := by decide +kernel
  have h2 : ((flitBody.drop 62).take 31).foldl crc32cByte 0xCE781724#32 = 0x591BBF81#32 := by decide +kernel
  have h3 : ((flitBody.drop 93).take 31).foldl crc32cByte 0x591BBF81#32 = 0x6D8C0502#32 := by decide +kernel
  have h4 : ((flitBody.drop 124).take 31).foldl crc32cByte 0x6D8C0502#32 = 0xAA3027BA#32 := by decide +kernel
  have h5 : ((flitBody.drop 155).take 31).foldl crc32cByte 0xAA3027BA#32 = 0x6D03A081#32 := by decide +kernel
  have h6 : ((flitBody.drop 186).take 31).foldl crc32cByte 0x6D03A081#32 = 0x97850AA8#32 := by decide +kernel
  have h7 : ((flitBody.drop 217).take 31).foldl crc32cByte 0x97850AA8#32 = 0xDAA85BFF#32 := by decide +kernel
  have h8 : ((flitBody.drop 248).take 4).foldl crc32cByte 0xDAA85BFF#32 = 0xECD6F877#32 := by decide +kernel
  have e : flitBody = (flitBody.drop 0).take 31 ++ (flitBody.drop 31).take 31 ++ (flitBody.drop 62).take 31 ++ (flitBody.drop 93).take 31 ++ (flitBody.drop 124).take 31 ++ (flitBody.drop 155).take 31 ++ (flitBody.drop 186).take 31 ++ (flitBody.drop 217).take 31 ++ (flitBody.drop 248).take 4 := by decide +kernel
  unfold crc32c
  rw [e]
  simp only [List.foldl_append, h0, h1, h2, h3, h4, h5, h6, h7, h8]
  decide


/-- A SEQ_OPEN of a slot of one layer and one head. -/
def opening : Acc := { cmd 0x0301 (field 10 2 0xFFFF ++ field 14 2 64 ++ field 17 1 2 ++ field 18 2 1 ++ field 22 1 1 ++
    field 26 2 8 ++ field 28 4 16) with
  ext := (List.range 64).map fun i => if i = 16 ∨ i = 24 then 1 else 0 }

theorem witness_SlotsOpen_open : ∃ (a : Acc) (s u : State), (got s a).Ready 1 a.id 0x0301 a u ∧
    u.freeSlot a.slotField = some 0 ∧ u.arr.west.half = .inService ∧ u.arr.east.half = .inService ∧
    u.freeNow (u.kvNeed a.newSlot.target a.newSlot.drafter a.newSlot.maxPos a.newSlot.tentPos).1
      (u.kvNeed a.newSlot.target a.newSlot.drafter a.newSlot.maxPos a.newSlot.tentPos).2 = true :=
  ⟨opening, listed up [desc 8 []], _, ready _ _ _ _ (by decide) (by decide), by decide, by decide, by decide, by decide⟩

/-- An image of a slot without tokens stands at the start of the memory of partition 0. -/
def saved : State := (listed mapped [desc 8 []]).partWrite 0 0 (imageBody ++ leBytes 4 0xA8EDF593)

/-- A SEQ_RESTORE from there. -/
def restoring : Acc := cmd 0x0321 (field 10 2 0xFFFF)

theorem image_ok : headerOk (imageBody ++ leBytes 4 0xA8EDF593) = true := by
  have h : slice (imageBody ++ leBytes 4 0xA8EDF593) 0 252 = imageBody := by decide +kernel
  unfold headerOk
  rw [h, crc_image]
  decide +kernel

theorem witness_SlotsOpen_restore : ∃ u : State, (got saved restoring).Ready 1 restoring.id 0x0321 restoring u ∧
    u.arr.west.half = .inService ∧ u.arr.east.half = .inService ∧ u.mem.upset = [] ∧
    u.mappedRange 0 (restoring.par 56 8) 256 = true ∧ u.partPoison 0 (restoring.par 56 8) 256 = [] ∧
    headerOk (u.partRead 0 (restoring.par 56 8) 256) = true ∧ le (u.partRead 0 (restoring.par 56 8) 256) 68 8 = 0 ∧
    le (u.partRead 0 (restoring.par 56 8) 256) 76 8 = (crc64 0 []).toNat ∧
    (imageSlot (u.partRead 0 (restoring.par 56 8) 256)).draftMax = 0 ∧ restoring.par 40 8 = 0 ∧ restoring.par 48 4 = 0 ∧
    u.mayTake 0 1 1 = true ∧ u.freeNow 1 1 = true ∧ u.freeSlot restoring.slotField = some 0 := by
  have r : (acting saved 1).partRead 0 (restoring.par 56 8) 256 = imageBody ++ leBytes 4 0xA8EDF593 := by decide +kernel
  refine ⟨acting saved 1, ready _ _ _ _ (by decide) (by decide +kernel), ?_⟩
  rw [r, image_ok]
  decide +kernel

theorem witness_SequenceCommands : ∃ (a b c d : Acc) (u v w x : State),
    (got opened a).Taken 1 a.id 0x0310 a u ∧ (u.slot a.slotField).st = .opened ∧
    (got opened b).Taken 1 b.id 0x0311 b v ∧ (v.slot b.slotField).owner = some b.part ∧ (v.slot b.slotField).st ≠ .free ∧
    (got opened c).Taken 1 c.id 0x0302 c w ∧ (w.slot c.slotField).owner = some c.part ∧ (w.slot c.slotField).st ≠ .free ∧
    (got opened d).Taken 1 d.id 0x0320 d x ∧ (x.slot d.slotField).owner = some d.part ∧ (x.slot d.slotField).st = .opened ∧
    x.mem.upset = [] ∧ x.arr.west.half = .inService ∧ x.arr.east.half = .inService ∧
    256 + (x.slot d.slotField).bodyBytes ≤ d.par 24 8 ∧
    x.mappedRange d.part (d.par 16 8) (256 + (x.slot d.slotField).bodyBytes) = true ∧
    (∀ y ∈ (x.slot 0).imageParts (x.slot 0).target 0 (x.slot 0).kvLen ++
      (x.slot 0).imageParts (x.slot 0).drafter (x.slot 0).target.layers (x.slot 0).dkv,
      x.kvPoison 0 y.1 y.2.1 y.2.2 = false) :=
  ⟨cmd 0x0310 [], cmd 0x0311 [], cmd 0x0302 [], cmd 0x0320 (field 24 8 256), _, _, _, _,
    taken _ _ _ _ (by decide), by decide, taken _ _ _ _ (by decide), by decide, by decide,
    taken _ _ _ _ (by decide), by decide, by decide, taken _ _ _ _ (by decide), by decide, by decide, by decide, by decide,
    by decide, by decide, by decide, by decide⟩

theorem witness_ProgramCommands_load : ∃ (a : Acc) (s u v : State), (got s a).Ready 1 a.id 0x0401 a u ∧
    a.par 17 1 = 0 ∧ u.mem.upset = [] ∧ u.arr.west.half = .inService ∧ u.arr.east.half = .inService ∧
    u.mappedRange a.part (a.par 24 8) (a.par 20 4 * descBytes) = true ∧
    u.partPoison a.part (a.par 24 8) (a.par 20 4 * descBytes) = [] ∧
    u.partRead a.part (a.par 24 8) (a.par 20 4 * descBytes) = markBody ++ leBytes 4 0x584AF372 ∧
    (got mapped a).Ready 1 a.id 0x0401 a v ∧
    v.partRead a.part (a.par 24 8) (a.par 20 4 * descBytes) = List.replicate 128 0 :=
  ⟨cmd 0x0401 (field 20 4 1), mapped.partWrite 0 0 (markBody ++ leBytes 4 0x584AF372), _, _,
    ready _ _ _ _ (by decide) (by decide +kernel), by decide, by decide +kernel, by decide +kernel, by decide +kernel,
    by decide +kernel, by decide +kernel, by decide +kernel, ready _ _ _ _ (by decide) (by decide), by decide +kernel⟩

theorem firstBad_one (b : List Byte) (h : descOk b = true) (k : placeOk [parseDesc b] 0 = true) : firstBad [b] = none := by
  simp [firstBad, List.range_succ, h, k]

theorem firstBad_zero (b : List Byte) (h : descOk b = false) : firstBad [b] = some 0 := by
  simp [firstBad, List.range_succ, h]

theorem witness_ProgramCommands_bad : firstBad [List.replicate 128 0] = some 0 := by
  apply firstBad_zero
  have h : (le (List.replicate 128 0) 0 1 == 1) = false := by decide
  unfold descOk
  simp only [h, Bool.false_and]

/-- DIGEST_MARK at address 0 is a good list of one descriptor (R86, R107). -/
theorem witness_ProgramCommands_good : firstBad [markBody ++ leBytes 4 0x584AF372] = none := by
  apply firstBad_one
  · have h : slice (markBody ++ leBytes 4 0x584AF372) 0 124 = markBody := by decide +kernel
    unfold descOk
    rw [h, crc_mark]
    decide +kernel
  · decide +kernel

theorem witness_ProgramCommands_run : ∃ (a : Acc) (s r u v : State) (o p : OpList), (got s a).Ready 1 a.id 0x0402 a u ∧
    u.list a.part (a.par 16 1) = some o ∧ o.descs.any (·.needsRows) = false ∧
    (got r a).Ready 1 a.id 0x0402 a v ∧ v.list a.part (a.par 16 1) = some p ∧ p.descs.any (·.needsRows) = true :=
  ⟨cmd 0x0402 [], listed up [desc 0x10 []], listed up [desc 8 []], _, _, ⟨[desc 0x10 []], 0, 0⟩, ⟨[desc 8 []], 0, 0⟩,
    ready _ _ _ _ (by decide) (by decide), by decide, by decide, ready _ _ _ _ (by decide) (by decide), by decide, by decide⟩

theorem witness_ProgramCommands_digest : ∃ (a b : Acc) (u v : State), (got up a).Taken 1 a.id 0x0410 a u ∧ a.par 16 1 = 1 ∧
    (got up b).Taken 1 b.id 0x0410 b v ∧ b.par 16 1 = 0 :=
  ⟨cmd 0x0410 (field 16 1 1), cmd 0x0410 [], _, _, taken _ _ _ _ (by decide), by decide, taken _ _ _ _ (by decide), by decide⟩

/-- A request of OPLIST_RUN waits. -/
def asked (s : State) : State := s.modEng fun e => { e with waiting := [⟨cmd 0x0402 [], 0, 1⟩] }

/-- Slot 0 has a step that feeds one token. -/
def stepping : State := (listed opened [desc 8 []]).modSlot 0 fun x => { x with
  st := .stepping, steps := [⟨cmd 0x0310 (field 16 4 1), [5], 0, 0, false⟩] }

theorem witness_RunsEnterTheArrays_list :
    let s := asked (listed up [desc 0x10 []])
    s.canRun = true ∧ s.eng.run = none ∧ s.pwr.goal = none ∧ s.waitingSteps = [] ∧ s.runComing 7 = false ∧
      s.freeComing 0 7 = false ∧ [desc 0x10 []] ≠ [] ∧
      tooLong ⟨[desc 0x10 []], 0, 0⟩ (((s.atTime 1).settleGroups 0 ⟨[desc 0x10 []], 0, 0⟩).snapshots 0 ⟨[desc 0x10 []], 0, 0⟩) = none ∧
      s.list 0 0 = some ⟨[desc 0x10 []], 0, 0⟩ ∧ 0 < (⟨[desc 0x10 []], 0, 0⟩ : OpList).targetLen := by decide

/-- An exact MATMUL of 2^28 columns in group 1, whose two members make it longer than R93 allows. -/
def longOp : OpList := ⟨[desc kMatmul (field 3 1 1 ++ field 16 4 (2 ^ 28) ++ field 20 2 1)], 0, 0⟩

/-- Group 1 of this device, device 3, and device 4. -/
def inPair (s : State) : State :=
  let s := s.partWrite 0 16 ([2, 0, 1, 0, 0, 0, 0, 0, 64, 0, 0, 0, 0, 0, 0, 0].map byteOf)
  let s := s.partWrite 0 64 ([3, 0, 0, 0, 0, 0, 0, 0, 4, 0, 0, 0, 0, 0, 0, 0].map byteOf)
  { s with fab := { s.fab with devId := some 3 } }

theorem witness_RunsEnterTheArrays_long :
    let s := inPair (asked (listed mapped longOp.descs))
    s.canRun = true ∧ s.eng.run = none ∧ s.pwr.goal = none ∧ s.waitingSteps = [] ∧ s.runComing 7 = false ∧
      s.freeComing 0 7 = false ∧ s.list 0 0 = some longOp ∧ longOp.descs ≠ [] ∧ 0 < longOp.targetLen ∧
      tooLong longOp (((s.atTime 1).settleGroups 0 longOp).snapshots 0 longOp) = some 0 := by decide +kernel

theorem witness_RunsEnterTheArrays_steps :
    let s := stepping
    let g := (s.atTime 1).gather ((s.atTime 1).waitingSteps.filter fun x => (s.slot x.1).owner == some 0 &&
      (s.slot x.1).list == (s.slot 0).list) [] []
    s.canRun = true ∧ s.eng.run = none ∧ s.pwr.goal = none ∧ s.eng.waiting = [] ∧
      s.waitingSteps = [(0, ⟨cmd 0x0310 (field 16 4 1), [5], 0, 0, false⟩)] ∧ s.runComing 7 = false ∧ s.freeComing 0 7 = false ∧
      tooLong ⟨[desc 8 []], 0, 0⟩ ((g.1.settleGroups 0 ⟨[desc 8 []], 0, 0⟩).snapshots 0 ⟨[desc 8 []], 0, 0⟩) = none ∧
      g.2.1.length = 1 ∧ g.1.list 0 (s.slot 0).list = some ⟨[desc 8 []], 0, 0⟩ := by decide

/-- A descriptor of one row and one column with its destination at 16 KiB. -/
def dOne (k : Nat) (bs : List (Nat × Nat)) : Desc :=
  desc k (bs ++ field 8 4 1 ++ field 12 4 1 ++ field 16 4 1 ++ field 64 8 16384)

/-- One row of slot 0. -/
def row : List RowEnt := [⟨0, 0, 0⟩]

/-- A group of two devices, of which this one, device 3, has rank 0. -/
def pair : GroupSnap := ⟨1, 0, [(3, 0, 0), (4, 0, 0)], 1⟩

/-- A run whose first operation is in turn and belongs to that group. -/
def grouped (k : Nat) (bs : List (Nat × Nat)) : State :=
  let s := running [dOne k (field 20 2 1 ++ bs)] [] [pair]
  { s with fab := { s.fab with devId := some 3, routes := tset 0 [] 4 0x80 } }

/-- A state whose far caches are switched off. -/
def noFar (s : State) : State := (s.modHbm .west fun x => { x with ctrl := 3 }).modHbm .east fun x => { x with ctrl := 3 }

theorem witness_OperationsStart_rows :
    starts (running [dOne kNorm []] [] []) kNorm (fun u r d => u.normRes r.part d r.rows) = true ∧
    starts (noFar ((running [dOne kAct []] [] []).partWrite 0 0 [1])) kAct (fun u r d => u.actRes r.part d r.rows) = true ∧
    starts (running [dOne kRope (field 100 4 1)] row []) kRope (fun u r d => u.ropeRes r.part d r.rows) = true ∧
    starts (running [dOne kGather (field 88 4 1)] [] []) kGather (fun u r d => u.gatherRes r.part d r.rows) = true ∧
    starts (running [dOne kCopy []] [] []) kCopy (fun u r d => u.copyRes r.part d r.rows) = true ∧
    starts (running [dOne kSample []] row []) kSample (fun u r d => (u.tokenRes r.part d r.rows).1) = true ∧
    starts (running [dOne kDraft []] row []) kDraft (fun u r d => (u.tokenRes r.part d r.rows).1) = true := by
  decide +kernel

theorem witness_OperationsStart_arrays :
    starts { running [dOne kAttend (field 4 2 0x7027 ++ field 88 4 1 ++ field 92 4 1 ++ field 96 4 64)] row [] with
      slots := opened.slots } kAttend (fun u r d => u.attendRes r.part d r.rows r.dead) = true ∧
    starts (running [dOne kMatmul []] [] []) kMatmul (fun u r d => u.matmulRes r.part d r.rows none []) = true ∧
    starts (running [dOne kExactReduce []] [] []) kExactReduce (fun u r d => u.exactReduceRes r.part d r.rows none []) =
      true ∧
    starts (running [dOne kScatter (field 88 4 1)] [] []) kScatter (fun u r d => u.scatterRes r.part d r.rows [0] r.dead) =
      true := by decide +kernel

theorem witness_OperationsStart_refused :
    let s := (running [dOne kCopy (field 24 8 (2 ^ 30))] [] []).atTime 1
    let d := dOne kCopy (field 24 8 (2 ^ 30))
    (s.turn kCopy).isSome = true ∧ (s.strike []).fetchDesc (newRun 0 0 1 none [] [] []) = (s, true) ∧
      (match s.opGroup (newRun 0 0 1 none [] [] []) d with
      | .ok none => true
      | _ => false) = true ∧ s.rangeRefusal 0 d 1 = some stNotPermitted := by decide +kernel

theorem witness_OperationsStart_values :
    (match ((noFar (running [dOne kAct []] [] [])).atTime 1).enter kAct [] with
      | .ok (u, r, _, d, g) => g.isNone && (match u.actRes r.part d r.rows with
        | .refuse _ => true
        | _ => false)
      | _ => false) = true := by decide +kernel

/-- In single-half operation, with the one copy of the list lost. -/
theorem witness_OperationsStart_lost : ∃ s : State, (s.turn kCopy).isSome = true ∧
    ((s.strike []).fetchDesc (newRun 0 0 1 none [] [] [])).2 = false := by
  let s : State := (running [dOne kCopy []] [] []).modArr .east fun a => { a with half := .lost }
  let lost : State := { s with
    start := { s.start with singleHalf := true }, mem := { s.mem with poison := [(listCopy .west 0, true)] } }
  refine ⟨lost, by decide, ?_⟩
  have e : lost.mem.poison = [(listCopy .west 0, true)] := rfl
  have f : lost.mem.fpoison = [] := rfl
  have b : ((List.range 16).any fun i => lost.lostWord (listCopy .west 0 + 16 * 0 + i)) = true := by
    rw [List.any_eq_true]
    exact ⟨0, by decide, by simp [State.lostWord, poisoned, e, tget, framePoison, f]⟩
  have strike (s : State) : s.strike [] = s := rfl
  have clean := State.settle_clean (u := lost) rfl
  have halves : lost.runHalves = [.west] := by decide
  have some_ : lost.mem.poison.isEmpty = false := rfl
  have key : listKey (newRun 0 0 1 none [] [] []).part (newRun 0 0 1 none [] [] []).list = 0 := by decide
  have pc : (newRun 0 0 1 none [] [] []).pc = 0 := rfl
  have alone : [Half.west].contains (other .west) = false := by decide
  simp only [strike, State.fetchDesc, clean, halves, some_, key, pc, List.filter, b, alone, Bool.and_false, Bool.false_and,
    Bool.not_false, Bool.true_or, if_true, Bool.false_eq_true, if_false]

/-- The first word of partition 0's memory poisoned, and a copy of it in turn. -/
def spoiled : State := { (running [dOne kCopy []] [] []).atTime 1 with mem := { mapped.mem with poison := [(0, true)] } }

theorem witness_OperationsStart_copies :
    (spoiled.strike []).fetchDesc (newRun 0 0 1 none [] [] []) = (spoiled, true) := by
  have e : spoiled.mem.poison = [(0, true)] := rfl
  have f : spoiled.mem.fpoison = [] := rfl
  have g : spoiled.mem.badLoc = [] := rfl
  have one (h : Half) (i : Nat) : spoiled.lostWord (listCopy h 0 + 16 * 0 + i) = false := by
    have big : 8 ≤ firmwareBase * 2 ^ 21 := by decide
    have n : 0 < listCopy h 0 := Nat.add_pos_left (Nat.div_pos (Nat.le_trans big (Nat.le_add_left _ _)) (by decide)) _
    have m : listCopy h 0 + 16 * 0 + i ≠ 0 := by omega
    generalize listCopy h 0 + 16 * 0 + i = w at m
    simp [State.lostWord, poisoned, e, f, g, tget, framePoison, m]
  have none_ (h : Half) : ((List.range 16).any fun i => spoiled.lostWord (listCopy h 0 + 16 * 0 + i)) = false := by
    rw [List.any_eq_false]
    intro i _
    rw [one]
    decide
  have strike (s : State) : s.strike [] = s := rfl
  have clean := State.settle_clean (u := spoiled) rfl
  have halves : spoiled.runHalves = [.west, .east] := by decide
  have some_ : spoiled.mem.poison.isEmpty = false := rfl
  have key : listKey (newRun 0 0 1 none [] [] []).part (newRun 0 0 1 none [] [] []).list = 0 := by decide
  have pc : (newRun 0 0 1 none [] [] []).pc = 0 := rfl
  simp only [strike, State.fetchDesc, clean, halves, some_, key, pc, List.filter, none_, Bool.and_false, Bool.false_and,
    Bool.false_eq_true, if_false]

theorem witness_OperationsStart_poisoned :
    let s := spoiled
    let d := dOne kCopy []
    (s.turn kCopy).isSome = true ∧ s.rangeRefusal 0 d 1 = none ∧ s.outsideScratch (newRun 0 0 1 none [] [] []) d = false ∧
      ((s.strike []).fetch (newRun 0 0 1 none [] [] []) d).readsPoison 0 d 1 = true := by decide +kernel

theorem witness_GroupOperations_messages :
    (match ((grouped kXsend (field 88 4 1)).atTime 1).enter kXsend [] with
      | .ok x => x.2.2.2.2 == some pair
      | _ => false) = true ∧
    (match ((grouped kXrecv (field 88 4 1)).atTime 1).enter kXrecv [] with
      | .ok x => x.2.2.2.2 == some pair && x.1.claim 0 pair 1 1 0 0 1 == .wait
      | _ => false) = true := by decide +kernel

theorem witness_GroupOperations_received :
    let m : FMsg := {
      type := 1, hops := 1, dstDev := 3, srcDev := 4, dstPart := 0, srcPart := 0, dstGen := 0, srcGen := 0,
      group := 1, epoch := 1, srcRank := 1, tag := 0, seq := 0, offset := 0, payload := [5], bad := [] }
    let s := grouped kXrecv (field 88 4 1)
    (match (({ s with fab := { s.fab with pool := [m] } } : State).atTime 1).enter kXrecv [] with
      | .ok x => x.1.claim 0 pair 1 1 0 0 1 == .got [5] []
      | _ => false) = true := by decide +kernel

theorem witness_GroupOperations_reductions :
    starts (grouped kXreduce (field 4 2 0x7007)) kXreduce (fun u r d =>
      let x := u.sendWide r pair 3 0 (u.partRead r.part d.a (d.rowsOf r.rows * rowBytes d.fmtA d.n))
      match x.1.collect x.2.part pair 3 (d.rowsOf r.rows * rowBytes d.fmtA d.n) [⟨1, [0, 0, 0, 0]⟩] with
      | some cs => u.xreduceRes r.part d r.rows pair cs []
      | none => .wait) = true ∧
    starts (grouped kMatmul []) kMatmul (fun u r d =>
      let x := u.sendWide r pair 2 0 (maximaBytes (u.ownMaxima r.part d (d.rowsOf r.rows)))
      match x.1.collect x.2.part pair 2 (2 * (d.rowsOf r.rows + d.n)) [⟨1, [0, 0, 0, 0]⟩] with
      | some cs => u.matmulRes r.part d r.rows (some pair) cs
      | none => .wait) = true ∧
    starts (grouped kExactReduce []) kExactReduce (fun u r d =>
      let x := u.sendWide r pair 4 0 (u.partRead r.part d.a (d.rowsOf r.rows * d.n * 32))
      match x.1.collect x.2.part pair 4 (d.rowsOf r.rows * d.n * 32) [⟨1, List.replicate 32 0⟩] with
      | some cs => u.exactReduceRes r.part d r.rows (some pair) cs
      | none => .wait) = true := by decide +kernel

/-- Whether an operation of a kind is in turn and passes its checks, its descriptor as given. -/
def enters (s : State) (kind : Nat) (d : Desc) : Bool := match (s.atTime 1).enter kind [] with
  | .ok (_, _, _, e, none) => d == e
  | _ => false

theorem witness_ControlOperations :
    enters (running [dOne kMark []] [] []) kMark (dOne kMark []) = true ∧
    (((running [dOne kLoop (field 92 4 1), dOne kMark []] [] []).atTime 1).turn kLoop).isSome = true ∧
    (((running [dOne kLoop (field 92 4 1), dOne kMark []] [] []).atTime 1).fetchDesc (newRun 0 0 1 none [] [] [])).2 = true ∧
    enters (running [dOne kFence []] [] []) kFence (dOne kFence []) = true ∧ (dOne kFence []).mode = 0 ∧
    enters (running [dOne kFence (field 2 1 1 ++ field 88 4 1)] [] []) kFence (dOne kFence (field 2 1 1 ++ field 88 4 1)) =
      true ∧ (dOne kFence (field 2 1 1 ++ field 88 4 1)).mode = 1 := by decide +kernel

theorem witness_ControlOperations_values :
    let s := running [dOne kFence (field 2 1 1 ++ field 88 4 1)] [] []
    ofLe (s.partRead 0 0 4) < 1 ∧ 1 ≤ ofLe ((s.partWrite 0 0 [1]).partRead 0 0 4) := by decide +kernel

/-- A run that waits at a FENCE for the semaphore at address 0 to reach 1, for at most 5 us. -/
def fenced : State :=
  (running [dOne kFence (field 2 1 1 ++ field 88 4 1)] [] []).setRun
    (some { newRun 0 0 1 none [] [] [] with fence := some ⟨1, 0, 1, 0, 0, 5⟩ })

theorem witness_ControlOperations_waits :
    (fenced.atTime 1).atFence.isSome = true ∧ fenced.canRun = true ∧ fenced.mem.upset = [] ∧
    (fenced.partWrite 0 0 [1]).partPoison 0 0 4 = [] ∧ 1 ≤ ofLe ((fenced.partWrite 0 0 [1]).partRead 0 0 4) ∧
    ofLe (fenced.partRead 0 0 4) < 1 ∧ 0 + 1000 * 5 < max fenced.now 5001 := by decide +kernel

theorem witness_VerifyAndDrafter :
    (match ((running [dOne kVerify []] row []).atTime 1).enter kVerify [] with
      | .ok (_, r, _, d, _) => d.rowsOf r.rows == r.rows.length
      | _ => false) = true ∧
    (let l : List Desc := [dOne kVerify [], dOne kDraft (field 3 1 32)]
     (((running l row []).atTime 1).turn kVerify).isSome = true ∧ (⟨l, 0, 0⟩ : OpList).targetLen < l.length) := by
  decide +kernel

theorem witness_VerifyAndDrafter_pass :
    let r : Run := { newRun 0 0 1 none [] [] [] with draft := some ⟨0, false, [], [0], 0, false⟩ }
    let s := (running [dOne kVerify []] row []).setRun (some r)
    s.canRun = true ∧ s.eng.run = some r ∧ (s.list r.part r.list).isSome = true ∧ r.cur = none ∧
      ((s.atTime 1).passOf 0 [0] [] []).1 = [0] := by decide +kernel

/-- A run with two tiles in flight. -/
def tiled : State := (running [dOne kCopy []] [] []).setRun (some { newRun 0 0 1 none [] [] [] with
  cur := some {
    desc := dOne kCopy [], tiles := [⟨0, [1], [(.part 16384, [1])], none⟩, ⟨1, [2], [(.part 16385, [2])], none⟩],
    digest := 0, waves := noWaves, inexact := false, retried := [], slots := [], poison := [], faulted := false,
    pausedFor := none, order := [] } })

theorem witness_TilesAndBoundaries : tiled.runHalves.all tiled.halfUp = true ∧
    (match tiled.eng.run with
      | some r => (tiled.list r.part r.list).isSome && (match r.cur with
        | some o => o.tiles.length == 2 && (o.tiles.all fun x => x.slot == none) && o.desc.kind != kScatter &&
            !o.retried.contains (0, none)
        | none => false)
      | none => false) = true := by decide +kernel

theorem witness_TilesAndBoundaries_again :
    (match tiled.eng.run.bind (·.cur) with
      | some o => ({ o with retried := [(0, none)] } : OpFlight).retried.contains (0, none) && ({ o with tiles := [] } : OpFlight).tiles.isEmpty
      | none => false) = true := by decide

theorem witness_SlabChecks :
    let s := tiled.modArr .west fun a => { a with checks := [(3, 4, 0)] }
    (∃ r, s.eng.run = some r ∧ ∃ o, r.cur = some o ∧ 1 < o.tiles.length) ∧ (s.arr.get .west).bound.contains 3 = true ∧
    (∀ c ∈ (s.arr.get .west).checks, c.1 = 3 → c.2.1 = 4 → c.2.2 + 10 ^ 10 < max s.now (10 ^ 10 + 1)) ∧
    (∃ c ∈ (s.arr.get .west).checks, c.1 = 3 ∧ c.2.1 = 4 ∧ max s.now (10 ^ 10) ≤ c.2.2 + 10 ^ 10) :=
  ⟨⟨_, rfl, _, rfl, by decide⟩, by decide, by decide, by decide⟩

theorem witness_SentinelsAndRate :
    let s := up.modArr .west fun a => { a with remapEn := true, slowSince := tset none [] 31 (some 0) }
    (s.arr.get .west).remapEn = true ∧ tget none (s.arr.get .west).slowSince 31 = some 0 ∧
    0 + 3600 * 10 ^ 9 ≤ max s.now (3600 * 10 ^ 9) ∧ (s.arr.get .west).col 31 = .good ∧
    33 ≤ ((s.arr.get .west).inState .good).length ∧ (s.arr.get .west).half = .inService ∧ s.eng.run = none ∧
    ((up.modArr .west fun a => { a with remapEn := false }).arr.get .west).remapEn = false := by decide

/-- A state whose link `k` is up. -/
def linked (k : Nat) : State := up.modLink k fun x => { x with st := 1, gen := 1 }

theorem witness_BundlesModulesAndTime_time : ((linked 8).link 8).st = 1 ∧ ((linked 9).link 9).st = 1 ∧
    ((linked 12).link 12).st = 1 ∧ ((linked 13).link 13).st = 1 ∧
    (let s := (up.modLink 8 fun x => { x with st := 0 }).modLink 9 fun x => { x with st := 0 }
     (s.link 8).st ≠ 1 ∧ (s.link 9).st ≠ 1) ∧
    (let s := (up.modLink 12 fun x => { x with st := 0 }).modLink 13 fun x => { x with st := 0 }
     (s.link 12).st ≠ 1 ∧ (s.link 13).st ≠ 1) ∧
    (∀ h ∈ [Half.west, .east], (up.arr.get h).unsync = false ∧
      ((up.modArr h fun a => { a with unsync := true }).arr.get h).unsync = true) := by decide

theorem witness_BundlesModulesAndTime_sleep :
    let s := (linked 8).modPwr fun x => { x with st := 2 }
    let q := s.modLink 8 fun x => { x with queue := [⟨1, 0, [], false, none⟩] }
    2 ≤ s.pwr.st ∧ s.sleepDepth 8 = some false ∧ (s.link 8).st = 1 ∧ (s.bundle 8).txAsleep = false ∧ (s.link 8).queue = [] ∧
    (s.link 8).unacked = [] ∧ (∀ vc < 4, tget 0 (s.link 8).freed vc = tget 0 (s.link 8).reported vc) ∧
    (s.bundle 8).idleSince + (s.bundle 8).idleTime ≤ max s.now ((s.bundle 8).idleSince + (s.bundle 8).idleTime) ∧
    (q.link 8).queue ≠ [] ∧ ((s.modBundle 8 fun x => { x with txAsleep := true }).bundle 8).txAsleep = true := by decide

theorem witness_BundlesModulesAndTime_modules :
    (up.lan 0).fenced = false ∧ twf Lantern.init up.lans = true ∧ (up.lan 0).modules.contains 4 = true ∧
    3 < ((up.lan 0).modules.filter (· ≠ 4)).length ∧
    (let s := up.modLan 0 fun x => { x with modules := [0, 1, 2, 3] }
     (s.lan 0).fenced = false ∧ twf Lantern.init s.lans = true ∧ (s.lan 0).modules.contains 3 = true ∧
     ((s.lan 0).modules.filter (· ≠ 3)).length ≤ 3 ∧ (s.lan 0).modules.contains 4 = false) := by decide

theorem witness_ScrubAndRetire :
    ((up.modHbm .west fun y => { y with selfRefresh := true }).hbm.get .west).selfRefresh = true ∧
    (up.hbm.get .west).selfRefresh = false ∧ (up.hbm.get .west).ctrl % 16 ≠ 0 ∧
    ((up.modHbm .west fun y => { y with ctrl := 0x100 }).hbm.get .west).ctrl % 16 = 0 ∧
    ((up.modHbm .west fun y => { y with retirePending := [5] }).hbm.get .west).retirePending = [5] ∧
    (up.hbm.get .west).freeFrame ≠ none ∧ (up.hbm.get .west).useOf 3 = .free ∧ (up.hbm.get .west).retirePending = [] := by
  decide

theorem lowestGap_full (limit : Nat) : ∀ n a k, a ≤ k → limit ≤ a + n → lowestGap limit (List.range' a n) k = none
  | 0, a, k, h, l => by simp [lowestGap]; omega
  | n + 1, a, k, h, l => by
    rw [List.range'_succ, lowestGap]
    split
    · exact lowestGap_full limit n (a + 1) k (by omega) (by omega)
    · rw [if_pos (by omega)]
      exact lowestGap_full limit n (a + 1) (k + 1) (by omega) (by omega)

/-- The west half without a free frame or spare, its four reserve slots taken, and a retirement pending. -/
def fullWest : State := up.modHbm .west fun y => { y with
  use := (List.range' 0 (spareBase + spareFrames)).map fun i => (i, .fence), retirePending := [5],
  fencedPcs := (List.range 4).map fun k => (k, .slot k) }

theorem fullWest_use : (fullWest.hbm.get .west).use.map (·.1) = List.range' 0 (spareBase + spareFrames) := by
  change ((List.range' 0 (spareBase + spareFrames)).map fun i => (i, FrameUse.fence)).map (·.1) = _
  rw [List.map_map]; exact List.map_id _

theorem witness_ScrubAndRetire_full : (fullWest.hbm.get .west).retirePending = [5] ∧
    (fullWest.hbm.get .west).freeSpare = none ∧ (fullWest.hbm.get .west).freeFrame = none := by
  refine ⟨rfl, ?_, ?_⟩
  · unfold Hbm.freeSpare
    rw [fullWest_use]
    exact lowestGap_full _ _ _ _ (by decide) (by decide)
  · unfold Hbm.freeFrame
    rw [fullWest_use]
    exact lowestGap_full _ _ _ _ (by decide) (by decide)

theorem usedCount_keys (x : Hbm) : x.usedCount = ((x.use.map (·.1)).filter fun k => decide (k < poolFrames)).length := by
  rw [List.filter_map, List.length_map]; rfl

theorem range_below (n m : Nat) (h : n ≤ m) : n ≤ ((List.range' 0 m).filter fun k => decide (k < n)).length := by
  obtain ⟨d, rfl⟩ := Nat.exists_eq_add_of_le h
  rw [← List.range'_append_1, List.filter_append, List.length_append, List.filter_eq_self.2, List.length_range']
  · exact Nat.le_add_right _ _
  · intro x hx
    simp at hx
    exact decide_eq_true hx

theorem noFrames (s : State) (h : Half) (k : poolFrames ≤ (s.hbm.get h).usedCount) : s.takeFenceFrames h = none := by
  have m : (s.hbm.get h).freeCount < 512 := by
    unfold Hbm.freeCount
    rw [Nat.sub_eq_zero_of_le k]
    decide
  unfold State.takeFenceFrames
  simp only [m, if_true]

theorem witness_ChannelFences_full : ((fullWest.hbm.get .west).fences.any (·.1 == 7)) = false ∧
    (fullWest.hbm.get .west).slotsFree = [] ∧ fullWest.takeFenceFrames .west = none ∧
    (fullWest.hbm.get .west).fencePending.contains 7 = false := by
  refine ⟨by decide, by decide, ?_, by decide⟩
  apply noFrames
  rw [usedCount_keys, fullWest_use]
  exact range_below _ _ (by decide)

theorem witness_ChannelFences :
    let s := up.modHbm .west fun y => { y with relocating := [(7, .slot 0)] }
    let p := up.modHbm .west fun y => { y with fencePending := [9] }
    let n := up.modHbm .west fun y => { y with fencedPcs := (List.range 4).map fun k => (k, .slot k) }
    ((up.hbm.get .west).fences.any (·.1 == 7)) = false ∧ ((s.hbm.get .west).fences.any (·.1 == 7)) = true ∧
    (up.hbm.get .west).slotsFree = [0, 1, 2, 3] ∧ (up.hbm.get .west).relocating = [] ∧
    ((n.hbm.get .west).fences.any (·.1 == 7)) = false ∧ (n.hbm.get .west).slotsFree = [] ∧
    (n.takeFenceFrames .west).isSome = true ∧ (s.hbm.get .west).relocating = [(7, .slot 0)] ∧
    (s.hbm.get .west).fencePending = [] ∧ s.mem.upset = [] ∧ (p.hbm.get .west).fencePending = [9] := by decide

theorem witness_LanesAreWatched :
    let s := up.modBundle 8 fun x => (({ x with st := 1 } : Bundle).modLane 0 fun y => { y with low := 100 })
    let n := up.modBundle 8 fun x => (({ x with st := 1 } : Bundle).modLane 1 fun y => { y with role := .spare })
    (n.bundle 8).st = 1 ∧ (n.bundle 8).rxAsleep = false ∧ 40 ≤ Eye.fom ⟨BitVec.allOnes 64, BitVec.allOnes 64⟩ ∧
    twf Bundle.init n.bundles = true ∧ twf Lane.init (n.bundle 8).lanes = true ∧ (up.bundle 8).st ≠ 1 ∧
    100 ≤ ((s.bundle 8).lane 0).low ∧ ((s.bundle 8).lane 1).low < 100 ∧ LaneCause.lostAlignment ≠ LaneCause.lowFom ∧
    ((n.bundle 8).lane 1).role = .spare ∧
    byFom (([⟨BitVec.allOnes 64, 1⟩, ⟨1, 1⟩] : List Eye).take 16 |>.map Eye.fom) ≠ [] ∧
    (let r := LaneRx.run ((n.bundle 8).lane 0).line (List.replicate 65 ⟨3, 0⟩)
     ((n.bundle 8).lane 0).window = max n.now 1 / 10 ^ 6 ∧ ((n.bundle 8).lane 0).window ≠ max n.now (10 ^ 6) / 10 ^ 6 ∧
     64 < r.invalid) := by decide +kernel

theorem witness_LanesAreWatched_low (i : Nat) : ((up.bundle 8).lane i).low < 100 := by
  change (tget Lane.init [] i).low < 100
  exact (by decide : Lane.init.low < 100)

theorem witness_LanesAreWatched_commands : ∃ (a b c : Acc) (s r u v w : State),
    (got s a).Ready 1 a.id 0x0A10 a u ∧ a.par 18 1 = 0 ∧ (got s b).Ready 1 b.id 0x0A10 b v ∧ b.par 18 1 = 1 ∧
    twf Bundle.init v.bundles = true ∧ twf Lane.init (v.bundle (b.par 16 1)).lanes = true ∧ (got r c).Taken 1 c.id 0x0A20 c w ∧ ((w.bundle (c.par 16 1)).lane (c.par 17 1)).role = .service ∧
    (w.bundle (c.par 16 1)).fomOf (c.par 17 1) < 256 ∧ ((w.bundle (c.par 16 1)).lane (c.par 17 1)).ctle < 16 ∧
    (w.bundle (c.par 16 1)).speed < 16 :=
  ⟨cmd 0x0A10 [], cmd 0x0A10 (field 18 1 1 ++ field 19 1 65), cmd 0x0A20 [],
    up.modBundle 0 fun x => x.modLane 0 fun y => { y with role := .spare },
    up.modBundle 0 fun x => x.modLane 0 fun y => { y with role := .service }, _, _, _,
    ready _ _ _ _ (by decide) (by decide), by decide, ready _ _ _ _ (by decide) (by decide), by decide, by decide, by decide,
    taken _ _ _ _ (by decide), by decide, by decide, by decide, by decide⟩

/-- A flit of one message. -/
def flit (seq : Nat) : Flit := ⟨seq, 3, true, true, [1], 1⟩

/-- A link that is up and ready to send: one management flit waits, one credit is there. -/
def sending : State := (linked 8).modLink 8 fun x => { x with
  queue := [⟨1, 3, [flit 0], false, none⟩], credits := tset 0 [] 3 1 }

theorem witness_FlitsAreSent :
    (sending.linkEvent 1 (.bundle 8)).carries 8 = true ∧ (up.linkEvent 1 (.bundle 8)).carries 8 = false ∧
    (let x := (((linked 8).modLink 8 fun x => { x with unacked := [flit 0], replayAt := some 0 }).linkEvent 1 (.bundle 8)).link 8
     x.replayAt = some 0 ∧ x.unacked[0]? = some (flit 0)) ∧
    (let x := (sending.linkEvent 1 (.bundle 8)).link 8
     x.replayAt = none ∧ x.unacked.length < 1536 ∧ x.queue = [⟨1, 3, [flit 0], false, none⟩] ∧ 0 < tget 0 x.credits 3) ∧
    (let u := sending.linkEvent 1 (.bundle 8)
     let v := (sending.modArr .west fun a => { a with preparing := true }).linkEvent 1 (.bundle 8)
     (u.link 8).waitsReset u 8 = false ∧ (v.link 8).waitsReset v 8 = true) := by
  decide

theorem witness_FlitsAreSent_full : ((linked 8).link 8).replayAt = none ∧ ((linked 8).link 8).credits = [] ∧
    1536 ≤ (List.replicate 1536 (flit 0)).length :=
  ⟨by decide, by decide, Nat.le_of_eq List.length_replicate.symm⟩

theorem witness_FlitsAreReceived_bad : (up.link 8).st ≠ 1 ∧ ((linked 8).link 8).st = 1 ∧
    ¬ (crc32c (slice (imageBody ++ leBytes 4 0) 0 252)).toNat = le (imageBody ++ leBytes 4 0) 252 4 ∧
    (crc32c (slice (imageBody ++ leBytes 4 0xA8EDF593) 0 252)).toNat = le (imageBody ++ leBytes 4 0xA8EDF593) 252 4 ∧
    flitFieldsOk (imageBody ++ leBytes 4 0xA8EDF593) = false := by
  have h : slice (imageBody ++ leBytes 4 0) 0 252 = imageBody := by decide +kernel
  have k : slice (imageBody ++ leBytes 4 0xA8EDF593) 0 252 = imageBody := by decide +kernel
  rw [h, k, crc_image]
  decide +kernel

theorem witness_FlitsAreReceived_good :
    let b := flitBody ++ leBytes 4 0x13290788
    (crc32c (slice b 0 252)).toNat = le b 252 4 ∧ flitFieldsOk b = true ∧ le b 6 2 = ((linked 8).link 8).gen ∧
    le b 1 2 = 0 ∧ bitsOf (le b 0 1) 5 4 = 0 := by
  have h : slice (flitBody ++ leBytes 4 0x13290788) 0 252 = flitBody := by decide +kernel
  dsimp only
  rw [h, crc_flit]
  decide +kernel

theorem witness_FlitsAreReceived_order :
    (((linked 8).modLink 8 fun x => { x with gen := 2 }).link 8).gen ≠ 1 ∧
    (0 + 4096 - ((linked 8).link 8).nextRx) % 4096 = 0 ∧ ((linked 8).link 8).inUse 0 < buffersOf 8 0 ∧
    buffersOf 8 0 ≤ (((linked 8).modLink 8 fun x => { x with taken := tset 0 [] 0 256 }).link 8).inUse 0 ∧
    2048 ≤ (0 + 4096 - (((linked 8).modLink 8 fun x => { x with nextRx := 2048 }).link 8).nextRx) % 4096 ∧
    (let d := (0 + 4096 - (((linked 8).modLink 8 fun x => { x with nextRx := 2049 }).link 8).nextRx) % 4096
     0 < d ∧ d < 2048) ∧
    bitOf (le [0, 0, 0, 1, (3 : Byte)] 4 1) 0 = true ∧ bitOf (le [0, 0, 0, 1, (3 : Byte)] 4 1) 1 = true ∧
    bitOf (le [0, 0, 0, 1, (1 : Byte)] 4 1) 1 = false := by decide

/-- A link with two unacknowledged flits, numbered 4095 and 0. -/
def waiting : State := (linked 8).modLink 8 fun x => { x with unacked := [flit 4095, flit 0], nextTx := 1 }

theorem witness_AcksNaksAndCredits_acks :
    let x := (waiting.linkEvent 1 (.bundle 8)).link 8
    ((0 : BitVec 12).toNat + 4097 - x.oldest) % 4096 ≤ x.unacked.length ∧
    (x.unacked.length < ((1 : BitVec 12).toNat + 4097 - x.oldest) % 4096 ∧
      ((1 : BitVec 12).toNat + 4096 - x.nextTx) % 4096 < 2048) ∧
    (x.unacked.length < ((4093 : BitVec 12).toNat + 4097 - x.oldest) % 4096 ∧
      2048 ≤ ((4093 : BitVec 12).toNat + 4096 - x.nextTx) % 4096) ∧
    (1 < x.unacked.length) ∧ (∀ h ∈ [Half.west, .east], (waiting.arr.get h).preparing = false) := by decide

theorem witness_AcksNaksAndCredits_naks :
    let u := waiting.linkEvent 1 (.bundle 8)
    let n (seq : BitVec 12) := (seq.toNat + 4096 - (u.link 8).oldest) % 4096
    let v (w : State) (i : BitVec 12) := (w.modLink 8 fun x => x.acked (n i)).settleOrderly.link 8
    n 0 ≤ (u.link 8).unacked.length ∧ (v u 0).st = 1 ∧ (v (u.modLink 8 fun x => { x with st := 2 }) 0).st ≠ 1 ∧
    (((u.modLink 8 fun x => { x with st := 2 }).report (srcLink 8) .contained 9 0).link 8).st ≠ 1 ∧ (v u 0).unacked ≠ [] ∧
    (v u 0).replayAt ≠ some 0 ∧ n 1 ≤ (u.link 8).unacked.length ∧ (v u 1).unacked = [] ∧
    (u.link 8).unacked.length < n 2 ∧
    0 < (((linked 8).modLink 8 fun x => { x with toAck := 1 }).linkEvent 1 (.bundle 8) |>.link 8).toAck := by decide

theorem witness_AcksNaksAndCredits_credits :
    let x := (((linked 8).modLink 8 fun x => { x with
      advert := tset 0 [] 0 4, lastFreed := tset 0 [] 0 4095, taken := tset 0 [] 0 2 }).linkEvent 1 (.bundle 8)).link 8
    ((3 : BitVec 12).toNat + 4096 - tget 0 x.lastFreed 0) % 4096 ≤ tget 0 x.advert 0 ∧
    tget 0 x.advert 0 < ((4 : BitVec 12).toNat + 4096 - tget 0 x.lastFreed 0) % 4096 ∧ 0 < 2 ∧ 2 + x.stuck 0 ≤ x.inUse 0 := by
  decide

theorem witness_AcksNaksAndCredits_reports :
    let x : Link := { up.link 8 with reportAt := 0 }
    x.reportAt + 1000 ≤ 1000 ∧ 999 < x.reportAt + 1000 ∧ (∀ c < 4, tget 0 x.freed c < tget 0 x.reported c + 16) ∧
    (∀ c < 4, ∀ f ∈ tget none x.freedAt c, 999 < f + 32) := by decide

theorem witness_ReplaysRetrains_replays :
    let x := (waiting.linkEvent 1 (.bundle 8)).link 8
    let worn (again : Bool) := ((waiting.modLink 8 fun x => { x with fails := 15, afterRetrain := again }).linkEvent 1 (.bundle 8)).link 8
    x.st = 1 ∧ x.unacked ≠ [] ∧ x.fails < x.replayLimit ∧ (∀ a, (worn a).replayLimit ≤ (worn a).fails) ∧
    (worn false).afterRetrain = false ∧ (worn true).afterRetrain = true ∧
    (((linked 8).linkEvent 1 (.bundle 8)).link 8).unacked = [] ∧ x.inWindow ≤ 1000 ∧ x.st ≠ 2 ∧ x.st ≠ 3 ∧ x.st < 3 := by decide

theorem witness_ReplaysRetrains_down :
    let y := (((linked 8).modLink 8 fun x => { x with st := 2, window := 60, inWindow := 1001, rateLogged := some 0 }).linkEvent
      (60 * 10 ^ 9) (.bundle 8))
    let z := ((linked 8).modLink 8 fun x => { x with st := 3 }).linkEvent 1 (.bundle 8)
    let w := (((linked 16).modLink 16 fun x => { x with st := 3 }).modLPort 0 0 fun p => { p with light := lightFull }).linkEvent 1 (.port 0 0)
    (y.link 8).st = 2 ∧ 1000 < (y.link 8).inWindow ∧ (y.link 8).window = y.now / 10 ^ 9 ∧
    (z.link 8).window ≠ 60 * 10 ^ 9 / 10 ^ 9 ∧ (∀ l ∈ (y.link 8).rateLogged, l + 60 * 10 ^ 9 ≤ y.now) ∧ (z.link 8).st = 3 ∧
    (w.link 16).st = 3 ∧ ((w.lan 0).port 0).light = lightFull := by decide

theorem witness_ReplaysRetrains_settled :
    let r := (linked 16).modLink 16 fun x => { x with st := 2, rxWidth := some ⟨7, .drop, 3, 0xFF, false⟩ }
    let u := (r.modLPort 0 0 fun y => { y with light := lightFull }).linkEvent 1 (.port 0 0)
    let f := (((linked 8).modLink 8 fun x => { x with st := 2 }).modBundle 8 fun x => { x with
      wait := [3] }).modBundle 8 fun x => x.modLane 3 fun y => { y with role := .service }
    (u.link 16).rxWidth = some ⟨7, .drop, 3, 0xFF, false⟩ ∧ (u.link 16).rxWait = [] ∧ (u.link 16).waitWidth = [] ∧
    (((u.modLink 16 Link.noWidths).lan 0).port 0).light = lightFull ∧ (u.link 16).st = 2 ∧
    ((u.settleWidths (.port 0 0)).link 16).st = 2 ∧ ((f.linkEvent 1 (.bundle 8)).link 8).st = 2 ∧
    (((f.linkEvent 1 (.bundle 8)).settleWidths (.bundle 8)).link 8).st ≠ 2 ∧
    ({ r.link 16 with width := some ⟨7, .drop, 3, 0xFF, true⟩ } : Link).width = some ⟨7, .drop, 3, 0xFF, true⟩ := by decide

theorem witness_Greetings :
    let s := up.modLink 8 fun x => { x with gen := 5, fresh := false }
    let f := up.modLink 8 fun x => { x with gen := 5, fresh := true }
    let u := (f.linkEvent 1 (.bundle 8)).modLink 8 fun x => { x with farGen := 5, hello := true }
    let n (seq : BitVec 12) (x : Link) := (seq.toNat + 4096 - x.oldest) % 4096
    let x := waiting.link 8
    (up.link 16).gen = 0 ∧ (x.st = 1 ∧ ({ x with st := 3 } : Link).st = 3 ∧ ({ x with st := 4 } : Link).st = 4) ∧
    ((s.link 8).unacked.length < n 1 (s.link 8) ∧ ((1 : BitVec 12).toNat + 4096 - (s.link 8).nextTx) % 4096 < 2048) ∧
    ¬ ((s.link 8).unacked.length < n 0 (s.link 8)) ∧ (s.link 8).gen ≠ 0 ∧ (s.link 8).st = 0 ∧ (s.link 8).gen ≠ (6 : BitVec 16).toNat ∧
    (s.link 8).gen = (5 : BitVec 16).toNat ∧ (false || (s.link 8).fresh) = false ∧ (false || (f.link 8).fresh) = true ∧
    (decide (16 ≤ 8) && true && (f.link 8).fresh && genLater 6 (f.link 8).gen) = false ∧ (u.link 8).st = 0 ∧
    (let g := (up.modLink 16 fun x => { x with gen := 5, fresh := true })
     let v := (g.linkEvent 1 (.port 0 0)).modLink 16 fun x => { x with farGen := 6, hello := true }
     (v.link 16).gen ≠ 0 ∧ (v.link 16).st = 0 ∧ twf none g.links = true ∧
     (decide (16 ≤ 16) && true && (v.link 16).fresh && genLater 6 (v.link 16).gen) = true) := by decide

theorem witness_FencedBundlesAndWidths_note :
    let s := (waiting.modLink 8 fun x => { x with st := 4 }).modLink 9 fun x => { x with st := 1 }
    let u := s.linkEvent 1 (.bundle 8)
    u.siblings 8 = [9] ∧ (u.link 8).st = 4 ∧
    ((0 : BitVec 12).toNat + 4096 - (u.link 8).oldest) % 4096 ≤ (u.link 8).unacked.length ∧ (up.link 8).st ≠ 4 := by decide

/-- A link whose width change 7 is in progress, with or without another that waits. -/
def changing (waits : List WidthCmd) : Link :=
  (((linked 8).modLink 8 fun x => { x with width := some ⟨7, .drop, 3, 0, true⟩, waitWidth := waits }).linkEvent 1 (.bundle 8)).link 8

theorem witness_FencedBundlesAndWidths_requests :
    let x := ((linked 8).linkEvent 1 (.bundle 8)).link 8
    x.st = 1 ∧ x.lastCmd ≠ some 7 ∧ x.width = none ∧ WidthAction.drop ≠ .add ∧
    (((linked 16).linkEvent 1 (.port 0 0)).link 16).lastCmd ≠ some 7 ∧
    (((linked 16).linkEvent 1 (.port 0 0)).link 16).st = 1 ∧ (((linked 16).linkEvent 1 (.port 0 0)).link 16).width = none ∧
    (changing []).width = some ⟨7, .drop, 3, 0, true⟩ ∧ (changing []).st = 1 ∧ (up.link 8).st ≠ 1 ∧ (changing []).lastCmd ≠ some 8 ∧ (changing []).waitWidth = [] ∧
    (changing [⟨8, .drop, 4, 0, false⟩]).waitWidth = [⟨8, .drop, 4, 0, false⟩] ∧ (7 : Nat) ≠ (8 : BitVec 8).toNat ∧
    ((((linked 8).modLink 8 fun x => { x with lastCmd := some 7 }).linkEvent 1 (.bundle 8)).link 8).lastCmd = some 7 := by
  decide

theorem witness_FencedBundlesAndWidths_switches :
    let s := ((linked 8).modBundle 8 fun x => x.modLane 3 fun y => { y with role := .service })
    let u := s.linkEvent 1 (.bundle 8)
    let c := u.laneChanged 8 .drop 3 0
    let v := c.setLink 8 (({ c.link 8 with rxLastCmd := some 7 } : Link).block 8 6 7 0 0)
    (((linked 16).linkEvent 1 (.port 0 0)).link 16).rxWidth = none ∧ ((linked 16).linkEvent 1 (.port 0 0)).rxWidthOf (.port 0 0) ≤ 2 * 16 ∧
    u.rxWidthOf (.bundle 8) ≤ 2 * 1 ∧ 2 * 0 < u.rxWidthOf (.bundle 8) ∧ (u.link 8).st = 1 ∧ ((u.bundle 8).lane 3).role = .service ∧
    (c.link 8).rxWidth = none ∧ (v.link 8).rxWidth = none ∧ (v.bundle 8).wait = [] ∧ (up.link 8).st ≠ 1 := by decide

/-- The block with its Lantern 0 changed. -/
def lan0 (f : Lantern → Lantern) : State := up.modLan 0 f

/-- The block with port 0 of its Lantern 0 changed. -/
def port0 (f : LPort → LPort) : State := up.modLPort 0 0 f

theorem witness_LasersAndSpares_checks :
    let s (w : Bool) : State :=
      let v := lan0 fun x => x.modLaser 3 fun y => { y with st := 1, warn := w }
      { v with fuses := { v.fuses with lasers := tset (0, 0, 0) [] 3 (80, 100, 0) } }
    ((s true).lan 0 |>.laser 3).st = 1 ∧ ((s true).lan 0 |>.laser 3).warn = true ∧ ((s false).lan 0 |>.laser 3).warn = false ∧
    ((lan0 fun x => x.modLaser 3 fun y => { y with st := 0 }).lan 0 |>.laser 3).st ≠ 1 ∧
    (-100 : Int) < -99 ∧ (s true).ceiling 0 3 = 100 ∧ 10 * 89 < 9 * (s true).ceiling 0 3 ∧
    9 * (s true).ceiling 0 3 ≤ 10 * 90 ∧ (-200 : Int) < -199 ∧ (-100 : Int) ≤ -100 ∧ (-200 : Int) ≤ -200 := by decide

theorem witness_LasersAndSpares_swaps :
    let used : State := lan0 fun x => (x.modLaser 16 fun y => { y with st := 2 }).modLaser 17 fun y => { y with st := 4 }
    let free : State := lan0 fun x => ({ x with ctrl := 1 } : Lantern).modLaser 16 fun y => { y with st := 0 }
    (used.lan 0).swap = none ∧ (used.lan 0).freeSpare none = none ∧ bitOf (free.lan 0).ctrl 0 = true ∧
    (free.lan 0).freeSpare none = some 0 := by decide

/-- A swap of wavelength 3 to spare A. -/
def swapping (atOnce dropped forced : Bool) : State :=
  lan0 fun x => { x with swap := some ⟨3, 0, atOnce, false, dropped, false, forced, []⟩ }

theorem witness_LasersAndSpares_locks :
    let v (s : State) : State := ((s.atTime 1).modLan 0 fun x => { x.modLaser 16 fun y => { y with st := 2 } with
      swap := some ⟨3, 0, false, true, false, false, false, []⟩ }).oculusUpdate
    (∀ b ∈ [true, false], ((swapping b false false).lan 0).swap = some ⟨3, 0, b, false, false, false, false, []⟩) ∧
    (v ((swapping false false false).modLink 16 fun x => { x with st := 1 })).upPorts 0 ≠ [] ∧
    (v (swapping false false false)).upPorts 0 = [] ∧ ((v (swapping false false false)).lan 0).swapHeld = false ∧
    ((v ((swapping false false false).modLan 0 fun x => { x with shell := 2 })).lan 0).swapHeld = true := by decide

theorem witness_LasersAndSpares_fails :
    let v (s : State) : State := (((s.atTime 1).modLan 0 fun x => { x.modLaser 16 fun y => { y with st := 4 } with
        swap := none }).oculusUpdate).report 0x0A0 .corrected 7 0
    ((v (swapping false true true)).beginSwap 0 3 false true true none).isSome = true ∧
    (∀ forced, (v ((swapping true true forced).modLan 0 fun x => x.modLaser 17 fun y => { y with st := 4 })).beginSwap 0 3 true
      true forced none = none) ∧ (v (swapping true true false)).gal.waiters = [] := by decide

theorem witness_LasersAndSpares_commands : ∃ (a : Acc) (s r u v : State), (got s a).Ready 1 a.id 0x0610 a u ∧
    (u.lan 0).swap = none ∧ (u.lan 0).swapQ = [] ∧ (u.lan 0).sourceOf 0 ≠ 3 ∧ a.par 19 1 = 0xFF ∧
    (u.beginSwap 0 0 false false false none).isSome = true ∧ (got r a).Ready 1 a.id 0x0610 a v ∧
    v.beginSwap 0 0 false false false none = none :=
  ⟨cmd 0x0610 (field 19 1 0xFF ++ field 20 1 1), lan0 fun x => x.modLaser 16 fun y => { y with st := 0 },
    lan0 fun x => (x.modLaser 16 fun y => { y with st := 4 }).modLaser 17 fun y => { y with st := 4 }, _, _,
    ready _ _ _ _ (by decide) (by decide), by decide, by decide, by decide, by decide, by decide,
    ready _ _ _ _ (by decide) (by decide), by decide⟩

theorem witness_CalibrationGaps_start :
    let s := lan0 fun x => { x with held := false }
    (s.atTime 1).gapFree 0 = true ∧ (s.atTime 1).gapDue 0 = true ∧ (up.atTime 1).gapFree 0 = false ∧
    ((lan0 fun x => { x with gap := some ⟨0, [0], 0⟩ }).lan 0).gap ≠ none ∧
    ((lan0 fun x => { x with drain := some 0 }).lan 0).drain ≠ none ∧
    ((lan0 fun x => { x with fenced := true }).lan 0).fenced = true ∧
    2 < (up.modPwr fun x => { x with st := 3 }).pwr.st ∧ 0 + 5 * 10 ^ 6 ≤ max up.now (5 * 10 ^ 6) := by decide

theorem witness_CalibrationGaps_hold :
    let s := lan0 fun x => { x with held := false, gapMode := 1, holdUntil := some 10 }
    let v (s : State) := (s.atTime 10).modLan 0 fun x => { x with gapMode := 0, holdUntil := none }
    (s.lan 0).holdUntil = some 10 ∧ max s.now 9 < 10 ∧ 10 ≤ max s.now 10 ∧ (v s).gapFree 0 = true ∧ (v s).gapDue 0 = true ∧
    (v (s.modLan 0 fun x => { x with fenced := true })).gapFree 0 = false := by decide

theorem witness_CalibrationGaps_policy : ∃ (a b : Acc) (u v : State), (got up a).Ready 1 a.id 0x0620 a u ∧ a.par 16 1 ≠ 0xFF ∧
    (got up b).Ready 1 b.id 0x0620 b v ∧ b.par 16 1 = 0xFF :=
  ⟨cmd 0x0620 [], cmd 0x0620 (field 16 1 0xFF), _, _, ready _ _ _ _ (by decide) (by decide), by decide,
    ready _ _ _ _ (by decide) (by decide), by decide⟩

theorem witness_Wavelengths :
    let y := (((port0 fun y => { y with light := lightFull, rx := 0xFFFF, tx := 0xFFFF }).lan 0).port 0)
    let d := (((port0 fun y => { y with
      light := lightFull, rxDropped := tset none [] 2 (some 5), txDropped := tset none [] 2 (some 5) }).lan 0).port 0)
    y.light = lightFull ∧ bitOf y.rx 15 = true ∧ bitOf y.tx 15 = true ∧ tget none y.rxDropped 15 = none ∧
    tget none y.txDropped 15 = none ∧ (y.wave 15).lock.held [] = [] ∧
    (let s := port0 fun y => { y with light := lightFull, fec := [(15, { WaveRx.init with lock := ⟨true, 0, 0⟩ })] }
     twf Lantern.init s.lans = true ∧ twf LPort.init (s.lan 0).ports = true ∧ twf WaveRx.init ((s.lan 0).port 0).fec = true ∧
     twf 0 (s.lan 0).counts = true ∧ ((((s.lan 0).port 0).wave 15).lock.locked = true)) ∧
    (FecLock.search []).locked = false ∧ ((up.lan 0).port 0).light ≠ lightFull ∧ d.light = lightFull ∧
    tget none d.rxDropped 2 = some 5 ∧ tget none d.txDropped 2 = some 5 ∧ 5 + 10 ^ 9 ≤ max up.now (5 + 10 ^ 9) ∧
    max up.now (4 + 10 ^ 9) < 5 + 10 ^ 9 ∧ d.dropLogged.contains 4 = false ∧ 1 * 10 ^ 6 ≤ 1000000 ∧ 999999 < 1 * 10 ^ 6 := by decide

/-- A codeword of zeros. -/
def zeroWord : List (BitVec 10) := List.replicate 136 0

theorem rsSyndrome_zeros (i : Nat) (h : Sym.times 0 (alphaPow i) ^^^ 0 = 0) : ∀ n, rsSyndrome i (List.replicate n 0) = 0
  | 0 => rfl
  | n + 1 => by
    have k := rsSyndrome_zeros i h n
    unfold rsSyndrome at k ⊢
    rw [List.replicate_succ, List.foldl_cons, h]
    exact k

theorem zeroWord_syndromes : (rsSyndromes zeroWord).all (· == 0) = true := by
  have h : ∀ i < 8, rsSyndrome i zeroWord = 0 := fun i hi => rsSyndrome_zeros i (by revert i; decide) 136
  simp only [rsSyndromes, List.all_map, List.all_eq_true, List.mem_range, Function.comp]
  intro i hi
  rw [h i hi]
  rfl

theorem witness_Wavelengths_locks : (FecLock.search (List.replicate 4 zeroWord)).locked = true ∧
    (⟨true, 0, 0⟩ : FecLock).held [zeroWord] = [zeroWord] := by
  have one (x : FecLock) (l : x.locked = false) (g : x.good < 3) : x.take zeroWord = { x with good := x.good + 1 } := by
    simp only [FecLock.take, l, zeroWord_syndromes, Bool.false_eq_true, if_false, if_true, if_neg (show ¬ 4 ≤ x.good + 1 by omega)]
  have last (x : FecLock) (l : x.locked = false) (g : x.good = 3) : x.take zeroWord = ⟨true, 0, 0⟩ := by
    simp only [FecLock.take, l, zeroWord_syndromes, Bool.false_eq_true, if_false, if_true, g, Nat.le_refl]
  refine ⟨?_, by rw [FecLock.held]; rfl⟩
  have four (w : List (BitVec 10)) : FecLock.search (List.replicate 4 w) =
    (((FecLock.init.take w).take w).take w).take w := rfl
  rw [four]
  rw [show FecLock.init = ⟨false, 0, 0⟩ from rfl, one ⟨false, 0, 0⟩ rfl (by decide), one ⟨false, 1, 0⟩ rfl (by decide), one ⟨false, 2, 0⟩ rfl (by decide),
    last ⟨false, 3, 0⟩ rfl rfl]

theorem witness_ShellsAndBeacons_shells :
    let drained (b : Bool) := lan0 fun x => { x with drain := some 0, drainDone := b }
    (up.lan 0).drain = none ∧ (up.lan 0).shell ≠ 1 ∧ ((lan0 fun x => { x with shell := 1 }).lan 0).shell = 1 ∧
    ((drained true).lan 0).drain ≠ none ∧ ((drained true).lan 0).drainDone = true ∧
    ((drained false).lan 0).drainDone = false := by decide

theorem witness_ShellsAndBeacons_light : ∀ k ∈ [lightFull, lightKeep, lightDark, lightReady, lightRamp],
    (((port0 fun y => { y with light := k }).lan 0).port 0).light = k := by decide

/-- A beacon frame of state SEARCH, with its CHECK (Table 15-11). -/
def beacon (st : Nat) : BitVec 64 :=
  let v := 0xB38E + st * 2 ^ 16
  BitVec.ofNat 64 (v + (crc8 (leBytes 7 v)).toNat * 2 ^ 56)

theorem witness_ShellsAndBeacons_beacons :
    beaconOk 0 = false ∧ beaconOk (beacon 0) = true ∧ bitsOf (beacon 0).toNat 17 16 = 0 ∧
    bitsOf (beacon 1).toNat 17 16 = 1 ∧
    (let s := (lan0 fun x => { x with held := false, present := true }).modLPort 0 0 fun y => { y with light := lightKeep }
     (((s.lan 0).port 0).light = lightKeep ∧ ((s.lan 0).port 0).retryAt = none ∧ s.ready 0 0 = true)) := by decide +kernel

theorem witness_ShellsAndBeacons_timers :
    let y := (((port0 fun y => { y with rampAt := some 0, lastFrame := some 0, retryAt := some 9 }).lan 0).port 0)
    y.rampAt = some 0 ∧ 0 + 10 ^ 7 ≤ max up.now (10 ^ 7) ∧ ((up.lan 0).port 0).rampAt = none ∧ y.lastFrame = some 0 ∧
    0 + 5 * 10 ^ 6 ≤ max up.now (5 * 10 ^ 6) ∧ max up.now (5 * 10 ^ 6 - 1) < 0 + 5 * 10 ^ 6 ∧ y.retryAt = some 9 ∧
    max up.now 8 < 9 ∧ 9 ≤ max up.now 9 := by decide

theorem witness_LanternServiceAndResets_commands : ∃ (a b c d : Acc) (r u v w x : State),
    (got up a).Ready 1 a.id 0x0630 a u ∧ a.par 17 1 = 0 ∧
    ((u.askDrain 0).lan 0).drainDone = false ∧ (got r b).Ready 1 b.id 0x0630 b v ∧ b.par 17 1 = 1 ∧
    (v.lan 0).restoring = false ∧ (got up c).Ready 1 c.id 0x0630 c w ∧ c.par 17 1 = 2 ∧ (got up d).Taken 1 d.id 0x0601 d x :=
  ⟨cmd 0x0630 [], cmd 0x0630 (field 17 1 1), cmd 0x0630 (field 17 1 2), cmd 0x0601 [],
    lan0 fun x => { x with present := true, drain := some 0, drainDone := true }, _, _, _, _,
    ready _ _ _ _ (by decide) (by decide), by decide, by decide, ready _ _ _ _ (by decide) (by decide), by decide, by decide,
    ready _ _ _ _ (by decide) (by decide), by decide, taken _ _ _ _ (by decide)⟩

theorem witness_LanternServiceAndResets_drains :
    let x := (lan0 fun x => { x with ctrl := 7 }).lan 0
    let d := (lan0 fun x => { x with ctrl := 7, present := true, drain := some 0, drainDone := true }).lan 0
    let g := (lan0 fun x => { x with ctrl := 1, drain := some 5, drainDone := false }).lan 0
    bitOf x.ctrl 1 = true ∧ bitOf x.ctrl 2 = true ∧ x.fenced = false ∧ x.drain = none ∧ x.shell = 0 ∧ bitOf g.ctrl 1 = false ∧
    bitOf g.ctrl 2 = false ∧ d.drain ≠ none ∧ d.drainDone = true ∧ d.present = true ∧ d.restoring = false ∧
    g.drain = some 5 ∧ g.drainDone = false ∧
    (∀ p < 16, (up.link (portKey 0 p)).queue = [] ∧ (up.link (portKey 0 p)).unacked = []) ∧
    ((up.modLink 16 fun x => { x with queue := [⟨1, 3, [], false, none⟩] }).link (portKey 0 0)).queue ≠ [] := by decide

theorem witness_LanternServiceAndResets_limits : ({ Lantern.init with ctrl := 0x40 } : Lantern).drainLimit = none ∧
    Lantern.init.drainLimit = some (10 ^ 9) ∧ 5 + 10 ^ 9 ≤ max up.now (10 ^ 9 + 5) ∧ max up.now (10 ^ 9 + 4) < 5 + 10 ^ 9 := by
  decide

theorem witness_LanternServiceAndResets_resets :
    let w (r : List Nat) : State :=
      let v := ((lan0 fun x => { x with resetTimes := r }).atTime 1).holdLantern 0 true
      (v.modLan 0 fun x => { x with
        resetSince := some v.now,
        resetTimes := (x.resetTimes.filter fun r => decide (v.now < r + 60 * 10 ^ 9)) ++ [v.now] }).oculusUpdate
    ((lan0 fun x => { x with fenced := true }).lan 0).fenced = true ∧ (up.lan 0).fenced = false ∧
    (((w [0]).lan 0).resetTimes.length < 3) ∧ 3 ≤ ((w [0, 0]).lan 0).resetTimes.length ∧
    ((lan0 fun x => { x with resetSince := some 0 }).lan 0).resetSince ≠ none ∧ (up.lan 0).resetSince = none ∧
    (((up.modDie 3 fun d => { d with coolSince := some 0 }).die 3).coolSince = some 0) ∧
    ((lan0 fun x => { x with stop := true }).lan 0).stop = true ∧ 0 + 10 ^ 9 ≤ max up.now (10 ^ 9) ∧
    max up.now (10 ^ 9 - 1) < 0 + 10 ^ 9 := by decide +kernel

/-- The block as device 3, its Lantern 0's port 0 in a role, with a route to device 4. -/
def device3 : State :=
  let s := linked 16
  { s with fab := { s.fab with devId := some 3, routes := tset 0 [] 4 0x80 } }

theorem witness_FabricRoutes_messages :
    let m (hops dst gen : Nat) := FMsg.ofBytes ([1, byteOf hops, byteOf dst, 0, 4, 0, 0, 0, byteOf gen, 0] ++ List.replicate 30 0)
    device3.fab.devId = some 3 ∧ (device3.link (16 + 16 * 0 + 0)).gen ≠ 0 ∧ (m 1 3 0).dstDev = 3 ∧
    ((device3.atTime 1).deliver (m 1 3 0)).isSome = true ∧ (m 31 4 0).dstDev ≠ 3 ∧ 31 ≤ (m 31 4 0).hops ∧ (m 30 4 0).hops < 31 ∧
    bitOf (tget 0 device3.fab.routes (m 30 4 0).dstDev) 7 = true ∧ bitOf (tget 0 device3.fab.routes (m 30 5 0).dstDev) 7 = false ∧
    device3.fab.lastUnroutable = none ∧ up.fab.devId = none ∧ 1 ≤ (m 1 3 0).type ∧ (m 1 3 0).type ≤ 5 ∧
    ((device3.modPart 0 fun x => { x with gen := 2 }).part (Fin.ofNat 4 (m 1 3 0).dstPart)).gen.toNat ≠ (m 1 3 0).dstGen ∧
    ((device3.link 16).rxHeld.any fun n => vcOf n.type == vcOf (m 1 3 0).type) = false ∧
    (let s := device3.modLink 16 fun x => { x with rxHeld := [m 1 3 0] }
     ((s.link 16).rxHeld.any fun n => vcOf n.type == vcOf (m 1 3 0).type) = true) := by
  decide +kernel

theorem witness_FabricRoutes_held :
    let m := FMsg.ofBytes [1, 0, 4]
    let s : State := { device3 with fab := { device3.fab with held := [m] } }
    s.fab.held[0]? = some m ∧ s.fab.held.length ≤ 1 ∧ s.fab.ended.contains (4, (0 : Fin 4).val, (1 : BitVec 16).toNat) = false := by
  decide +kernel

theorem witness_FabricRoutes_commands : ∃ (a b c d e : Acc) (s u v w x y : State),
    (got up a).Ready 1 a.id 0x0501 a u ∧ a.par 16 1 = 1 ∧ (got up b).Ready 1 b.id 0x0501 b v ∧ b.par 16 1 ≠ 1 ∧
    (got up c).Ready 1 c.id 0x0510 c w ∧ c.par 18 1 = 0 ∧ (got s d).Ready 1 d.id 0x0510 d x ∧ d.par 18 1 = 1 ∧
    ((x.portRole (d.par 16 1) (d.par 17 1)).link (portKey (d.par 16 1) (d.par 17 1))).st ≠ 1 ∧
    (got up e).Ready 1 e.id 0x0510 e y ∧ e.par 18 1 = 2 :=
  ⟨cmd 0x0501 (field 16 1 1 ++ field 18 2 3), { cmd 0x0501 (field 14 2 4 ++ field 20 2 4 ++ field 22 2 1) with
      ext := [0x80, 0, 0, 0] ++ List.replicate 60 0 },
    cmd 0x0510 [], cmd 0x0510 (field 18 1 1), cmd 0x0510 (field 18 1 2), up, _, _, _, _, _,
    ready _ _ _ _ (by decide) (by decide), by decide, ready _ _ _ _ (by decide) (by decide +kernel), by decide,
    ready _ _ _ _ (by decide) (by decide), by decide, ready _ _ _ _ (by decide) (by decide), by decide, by decide,
    ready _ _ _ _ (by decide) (by decide), by decide⟩

theorem witness_HopsBoundLoops :
    let m (hops : Nat) := FMsg.ofBytes ([1, byteOf hops, 4, 0] ++ List.replicate 36 0)
    device3.fab.devId = some 3 ∧ (device3.link (16 + 16 * (0 : Fin 8).val + (0 : Fin 16).val)).gen ≠ 0 ∧ (m 31).dstDev ≠ 3 ∧
    (m 31).hops = 31 ∧ (m 30).hops ≠ 31 ∧ bitOf (tget 0 device3.fab.routes (m 30).dstDev) 7 = true := by decide +kernel

/-- The block in a power state. -/
def powered (st : Nat) (g : Option Nat) : State := up.modPwr fun x => { x with st := st, goal := g }

theorem witness_PowerStates_commands : ∃ (a b : Acc) (u v w x : State),
    (got (powered 2 none) a).Ready 1 a.id 0x0110 a u ∧ u.sec.st ≠ .terminated ∧ a.par 16 1 = u.pwr.st ∧ 2 ≤ u.pwr.st ∧
    u.pwr.goal = none ∧ u.start.safe = false ∧ (got (powered 0 none) a).Ready 1 a.id 0x0110 a v ∧ 2 ≤ a.par 16 1 ∧
    a.par 16 1 ≠ v.pwr.st ∧ v.pwr.stop = false ∧ v.eng.run = none ∧ (got tiled a).Ready 1 a.id 0x0110 a w ∧ w.eng.run ≠ none ∧
    w.pwr.stop = false ∧ (got up b).Ready 1 b.id 0x0701 b x ∧ x.pwr.measured ≤ b.par 16 2 ∧
    b.par 16 2 < (x.modPwr fun y => { y with measured := 601 }).pwr.measured ∧ x.pwr.st = 0 ∧ x.start.safe = false :=
  ⟨cmd 0x0110 (field 16 1 2), cmd 0x0701 (field 16 2 600), _, _, _, _,
    ready _ _ _ _ (by decide) (by decide), by decide, by decide, by decide, by decide, by decide,
    ready _ _ _ _ (by decide) (by decide), by decide, by decide, by decide, by decide,
    ready _ _ _ _ (by decide) (by decide), by decide, by decide,
    ready _ _ _ _ (by decide) (by decide), by decide, by decide, by decide, by decide⟩

theorem witness_PowerStates_entries :
    let s := up.modPwr fun x => { x with sticky := true }
    s.start.phase = .running ∧ s.start.safe = false ∧ s.pwr.st = 0 ∧ s.quiet = true ∧ s.pwr.sticky = true ∧ s.pwr.goal = none ∧
    tiled.quiet = false ∧ (powered 0 (some 2)).pwr.goal = some 2 ∧ (powered 0 (some 2)).eng.run = none ∧ tiled.eng.run ≠ none ∧
    600 ≤ up.pwr.cap ∧ 1000 ≤ up.pwr.cap * 1100 ∧ (up.die 2).lost = false ∧
    (∃ w : State, w.silent .west = true) ∧ (∃ w : State, w.silent .west = false ∧ w.eng.run = none) :=
  ⟨by decide, by decide, by decide, by decide, by decide, by decide, by decide, by decide, by decide, by decide, by decide,
    by decide, by decide, ⟨up.modDie 0 fun d => { d with lost := true }, by decide⟩, ⟨up, by decide⟩⟩

theorem witness_SupplyRails :
    let s := up.modRail 3 fun x => { x with inWindow := 17, window := 60, lastLogged := some 0, aboveSince := some 0 }
    (powered 3 none).watched 1 = false ∧ up.watched 3 = true ∧ up.start.phase = .running ∧
    (s.modEng fun e => { e with hold := true }).eng.hold = true ∧
    (∀ k < 8, ∀ a ∈ (s.rail k).aboveSince, a + 50000 ≤ max s.now 50000) ∧ up.eng.hold = false ∧
    16 < (s.rail 3).inWindow ∧ (s.rail 3).window = max s.now (60 * 10 ^ 9) / 10 ^ 9 ∧
    (∀ x ∈ (s.rail 3).lastLogged, x + 60 * 10 ^ 9 ≤ max s.now (60 * 10 ^ 9)) ∧ (up.rail 3).inWindow ≤ 16 :=
  ⟨by decide, by decide, by decide, by decide, by decide, by decide, by decide, by decide, by decide, by decide⟩

theorem witness_HeatAndLedger_commands : ∃ (a b c d : Acc) (u v w x : State), (got up a).Taken 1 a.id 0x0710 a u ∧ a.par 24 8 = 0 ∧
    (got up b).Taken 1 b.id 0x0710 b v ∧ b.par 24 8 ≠ 0 ∧ (got up c).Taken 1 c.id 0x0720 c w ∧ c.par 24 4 < 256 ∧
    (got up d).Taken 1 d.id 0x0720 d x ∧ 256 ≤ d.par 24 4 :=
  ⟨cmd 0x0710 [], cmd 0x0710 (field 24 8 4096), cmd 0x0720 (field 24 4 255), cmd 0x0720 (field 24 4 256), _, _, _, _,
    taken _ _ _ _ (by decide), by decide, taken _ _ _ _ (by decide), by decide, taken _ _ _ _ (by decide), by decide,
    taken _ _ _ _ (by decide), by decide⟩

theorem witness_HeatAndLedger_heat :
    let s := up.modDie 0 fun d => { d with trip := true, throttle := true, limit := some 100, lastStep := 0 }
    let r := up.modDie 0 fun d => { d with throttle := false, limit := some 100, lastStep := 0 }
    (s.die (0 : Fin 11).val).trip = true ∧ (up.die (0 : Fin 11).val).trip = false ∧ (s.die 0).throttle = true ∧
    (s.die 0).limit = some 100 ∧ (s.die 0).lastStep + 10 ^ 6 ≤ max s.now (10 ^ 6) ∧ (up.die 0).throttle = false ∧
    (up.die 0).lost = false ∧ (r.die 0).lost = false ∧
    ((s.modDie 0 fun d => { d with lost := true }).die 0).lost = true ∧ (up.die 0).limit = none ∧ (r.die 0).throttle = false ∧ (r.die 0).limit = some 100 ∧
    (r.die 0).lastStep + 10 ^ 7 ≤ max r.now (10 ^ 7) := by decide

theorem witness_HeatAndLedger_stacks :
    let lim : StackLimits := ⟨1520, 1680⟩
    (1359 : Int) < lim.maxTemp - 160 ∧ (1359 : Int) < lim.trip ∧ (1359 : Int) ≤ 1360 ∧ (up.hbm.get .west).temp 3 ≤ 1360 ∧
    (up.hbm.get .west).warm = [] ∧ (up.hbm.get .west).atLimit = [] ∧
    (let s : State := { up with led := { up.led with st := 1 } }
     s.start.phase = .running ∧ s.start.safe = false ∧ s.pwr.st ≤ 1 ∧ s.led.st = 1) ∧ 2 ≤ (powered 2 none).pwr.st := by decide

/-- A report of a half that returns whole, its own die read or not. -/
def whole (ok : Bool) : HalfReport := ⟨⟨if ok then [] else [0], [], 0, 0⟩, [], [], [], []⟩

/-- The block with a half in some state. -/
def half (x : HalfState) (failed : Nat) : State := up.modArr .west fun a => { a with half := x, failedStarts := failed }

theorem witness_HalvesResetAndReturn :
    queued.pagesOpen 0 = true ∧ queued.isSteward 0 = true ∧ up.pagesOpen 0 = false ∧ (0x5253 : Nat) % 2 ^ 16 = 0x5253 ∧
    (0x5254 : Nat) % 2 ^ 16 ≠ 0x5253 ∧
    (let s := queued.modPort 1 fun x => { x with width := 16 }
     s.pagesOpen 1 = true ∧ s.isSteward 1 = false) ∧
    up.halfUp .west = true ∧ up.underReset (other .west) = false ∧ up.running = true ∧ (up.arr.get .west).half ≠ .lost ∧
    (up.arr.get (other .west)).half ≠ .lost ∧ State.reset.running = false ∧
    ((half .orderly 0).arr.get .west).half = .orderly ∧ (half .orderly 0).running = true ∧
    ((half .orderly 0).arr.get .west).resetSince + 5000000 ≤ max (half .orderly 0).now 5000000 ∧
    (up.arr.get .west).half ≠ .orderly ∧ (half .abrupt 0).underReset .west = true ∧
    ((half .abrupt 0).arr.get .west).preparing = false ∧
    (((half .abrupt 0).modArr .west fun a => { a with preparing := true }).arr.get .west).preparing = true ∧
    up.identityFaults (whole true).identity (halfNo .west :: (lansOf .west).map (· + 3)) = [] ∧
    up.identityFaults (whole false).identity (halfNo .west :: (lansOf .west).map (· + 3)) = [0x040] ∧ up.underReset .west = false ∧ ((half .abrupt 0).arr.get .west).failedStarts = 0 ∧
    ((half .abrupt 1).arr.get .west).failedStarts = 1 ∧ (half .abrupt 1).underReset .west = true := by decide

/-- An entry of the log: a contained message of source 0x002 and kind 3. -/
def entry : LogEntry := ⟨5, ⟨0x002, .contained, 3, 0⟩, 0, false, false, false, 0⟩

/-- The block with that entry logged. -/
def logged : State := { queued with bel := { queued.bel with log := [entry], sel := 5 } }

theorem witness_BelfryLogs_messages :
    (∃ m, Msg.ofCode (0x0028030000000000 : BitVec 64).toNat = some m ∧ halfOfSource m.src = none ∧ ¬ (m.src = 0 ∧ m.kind = 1)) ∧
    max up.now 50000 ≤ 0 + 50000 ∧ 0 + 50000 < max up.now 50001 ∧ Msg.ofCode (0 : BitVec 64).toNat = none ∧
    (∀ x ∈ up.bel.waiting, max up.now 1 < x.stamp + 50000) ∧
    ({ up.bel with waiting := [⟨entry.msg, 0, false, true, none⟩] } : Belfry).waiting = [⟨entry.msg, 0, false, true, none⟩] :=
  ⟨⟨_, rfl, by decide, by decide⟩, by decide, by decide, by decide, by decide, by decide⟩

theorem witness_BelfryLogs_commands : ∃ (a b c d e : Acc) (u v w x y : State),
    (got logged a).Taken 1 a.id 0x0801 a u ∧
    (got logged b).Taken 1 b.id 0x0802 b v ∧ (match v.namedEntry b with
      | .ok z => z == entry && !v.persists z
      | _ => false) = true ∧
    (got logged c).Taken 1 c.id 0x0803 c w ∧ (match w.namedEntry c with
      | .ok z => z == entry && !w.persists z
      | _ => false) = true ∧
    (got logged d).Taken 1 d.id 0x0802 d x ∧ (match x.namedEntry d with
      | .error z => z == stBadParam
      | _ => false) = true ∧
    (got logged e).Taken 1 e.id 0x0A30 e y ∧ (Msg.ofCode (e.par 16 8)).isSome = true :=
  ⟨cmd 0x0801 [], cmd 0x0802 (field 16 4 5 ++ field 24 8 entry.msg.code), cmd 0x0803 (field 16 4 5 ++ field 24 8 entry.msg.code),
    cmd 0x0802 (field 16 4 6), cmd 0x0A30 (field 16 8 0x0028030000000000), _, _, _, _, _,
    taken _ _ _ _ (by decide), taken _ _ _ _ (by decide), by decide, taken _ _ _ _ (by decide), by decide,
    taken _ _ _ _ (by decide), by decide, taken _ _ _ _ (by decide), by decide⟩

theorem witness_BelfryLogs_entries :
    logged.pagesOpen 0 = true ∧ logged.entryAt logged.bel.sel = some entry ∧ logged.isSteward 0 = true ∧
    logged.persists entry = false ∧
    (let s := (logged.modPort 1 fun x => { x with width := 16 })
     s.pagesOpen 1 = true ∧ s.entryAt s.bel.sel = some entry ∧ s.isSteward 1 = false) ∧
    (let e : LogEntry := { entry with msg := ⟨0x002, .contained, 2, 0⟩ }
     logged.persists e = true) := by decide

theorem witness_RegistersAndDomains_writes :
    let u := queued.atTime 1
    queued.pagesOpen 0 = true ∧ knownDomain 11 = true ∧ (11 : Nat) ≠ 1 ∧ (queued.dom 11).commitBusy = false ∧
    ((queued.modDom 11 fun x => { x with commitBusy := true }).dom 11).commitBusy = true ∧
    Block.drm ≠ Block.sec ∧ 0x110 / 4 * 4 = 0x110 ∧ (32 : Nat) ≠ 64 ∧ (16 : Nat) < 32 ∧ (u.regValue 0 .drm 0 0x110).isSome = true ∧ u.domainDown (domainOf .drm 0) = false ∧
    ¬ (Block.drm = .drm ∧ 0x110 / 4 * 4 = 0x100) ∧
    (queued.port 0).d3 = false ∧ queued.running = true := by decide +kernel

theorem witness_RegistersAndDomains_wides :
    let u := queued.atTime 1
    mailboxOf (.host 0) = some 0 ∧ queued.writerOpen (.host 0) = true ∧ mailboxOf .keep = some 5 ∧
    queued.writerOpen .keep = true ∧ (∃ w ∈ u.widesOf 0, u.domainDown (domainOf w.block w.inst) = false) ∧
    (let v := queued.modArr .west fun a => { a with half := .abrupt }
     ∃ w ∈ v.widesOf 0, v.domainDown (domainOf w.block w.inst) = true) := by decide +kernel

theorem witness_RegistersAndDomains_reads :
    let u := queued.atTime 1
    let v := (queued.modArr .west fun a => { a with half := .abrupt }).atTime 1
    queued.isSteward 0 = true ∧ (u.regValue 0 .arr 0 0x4).isSome = true ∧ u.domainDown (domainOf .arr 0) = false ∧
    v.domainDown (domainOf .arr 0) = true ∧ (v.regValue 0 .arr 0 0x4).isSome = true ∧ u.regValue 0 .arr 0 0xFFC = none ∧
    (let s := queued.modPort 1 fun x => { x with width := 16 }
     s.pagesOpen 1 = true ∧ s.isSteward 1 = false) := by decide +kernel

theorem witness_PartitionsAndPorts :
    queued.pagesOpen 0 = true ∧ queued.isSteward 0 = true ∧ bitsOf (0x52450000 : Word).toNat 31 16 = 0x5245 ∧
    bitsOf (0x52440000 : Word).toNat 31 16 ≠ 0x5245 ∧ (queued.part 0).resetting = false ∧ queued.running = true ∧
    State.reset.running = false ∧ (queued.part 0).offer = none ∧
    ((queued.modPart 0 fun x => { x with offer := some 1 }).part 0).offer ≠ none ∧
    (let s := queued.modPort 1 fun x => { x with width := 16 }
     s.pagesOpen 1 = true ∧ (1 : Fin 4) ≠ 0 ∧ s.isSteward 1 = false) ∧
    ((queued.modPart 0 fun x => { x with resetting := true }).part 0).resetting = true := by decide

theorem witness_PartitionsAndPorts_oculus : ∃ (a b : Acc) (u v : State), (got State.reset a).Taken 1 a.id 0x0101 a u ∧
    (u.oculus a.part).length ≤ a.par 24 4 ∧ (got queued b).Taken 1 b.id 0x0101 b v ∧
    b.par 24 4 < (v.oculus b.part).length :=
  ⟨cmd 0x0101 (field 24 4 0x10000), cmd 0x0101 [], _, _, taken _ _ _ _ (by decide), by decide +kernel,
    taken _ _ _ _ (by decide), by decide +kernel⟩

theorem keepReady (s : State) (t : Nat) (a : Acc) (op : Nat) (h : a.opcode = op)
    (g : ({ s.atTime t with gal := { s.gal with keepQ := [] } } : State).gate2 a = none)
    (k : ({ s.atTime t with gal := { s.gal with keepQ := [] } } : State).gate3 a = none)
    (b : s.gal.waiters = []) :
    (keepGot s a).KeepReady t a.id op a { s.atTime t with gal := { s.gal with keepQ := [] } } :=
  ⟨[], rfl, rfl, h, by
    change (s.gal.waiters.any _) = false
    rw [b]; rfl, rfl, g, k⟩

/-- The block with an update session. -/
def session (pldm : Bool) (stage : Nat) : State :=
  { up with
    sec := { up.sec with session := some ⟨1, 8192, 0, 0, pldm⟩ }, mgmt := { up.mgmt with fdStage := stage } }

theorem witness_KeepCommands_attest : ∃ (a : Acc) (u : State), (keepGot up a).KeepReady 1 a.id 0x0901 a u :=
  ⟨cmd 0x0901 (field 48 4 1 ++ field 52 8 4096), _, keepReady _ _ _ _ (by decide) (by decide) (by decide) rfl⟩

theorem witness_KeepCommands_unlock : ∃ (a b c : Acc) (s u v w : State), (keepGot up a).KeepReady 1 a.id 0x0910 a u ∧
    a.par 16 1 = 0 ∧ (keepGot up b).KeepReady 1 b.id 0x0910 b v ∧ b.par 16 1 = 1 ∧ b.par 17 1 = 1 ∧
    v.unlockKey (b.ext.take 245) (b.par 17 1) = none ∧ v.sec.st = .locked ∧
    (keepGot s c).KeepReady 1 c.id 0x0910 c w ∧ c.par 16 1 = 2 ∧ w.sec.st = .control :=
  ⟨cmd 0x0910 (field 17 1 1 ++ field 24 8 4096), { cmd 0x0910 (field 14 2 245 ++ field 16 1 1 ++ field 17 1 1) with
      ext := List.replicate 256 0 }, cmd 0x0910 (field 16 1 2 ++ field 17 1 1), { up with sec := { up.sec with st := .control } }, _, _, _,
    keepReady _ _ _ _ (by decide) (by decide) (by decide) rfl, by decide,
    keepReady _ _ _ _ (by decide) (by decide) (by decide +kernel) rfl, by decide, by decide, by decide, by decide,
    keepReady _ _ _ _ (by decide) (by decide) (by decide) rfl, by decide, by decide⟩

theorem witness_KeepCommands_update : ∃ (a b c : Acc) (u v w : State), (keepGot up a).KeepReady 1 a.id 0x0920 a u ∧
    u.sec.session = none ∧ (keepGot (session false 0) b).KeepReady 1 b.id 0x0920 b v ∧ v.sec.session ≠ none ∧ b.par 16 1 = 1 ∧
    v.hostBad b.part (b.par 32 8) (b.par 24 4) = false ∧ (keepGot (session false 0) c).KeepReady 1 c.id 0x0920 c w ∧
    c.par 16 1 = 2 ∧ w.imageGood 1 8192 = false ∧ 0 + 60 * 10 ^ 9 ≤ max (session false 0).now (60 * 10 ^ 9) :=
  ⟨cmd 0x0920 (field 20 4 0x100000), cmd 0x0920 (field 16 1 1 ++ field 24 4 4096 ++ field 32 8 4096), cmd 0x0920 (field 16 1 2), _, _, _,
    keepReady _ _ _ _ (by decide) (by decide) (by decide) rfl, by decide, keepReady _ _ _ _ (by decide) (by decide) (by decide) rfl,
    by decide, by decide, by decide, keepReady _ _ _ _ (by decide) (by decide) (by decide) rfl, by decide, by decide +kernel,
    by decide⟩

theorem witness_KeepCommands_spdm :
    let at_ (x : SpdmStage) (d : Option DoeAnswer) := queued.modPort 0 fun p => { p with spdm := x, deferred := d }
    queued.doeOpen 0 = true ∧ (queued.part 0).resetting = false ∧ up.doeOpen 0 = false ∧
    (let s := queued.modPart 0 fun x => { x with resetting := true }
     s.doeOpen 0 = true ∧ (s.part 0).resetting = true) ∧ ((at_ .version none).port 0).spdm ≠ .none ∧ (queued.port 0).spdm = .none ∧
    ((at_ .caps none).port 0).spdm = .caps ∧ queued.sec.st ≠ .terminated ∧
    ({ queued with sec := { queued.sec with st := .terminated } } : State).doeOpen 0 = true ∧
    ((at_ .algos none).port 0).spdm = .algos ∧ 3 ≤ (at_ .algos none).spdmLevel ∧
    ({ up.sec with chainServed := true } : Security).chainServed = true ∧ 10 ≤ (10 : BitVec 8).toNat ∧ (10 : BitVec 8).toNat ≠ 255 ∧
    ((at_ .algos (some .none)).port 0).deferred = some .none ∧ ((at_ .algos none).port 0).deferred = none := by decide

/-- The block with its management port answering. -/
def told (s : State) : State := { s with mgmt := { s.mgmt with silent := false } }

theorem witness_ManagementPort :
    let s := told up
    s.mgmtOpen = true ∧ s.start.phase = .running ∧ s.sec.st = .locked ∧ s.pwr.goal = none ∧ s.start.safe = false ∧
    s.pwr.stop = false ∧ s.eng.run = none ∧ s.pwr.st ≠ 2 ∧ s.pwr.st < 3 ∧ (s.part 0).resetting = false ∧
    (s.setQuota 0 .slotQuota 65).isNone = true ∧ (s.setQuota 0 .slotQuota 64).isSome = true ∧ (s.lan 0).drainDone = false ∧
    s.bel.log = [] ∧ s.sec.session = none := by decide

theorem witness_ManagementPort_update : ∀ n ∈ [1, 2, 3, 4, 5, 6],
    let s := told (session true n)
    s.mgmtOpen = true ∧ s.start.phase = .running ∧ s.sec.st = .locked ∧ s.sec.session = some ⟨1, 8192, 0, 0, true⟩ ∧
    s.mgmt.fdStage = n ∧ 8188 + [1, 2, 3, (4 : Byte)].length ≤ 8192 := by decide

theorem witness_ManagementPort_events :
    let s := told logged
    s.mgmtOpen = true ∧ (s.bel.log.find? fun e => indexFrom s.mgmt.event e.index) = some entry ∧
    s.entryAt 5 = some entry ∧ s.persists entry = false ∧
    ({ up with sec := { up.sec with session := some ⟨1, 8192, 8192, 0, true⟩ } } : State).sec.session =
      some ⟨1, 8192, 8192, 0, true⟩ := by decide

theorem witness_TestAccessPort :
    up.start.phase ≠ .off ∧ up.jtag.testMode = false ∧ up.sec.st = .locked ∧ 4 < (5 : BitVec 8).toNat ∧
    4 < (0xFF : BitVec 8).toNat ∧ (0xFF : BitVec 8) ≠ 0x20 ∧
    ({ up with jtag := { up.jtag with testMode := true, instr := 0 } } : State).jtag.testMode = true ∧
    ({ up with jtag := { up.jtag with testMode := true, instr := 0 } } : State).jtag.instr ≠ 1 ∧
    ({ up with start := { up.start with phase := .off } } : State).start.phase = .off ∧
    ({ up.sec with st := .observe } : Security).st = .observe := by decide

/-- A report of a start whose self-test fails. -/
def failing : StartReport := 
  ⟨false, ⟨[], [], 0, 0⟩, [], false, false, false, [], [], [], [], [], [], [], [], [], [], [], true⟩

theorem witness_StartsAndResets :
    (∃ r, State.reset.startKind r ≠ .warm) ∧ (State.reset.keepSteps failing).2 = none ∧
    State.reset.start.phase = .starting ∧ State.reset.start.safe = false ∧ up.start.phase ≠ .starting ∧
    (let s : State := { State.reset with start := { State.reset.start with markSet := true, failedRun := 3 } }
     s.start.markSet = true ∧ s.start.safeAt + 10 ^ 8 ≤ max s.now (10 ^ 8) ∧ 3 ≤ s.start.failedRun) ∧
    State.reset.start.failedRun < 3 ∧ up.running = true ∧ State.reset.running = false ∧
    (∀ p ∈ [Phase.off, .held, .starting, .running], ({ up.start with phase := p } : Start).phase = p) :=
  ⟨⟨failing, by decide⟩, rfl, by decide, by decide, by decide, by decide, by decide, by decide, by decide, by decide⟩

theorem witness_StartsAndResets_warm :
    let s : State := { State.reset with
      led := { State.reset.led with st := 1 },
      start := { State.reset.start with stored := { State.reset.start.stored with valid := true } } }
    s.startKind failing = .warm := by decide

/-! ### Ill-formed commands, one for each check -/

theorem ill_hstSqTail : ¬ (Instr.hstSqTail 0 0 0 0 [(2 ^ 64, 0)] []).WellFormed ∧
    ¬ (Instr.hstSqTail 0 0 0 0 [] [2 ^ 64]).WellFormed := by simp [Instr.WellFormed]

theorem ill_configuration : ¬ (Instr.cfgCommitComplete 0 12).WellFormed ∧
    ¬ (Instr.cfgScan 0 (some ⟨12, 0, 0⟩)).WellFormed ∧ ¬ (Instr.cfgScan 0 (some ⟨0, 0, 32⟩)).WellFormed := by
  simp [Instr.WellFormed]

theorem ill_registers : ¬ (Instr.registerWrite 0 (.host 0) (.outside 0) 24 0 .inTime).WellFormed ∧
    ¬ (Instr.registerRead 0 0 (.outside 0) 4 .inTime).WellFormed := by simp [Instr.WellFormed]

theorem ill_keys : ¬ (Instr.orderlyHalfReset 0 (.host 0) .west (2 ^ 16)).WellFormed ∧
    ¬ (Instr.declareHalfLost 0 (.host 0) .west (2 ^ 16)).WellFormed ∧
    ¬ (Instr.singleHalfOperation 0 (.host 0) (2 ^ 16)).WellFormed ∧ ¬ (Instr.deviceReset 0 (.host 0) (2 ^ 16)).WellFormed ∧
    ¬ (Instr.deviceResetCold 0 (.host 0) (2 ^ 16)).WellFormed ∧ ¬ (Instr.requestColdStart 0 (.host 0) (2 ^ 16)).WellFormed ∧
    ¬ (Instr.withdrawColdRequest 0 (.host 0) (2 ^ 16)).WellFormed := by simp [Instr.WellFormed]

theorem ill_aperture : ¬ (Instr.bar2Read 0 0 0 0 []).WellFormed ∧ ¬ (Instr.bar2Read 0 0 0 4097 []).WellFormed ∧
    ¬ (Instr.bar2Read 0 0 (2 ^ 64) 1 []).WellFormed ∧ ¬ (Instr.bar2Write 0 0 0 []).WellFormed ∧
    (∀ l : List Byte, l.length = 4097 → ¬ (Instr.bar2Write 0 0 0 l).WellFormed) ∧ ¬ (Instr.bar2Write 0 0 (2 ^ 64) [0]).WellFormed := by
  simp +contextual [Instr.WellFormed]

theorem lanes8 : lanesIn 8 = 34 := by decide

theorem lanes0 : lanesIn 0 = 68 := by decide

/-- A lane that is found with its alignment word, without skew or errors. -/
def laneTry : LaneTry := ⟨some 0, 0, List.replicate 16 ⟨0, 0⟩, 0⟩

theorem ill_links : ¬ (Instr.hostLinkUp 0 0 3 5).WellFormed ∧ ¬ (Instr.hostLinkUp 0 0 4 0).WellFormed ∧
    ¬ (Instr.hostLinkUp 0 0 4 7).WellFormed ∧ ¬ (Instr.flitReceive 0 (.bundle 0) [0]).WellFormed ∧
    ¬ (Instr.widthReq 0 (.port 0 0) 0 .drop 16 0xFF).WellFormed ∧ ¬ (Instr.widthReq 0 (.port 0 0) 0 .drop 0 16).WellFormed ∧
    ¬ (Instr.widthSwitch 0 (.bundle 8) 0 .drop 34 ⟨0xFF, 0⟩).WellFormed ∧ ¬ (Instr.widthSwitch 0 (.bundle 0) 0 .drop 0 ⟨68, 0⟩).WellFormed ∧
    ¬ (Instr.downRetry 0 (.bundle 0) (some ⟨[], []⟩)).WellFormed ∧
    ¬ (Instr.downRetry 0 (.bundle 8) (some ⟨[[], [], [], [], []], List.replicate 34 laneTry⟩)).WellFormed ∧
    ¬ (Instr.downRetry 0 (.bundle 8) (some ⟨[], List.replicate 34 { laneTry with eyes := [] }⟩)).WellFormed := by
  simp [Instr.WellFormed, lanesAt, lanes8, lanes0, BundleTrain.WellFormed, LaneTry.WellFormed, laneTry]

theorem ill_arrays : ¬ (Instr.slabCheckFail 0 .west 33 0 false 0).WellFormed ∧ ¬ (Instr.slabCheckFail 0 .west 0 32 false 0).WellFormed ∧
    ¬ (Instr.slabStallWatchdog 0 .west 33 0 0).WellFormed ∧ ¬ (Instr.slabStallWatchdog 0 .west 0 32 0).WellFormed ∧
    ¬ (Instr.sentinelSample 0 .west []).WellFormed ∧ ¬ (Instr.proactiveReserve 0 .west 33).WellFormed ∧
    ¬ (Instr.scrubPass 0 .west [] [] [1024]).WellFormed := by simp [Instr.WellFormed]

theorem ill_lanes : ¬ (Instr.laneFomMeasure 0 8 []).WellFormed ∧
    ¬ (Instr.laneFailure 0 8 34 .lowFom).WellFormed ∧ ¬ (Instr.spareEqSweep 0 8 34 (List.replicate 16 ⟨0, 0⟩)).WellFormed ∧
    ¬ (Instr.spareEqSweep 0 8 0 []).WellFormed ∧ ¬ (Instr.retrainComplete 0 (.bundle 8 [⟨34, none, 0, 0⟩])).WellFormed := by
  simp [Instr.WellFormed, lanes8, Retrained.WellFormed]

theorem ill_optics : ¬ (Instr.serCheck 0 0 0 0 2 1).WellFormed ∧ ¬ (Instr.lambdaFail 0 0 0 ⟨0, .codewords [[0]]⟩).WellFormed ∧
    ¬ (Instr.lambdaRelockAttempt 0 0 0 0 false ⟨[[0]], 0, true⟩).WellFormed ∧ ¬ (Instr.jtagBypass ⟨0, 0x20⟩).WellFormed ∧ ¬ (Instr.lanternReturn 0 0 [2, 2] (List.replicate 16 0)).WellFormed ∧ ¬ (Instr.lanternReturn 0 0 [] []).WellFormed ∧
    (∀ l : List Byte, l.length = 31 ∨ l.length = 65569 → ¬ (Instr.fabricMessageReceive 0 0 0 l).WellFormed) := by
  refine ⟨by simp [Instr.WellFormed], by simp [Instr.WellFormed, wordsOk], by simp [Instr.WellFormed, wordsOk],
    by simp [Instr.WellFormed], by simp [Instr.WellFormed], by simp [Instr.WellFormed, shuttersOk], ?_⟩
  rintro l (h | h) <;> simp [Instr.WellFormed, h]

theorem ill_dark_tests : ¬ (Instr.shellOpen 0 ⟨0, []⟩).WellFormed ∧ ¬ (Instr.drainPortsEmpty 0 ⟨0, List.replicate 15 0⟩).WellFormed ∧
    ¬ (Instr.drainTimeout 0 ⟨0, List.replicate 17 0⟩).WellFormed ∧
    ¬ (Instr.thermalSample 0 3 ⟨List.replicate 8 0, [0]⟩).WellFormed ∧
    (Instr.thermalSample 0 3 ⟨List.replicate 8 0, []⟩).WellFormed ∧
    ¬ (Instr.ringLockUpdate 0 0 (.rx 0 0) (.detuning 0)).WellFormed ∧ ¬ (Instr.ringLockUpdate 0 0 (.tx 0 0) (.currents 0 0 0)).WellFormed ∧
    ¬ (Instr.ringLockUpdate 0 0 (.mux 0) (.currents 0 0 0)).WellFormed ∧
    ¬ (Instr.portRampComplete 0 0 0 ⟨0, [], List.replicate 16 0⟩).WellFormed ∧
    ¬ (Instr.portRampComplete 0 0 0 ⟨0, List.replicate 16 0, []⟩).WellFormed ∧
    ¬ (Instr.powerSample 5 0 (List.replicate 14 0) (List.replicate 14 0) [(0, 6)]).WellFormed ∧
    ¬ (Instr.spdmRespondIfReady 0 ⟨0, 0x84⟩).WellFormed ∧ (Instr.spdmRespondIfReady 0 ⟨0, 0xFF⟩).WellFormed := by
  simp [Instr.WellFormed, shuttersOk, RingReading.WellFormed, show sensorsIn 3 = 8 from rfl, spdmRows]

theorem ill_power : ¬ (Instr.powerSample 0 0 [] (List.replicate 14 0) []).WellFormed ∧
    ¬ (Instr.powerSample 0 0 (List.replicate 14 0) [] []).WellFormed ∧ ¬ (Instr.railBelowWarning 0 0 4096).WellFormed ∧
    ¬ (Instr.railBelowReset 0 0 4096).WellFormed ∧ ¬ (Instr.thermalSample 0 0 ⟨[], []⟩).WellFormed ∧
    ¬ (Instr.belfryMessageArrival 0 0 (2 ^ 64)).WellFormed := by simp [Instr.WellFormed, sensorsIn]

theorem ill_reports : ¬ (Instr.halfReturn 0 .west ⟨⟨[], [], 0, 0⟩, [], [33], [], []⟩).WellFormed ∧
    ¬ (Instr.halfReturn 0 .west ⟨⟨[], [], 0, 0⟩, [], [], [], [(0, 4), (0, 4)]⟩).WellFormed ∧
    ¬ (Instr.halfReturn 0 .west ⟨⟨[], [], 0, 0⟩, [(8, ⟨[⟨34, none, 0, 0⟩], ⟨[], []⟩⟩)], [], [], []⟩).WellFormed ∧
    ¬ (Instr.halfReturn 0 .west ⟨⟨[], [], 0, 0⟩, [], [], [(0, [])], []⟩).WellFormed ∧
    ¬ (Instr.coldStart 0 failing).WellFormed ∧ ¬ (Instr.warmStart 0 failing).WellFormed := by
  simp [Instr.WellFormed, HalfReport.WellFormed, BundleStart.WellFormed, shuttersOk, StartReport.WellFormed, failing, lanes8]

theorem ill_messages : ¬ (Instr.spdmGetCertificate 0 ⟨0, 0⟩ (2 ^ 16) 0).WellFormed ∧ ¬ (Instr.spdmGetCertificate 0 ⟨0, 0⟩ 0 (2 ^ 16)).WellFormed ∧
    ¬ (Instr.spdmChallenge 0 ⟨0, 0⟩ [] false).WellFormed ∧ ¬ (Instr.spdmGetMeasurements 0 ⟨0, 0⟩ 0 true [] false).WellFormed ∧
    (∀ l : List Byte, l.length = 65537 → ¬ (Instr.pldmRequestFirmwareData 0 0 l).WellFormed) := by
  simp +contextual [Instr.WellFormed]

/-- A cold start's report without rings or shutters is no event: the sweep finds every ring. -/
theorem ill_sweep : ¬ failing.Swept := fun h => by
  obtain ⟨f, hf, _⟩ := h.1 0 (.tx 0 0)
  simp [failing] at hf

theorem well_idleEntry : (Instr.idleEntry 0).WellFormed ∧ (Instr.downRetry 0 (.bundle 8) (some ⟨[], List.replicate 34 laneTry⟩)).WellFormed := by
  simp [Instr.WellFormed, BundleTrain.WellFormed, LaneTry.WellFormed, lanes8, laneTry]

/-- Balls of Tables 21-1 to 21-3 and the example of R508. -/
theorem test_balls : boundaryCells.length = 46 ∧ ballAt 93 75 = .lane 2 11 .petP ∧ ballAt 93 79 = .lane 2 11 .perN ∧
    ballAt 20 24 = .vinMain ∧ ballAt 20 25 = .gnd ∧ ballAt 8 6 = .keepOut ∧ ballAt 103 60 = .vinAux ∧
    ballAt 99 42 = .refClk 0 false ∧ ballAt 101 83 = .signal (perstSignal 3) := by decide

/-- Where R508 puts a lane's wire, the map has it. -/
theorem test_lane_balls : (List.range 4).all (fun n => (List.range 16).all fun l =>
    [LaneWire.petP, .petN, .perP, .perN].all fun w => laneAt (laneBall n l w).1 (laneBall n l w).2 == some (n, l, w)) = true := by decide

/-- A bundle whose lane 3 is in service. -/
def oneLane : Bundle := Bundle.init.modLane 3 fun y => { y with role := .service }

/-- R304, R334: a retrain finds a lane's slip, and a lane without the alignment word, or with too much skew, fails. -/
theorem test_retrain_slip : ((oneLane.slipLanes [⟨3, some (alignWord.rotateRight 5), 8, 0⟩]).lane 3).slip = 5 ∧
    oneLane.failing 0 [⟨3, some (alignWord.rotateRight 5), 8, 0⟩] = [] ∧ oneLane.failing 0 [⟨3, none, 0, 0⟩] = [3] ∧
    oneLane.failing 0 [⟨3, some alignWord, 9, 0⟩] = [3] := by decide

/-- R341: REPLACE gives the spare the logical number of the wavelength it replaces; DROP binds anew in ascending order. -/
theorem test_port_replace : ((({ LPort.init with tx := 0b0111 } : LPort).afterTx .replace 1 9).txOrder = [0, 9, 2]) ∧
    ((({ LPort.init with tx := 0b0111 } : LPort).afterTx .replace 1 9).afterTx .drop 0 255).txOrder = [] := by decide

/-- R320, R339: an ACK of bundle 0 travels on its companion, or on another bundle of that direction while that one sleeps. -/
theorem test_carrier : (State.reset.carrier 0 (.block 1 0 0 0 0) = 4) ∧
    ((((State.reset.modLink 4 fun x => { x with st := 1 }).modLink 6 fun x => { x with st := 1 }).modBundle 4 fun x => { x with
      txAsleep := true }).carrier 0 (.block 1 0 0 0 0) = 6) := by decide

/-! ### Witnesses of the statements' further clauses -/

theorem witness_SequenceCommands_closed : ∃ (a b c : Acc) (u v w : State), a.closed = true ∧ (got opened a).Taken 1 a.id 0x0311 a u ∧
    b.closed = true ∧ (got opened b).Taken 1 b.id 0x0302 b v ∧ c.closed = true ∧ (got opened c).Taken 1 c.id 0x0320 c w ∧
    (cmd 0x0311 []).closed = false ∧ (cmd 0x0302 []).closed = false ∧ (cmd 0x0320 []).closed = false :=
  ⟨{ cmd 0x0311 [] with closed := true }, { cmd 0x0302 [] with closed := true }, { cmd 0x0320 [] with closed := true }, _, _, _, rfl,
    taken _ _ _ _ (by decide), rfl, taken _ _ _ _ (by decide), rfl, taken _ _ _ _ (by decide), rfl, rfl, rfl⟩

theorem witness_SequenceCommands_freed :
    let s := got opened (cmd 0x0311 [])
    twf Slot.init s.slots = true ∧
    (∃ b ∈ (s.freeSlotOf 0 0).gal.accepted, b.part = 0 ∧ b.slotField = 0 ∧ b.isSlot = true ∧ b.closed = true) ∧
    (∃ b ∈ s.gal.accepted, b.part ≠ 1 ∨ b.slotField ≠ 0 ∨ b.isSlot = false) := by decide

theorem witness_ProgramCommands_closed : ∃ (a : Acc) (u : State), (got up a).Taken 1 a.id 0x0410 a u ∧ a.par 16 1 = 1 ∧
    a.closed = true ∧ (cmd 0x0410 (field 16 1 1)).closed = false :=
  ⟨{ cmd 0x0410 (field 16 1 1) with closed := true }, _, taken _ _ _ _ (by decide), by decide, rfl, rfl⟩

theorem witness_OperationsStart_held :
    let s := running [dOne kCopy []] [] []
    let h := s.modEng fun e => { e with hold := true }
    ((s.atTime 1).turn kCopy).isSome = true ∧ s.eng.hold = false ∧ ((h.atTime 1).turn kCopy).isSome = true ∧ h.eng.hold = true := by
  decide +kernel

theorem witness_TilesAndBoundaries_cancelled :
    (match tiled.eng.run with
      | some r => (match r.cur with
        | some o => ((tiled.atTime 1).liveTile r o ⟨0, [1], [(.part 16384, [1])], none⟩).isSome && r.dead == [] &&
            (tiled.liveTile { r with members := [⟨3, 0, ⟨cmd 0x0310 [], [5], 0, 0, false⟩, [], true, false, false⟩] } o ⟨0, [1], [], some 3⟩).isNone &&
            (tiled.liveTile { r with members := [⟨3, 0, ⟨cmd 0x0310 [], [5], 0, 0, false⟩, [], true, false, false⟩] } o ⟨0, [1], [], some 4⟩).isSome
        | none => false)
      | none => false) = true := by decide +kernel

theorem witness_SentinelsAndRate_warns :
    let s := up.modArr .west fun a => { a with sent := tset 0 [] 32 801 }
    (s.arr.get .west).sentinelWarn = true ∧ (up.arr.get .west).sentinelWarn = false ∧ up.running = true ∧ (0 : Nat) < 1 ∧
    slowdownOf 108 100 = 800 ∧ slowdownOf 109 100 = 900 := by decide

theorem witness_LanesAreWatched_window :
    let w := (up.atTime 1).dieNow (rxDie 8) / 10 ^ 6
    ((up.modBundle 8 fun x => x.modLane 0 fun y => { y with window := w }).bundle 8 |>.lane 0).window = w ∧
    ((up.modBundle 8 fun x => x.modLane 0 fun y => { y with window := w + 1 }).bundle 8 |>.lane 0).window ≠ w := by decide

theorem witness_ReplaysRetrains_own :
    let s := up.modArr .west fun a => { a with unsync := true, ownCount := 5 }
    txDie 8 = none ∧ txDie 0 = some .west ∧ (s.arr.get .west).unsync = true ∧ s.dieNow (txDie 0) = s.now + 5 ∧
    up.dieNow (txDie 8) = up.now := by decide

theorem witness_ReplaysRetrains_found :
    let c : LaneCheck := ⟨3, some alignWord, 8, 0⟩
    let u := ((linked 8).modLink 8 fun x => { x with st := 2 }).linkEvent 1 (.bundle 8)
    let p : LPort := { LPort.init with rxOrder := [0, 1, 2] }
    (slipFound c.word 0).isSome = true ∧ c.skew ≤ 8 ∧ c.invalid = 0 ∧ (u.link 8).st = 2 ∧
    ((((u.settleWidths (.bundle 8)).checkLanes (.bundle 8 [c])).link 8).st = 2) ∧ p.rxOrder ≠ [] ∧
    Retrained.link (.bundle 8 [c]) = .bundle 8 := by decide +kernel

theorem witness_LasersAndSpares_rings :
    let s := lan0 fun x => { x with rings := tset 0 [] (ringKey (.rx 3 2)) 65535 }
    twf Lantern.init s.lans = true ∧ twf 0 (s.lan 0).rings = true ∧ tget 0 (s.lan 0).rings (ringKey (.rx 3 2)) = 65535 ∧
    ringKey (.rx 3 1) ≠ ringKey (.rx 3 2) ∧
    (∃ d : Int, d < tget 0 s.led.setPoints (1024 * 0 + ringKey (.tx 0 0))) ∧
    (∃ a b c : Nat, RingReading.currents 1 2 3 = .currents a b c ∧ b < c ∧ a ≤ c) ∧
    (∃ a b c : Nat, RingReading.currents 3 2 1 = .currents a b c ∧ b < a ∧ c < a) :=
  ⟨by decide, by decide, by decide, by decide, ⟨-1, by decide⟩, ⟨1, 2, 3, rfl, by decide, by decide⟩,
    ⟨3, 2, 1, rfl, by decide, by decide⟩⟩

theorem witness_CalibrationGaps_asked :
    let f := lan0 fun x => { x with held := false }
    f.gapFree 0 = true ∧ (f.modLan 0 fun x => { x with gapPeriod := 7 }).gapFree 0 = true ∧ up.gapFree 0 = false ∧
    (up.lan 0).gapMode ≠ 1 ∧ ((lan0 fun x => { x with gapMode := 1 }).lan 0).gapMode = 1 := by decide

theorem witness_Wavelengths_gap :
    let y := ((port0 fun y => { y with light := lightFull, rxGap := [2] }).lan 0).port 0
    tget none y.rxDropped 2 = none ∧ y.rxGap.contains 2 = true ∧ y.light = lightFull ∧ y.rxGap.contains 3 = false ∧
    8 ≤ maxSkew ∧ maxSkew < 9 := by decide

theorem witness_ShellsAndBeacons_dark :
    let good := List.replicate 16 350
    let bad := List.replicate 15 350 ++ [349]
    (∀ a ∈ good.take 16, 350 ≤ a) ∧ (∀ a ∈ (bad.take 16).take 15, 350 ≤ a) ∧ (bad.take 16)[15]? = some 349 ∧ (349 : Nat) < 350 ∧
    (up.lan 0).fenced = false ∧
    (((port0 fun y => { y with light := lightReady, lastFrame := some 0 }).lan 0).port 0).light = lightReady := by decide

theorem witness_LanternServiceAndResets_returns :
    let v (s : State) (bad : List (Fin 5)) :=
      let out := (List.range 5).filter fun m => (bad.map (·.val)).contains m
      out.foldl (fun v m => v.report 0x100 .contained 11 m)
        ((((s.atTime 1).modLan 0 fun x => { x with
          held := false, resetSince := none, modules := (List.range 5).filter fun m => !out.contains m }).restoreDomain 4).oculusUpdate)
    let s := lan0 fun x => { x with resetSince := some 0, held := true }
    let few := s.modLan 0 fun x => { x with source := (List.range 9).foldl (fun m k => tset 0 m k 3) x.source }
    let f := s.modLan 0 fun x => { x with fenced := true }
    badFibre (List.replicate 16 350) = none ∧ badFibre [349] = some 0 ∧ ((v s []).lan 0).fenced = false ∧
    ((v s [0, 1]).lan 0).fenced = false ∧ 8 ≤ ((v s []).lan 0).waves.length ∧ ((v few []).lan 0).waves.length < 8 ∧
    (((((v s []).report 0x0A0 .contained 8 0).fenceLantern 0 8).lan 0).fenced = true) ∧ (f.lan 0).fenced = true ∧
    (f.lan 0).held = true ∧ (f.lan 0).resetSince ≠ none := by decide +kernel

theorem witness_FabricRoutes_foreign :
    let m := FMsg.ofBytes ([1, 30, 5, 0, 4, 0, 0, 0, 0, 0] ++ List.replicate 30 0)
    m.dstDev ≠ 3 ∧ m.hops < 31 ∧ bitOf (tget 0 device3.fab.routes m.dstDev) 7 = false ∧ m.srcDev ≠ 3 := by decide

theorem witness_PowerStates_stopped : ∃ (a : Acc) (r s u v : State), (got r a).Ready 1 a.id 0x0110 a u ∧ u.pwr.goal = none ∧
    u.start.safe = false ∧ u.pwr.stop = true ∧ a.par 16 1 = 0 ∧ u.cooled = false ∧ (got s a).Ready 1 a.id 0x0110 a v ∧
    v.pwr.goal = none ∧ v.start.safe = false ∧ v.pwr.stop = true ∧ v.cooled = true ∧ v.pwr.st = 2 :=
  ⟨cmd 0x0110 [], (powered 2 none).modPwr fun x => { x with stop := true },
    { (powered 2 none).modPwr fun x => { x with stop := true, coolSince := some 0 } with now := 10 ^ 9 }, _, _,
    ready _ _ _ _ (by decide) (by decide), by decide, by decide, by decide, by decide, by decide,
    ready _ _ _ _ (by decide) (by decide), by decide, by decide, by decide, by decide, by decide⟩

theorem witness_PowerStates_samples :
    let avg (mw : Nat) := (((((10 : Nat), mw) :: [(9, 2300000)]).map (·.2)).foldl (· + ·) 0) / 2
    avg 2500000 ≤ 2400 * 1000 ∧ 2500000 ≤ 2400 * 1100 ∧ 2400 * 1000 < avg 2700000 ∧ 2400 * 1100 < 2700000 ∧
    2400 * 1000 < avg 2600000 ∧ 2600000 ≤ 2400 * 1100 ∧
    up.pwr.st = 0 ∧ up.pwr.cap = 2400 ∧ up.start.safe = false ∧ ({ up.start with safe := true } : Start).safe = true ∧
    up.silent .west = false ∧ (up.modDie 0 fun d => { d with lost := true }).silent .west = true ∧ up.eng.run = none ∧
    (550 : Nat) ≤ up.pwr.volts.get .west ∧ up.pwr.volts.get .west ≤ 800 ∧ up.pwr.riseCap.get .west = none ∧
    up.reports 2 = true ∧ up.reports 0 = true ∧ State.reset.reports 0 = false := by decide

theorem witness_SupplyRails_levels :
    let s := up.modRail 3 fun x => { x with below := true }
    railWarn 3 ≤ 710 ∧ (709 : Nat) < railWarn 3 ∧ railReset 3 ≤ 670 ∧ (669 : Nat) < railReset 3 ∧ up.watched 3 = true ∧
    up.start.phase = .running ∧ (3 : Nat) < (List.replicate 14 710).length ∧ twf Rail.init s.pwr.rails = true ∧
    (s.rail 3).below = true ∧ (∀ k < 8, (up.rail k).below = false) ∧
    (∀ e ∈ ([(2, 0)] : List (Fin 14 × Nat)), e.1 ≠ 3) := by decide

theorem witness_HeatAndLedger_trips :
    tripAt 0 ≤ 1920 ∧ (1919 : Int) < tripAt 0 ∧ tripAt 2 ≤ 1840 ∧ (1839 : Int) < tripAt 2 ∧ (up.die 0).conservative = false ∧
    ((up.modDie 0 fun d => { d with conservative := true }).die 0).conservative = true ∧ tripAt 0 ≤ 1760 + 160 ∧
    ((lan0 fun x => { x with held := true }).lan 0).dark = true := by decide

theorem witness_HeatAndLedger_records :
    let c := LedgerRecord.init
    let x : LedgerRecord := { LedgerRecord.init with stamp := 7 }
    ({ up.led with log := [c, x] } : Ledger).log = c :: [x] ∧ up.led.before + up.now ≤ 7 + 30 * 24 * 3600 * 10 ^ 9 := by decide

theorem witness_BelfryLogs_issued :
    (∃ m, Msg.ofCode (0x0028010000000000 : BitVec 64).toNat = some m ∧ m.issued = true) ∧
    bitsOf (0x0028010000000000 : BitVec 64).toNat 49 48 = 0 ∧ bitsOf (0x0029010000000000 : BitVec 64).toNat 49 48 ≠ 0 ∧
    (∃ m, Msg.ofCode (0x0028030000000000 : BitVec 64).toNat = some m ∧ m.issued = false) ∧
    (up.atTime 1).repeated ⟨0x000, .fatal, 1, 3⟩ = none ∧
    (({ up with bel := { up.bel with log := [{ entry with msg := ⟨0x000, .fatal, 1, 3⟩ }] } } : State).repeated
      ⟨0x000, .fatal, 1, 3⟩).isSome = true :=
  ⟨⟨_, rfl, by decide⟩, by decide, by decide, ⟨_, rfl, by decide⟩, by decide, by decide⟩

/-- Whether a signature verifies is a property of the signature scheme, which the model leaves open. -/
theorem witness_KeepCommands_accepted (h : (acting (keepGot (session false 0) (cmd 0x0920 (field 16 1 2))) 1).imageGood 1 8192 = true) :
    ∃ (a : Acc) (u : State), (keepGot (session false 0) a).KeepReady 1 a.id 0x0920 a u ∧ a.par 16 1 = 2 ∧
      ∃ x, u.sec.session = some x ∧ u.imageGood x.slot x.len = true :=
  ⟨cmd 0x0920 (field 16 1 2), _, keepReady _ _ _ _ (by decide) (by decide) (by decide) rfl, by decide, _, rfl, h⟩

theorem witness_KeepCommands_requests : (0x05 : BitVec 8) ≠ 0xFF ∧ (1 : Fin 16) ≠ 0 ∧ 1 ≤ (1 : BitVec 8).toNat ∧
    (9 : BitVec 8).toNat ≤ 9 ∧ ({ up.sec with chainServed := false } : Security).chainServed = false := by decide

theorem witness_StartsAndResets_release : State.reset.sec.codeLocked = false ∧
    ({ State.reset.sec with codeLocked := true } : Security).codeLocked = true := by decide


/-! ### The manual's worked examples -/

/-- R189: the check value of CRC-32C over the nine characters "123456789". -/
theorem test_crc32c : crc32c ((List.range 9).map fun i => byteOf (0x31 + i)) = 0xE3069283#32 := by decide +kernel

/-- The address interleave's example: DPA 0x00C0_0012_3400 is on stack 0 of its half, pseudo-channel 35, row 1. -/
theorem test_place : placeOf 0x123400 = (0, 35, 1) := by decide

/-- R22's split of 3,000 columns: 1,504 and 1,496. -/
theorem test_share : (up.share 3000 .west, up.share 3000 .east) = (1504, 1496) := by decide +kernel

/-- Forty columns: 32 and 8. -/
theorem test_share_small : (up.share 40 .west, up.share 40 .east) = (32, 8) := by decide +kernel

/-- Table 2-2's wave counts of one projection. -/
theorem test_waves : ([1, 64, 1200].map fun m => up.matmulWaves { desc 1 [] with n := 36864, k := 12288, fmtA := 1, fmtB := 1 }
    m .west) = [1224, 2376, 43272] := by decide +kernel

/-- Table 3-7: four values of one block quantised to JB4. -/
theorem test_quantise : quantBlock 1 0 true ([FVal.fin false 137 0, .fin false 51 0, .fin false 3 0, .fin true 25 0].map
    fun v => match v with
      | .fin n m _ => .fin n (m * 2 ^ 40 / 10) (-40)
      | w => w) = (0x80, [0x7, 0x5, 0x0, 0xA]) := by decide +kernel

/-- Table 3-8's row X: one element in each of five blocks. -/
def rowX : RowVals := readRow 1 160 ([0x07, 0x02, 0x0F, 0x01, 0x02].flatMap fun b => byteOf b :: List.replicate 15 0)
  ([0x93, 0x7F, 0x93, 0x69, 0x2D].map byteOf)

/-- Table 3-8's vector W. -/
def vecW : RowVals := readRow 1 160 ([0x06, 0x02, 0x06, 0x01, 0x06].flatMap fun b => byteOf b :: List.replicate 15 0)
  (List.replicate 5 (byteOf 0x7F))

/-- The example's exact dot product: the accumulator ends at 2^72 + 2^48 with anchor 24. -/
theorem test_exact : exactDot rowX vecW = ⟨2 ^ 72 + 2 ^ 48, some 24, false, false, false⟩ := by decide +kernel

/-- Its value rounds to 1.0, or to the next above it when rounded toward +∞. -/
theorem test_exact_rounded : roundVal layFP32 0 false (exactDot rowX vecW).value = 0x3F800000 ∧
    roundVal layFP32 2 false (exactDot rowX vecW).value = 0x3F800001 := by decide +kernel

/-- Table 5-8's weights. -/
theorem test_weights : [FVal.fin true 2 0, .fin false 0 0, .fin true 1 (-1), .fin true 1 0].map expWeight =
    [2270549, 16777216, 10175896, 6171993] := by decide +kernel

/-- The example's draw, 0.625 of the sum, picks token 2 of all four and of the best two. -/
theorem test_pick : pickAt 22122283 [(0, 2270549), (1, 16777216), (2, 10175896), (3, 6171993)] = some 2 ∧
    pickAt 16845695 [(1, 16777216), (2, 10175896)] = some 2 := by decide

/-- An empty queue leaves the block as it is. -/
theorem test_idle : step State.reset = .next State.reset := rfl

/-- The table gives no row any bits, so no word puts a command in the queue. -/
theorem test_nothing_placed : (State.reset.withFetchWord 32 0xFFFFFFFF).pending = [] := by decide

/-- The scrub-period example: 0x000F_0004 takes HBM_CTRL from 0x0103 to 0x0104; the reserved code 0x7 leaves it. -/
theorem test_scrub_period : rmWrite rmHbm 0x0103 0x000F0004 = (0x0104, false) ∧ rmWrite rmHbm 0x0103 0x000F0007 = (0x0103, true) := by
  decide

/-- R324: the CRC-8 of the nine characters "123456789". -/
theorem test_crc8 : crc8 ((List.range 9).map fun i => byteOf (0x31 + i)) = 0xF4#8 := by decide +kernel

/-- R356: the generator is zero at its eight roots. -/
theorem test_generator : (List.range 8).map (fun i => rsSyndrome i (1#10 :: rsGenerator.reverse)) = List.replicate 8 0#10 := by
  decide +kernel

end Sys2Proof.Tests
end

section
/-! PROOFS. The BAR2 aperture, the zeroing of frames, Goard's bursts (R167, R226, R227, R232). -/

namespace Sys2Proof.Machine

/-! ### BAR2 accesses through an aperture that is served (R226, R227) -/

section

variable {s : State} {p : Fin 4}

/-- Nothing held for an endpoint leaves it nothing to wait behind. -/
theorem State.barPending_eq_false (h : ∀ x ∈ s.barHeld, x.port ≠ p) : s.barPending p = false := by
  simpa [State.barPending] using h

theorem State.barWaits_eq_false (w : s.arr.west.half = .inService) (e : s.arr.east.half = .inService) (a n : Nat) :
    s.barWaits p a n = false := by
  simp [State.barWaits, State.halvesMissing_none w e]

theorem State.barRead_mapped (w : s.arr.west.half = .inService) (e : s.arr.east.half = .inService) {a n : Nat} (hn : 0 < n)
    (hm : s.mappedRange p a n = true) :
    s.barRead p a n = (s.settlePart p a n).answerBytes ((s.settlePart p a n).partRead p a n)
      (!((s.settlePart p a n).partPoison p a n).isEmpty) := by
  simp [State.barRead, hm, Nat.ne_of_gt hn, State.halvesMissing_none w e]

theorem State.barRead_unmapped {a n : Nat} (hm : s.mappedRange p a n = false) :
    s.barRead p a n = (s.goard p true).answerUnsupported := by
  simp [State.barRead, hm]

theorem State.barWrite_mapped (w : s.arr.west.half = .inService) (e : s.arr.east.half = .inService) {a : Nat}
    {bs : List Byte} (hb : bs ≠ []) (hm : s.mappedRange p a bs.length = true) :
    s.barWrite p a bs = s.partWrite p a bs := by
  have up : ∀ h : Half, (s.arr.get h).half = .inService := fun
    | .west => w
    | .east => e
  simp [State.barWrite, hb, hm, up]

theorem State.barWrite_unmapped {a : Nat} {bs : List Byte} (hb : bs ≠ []) (hm : s.mappedRange p a bs.length = false) :
    s.barWrite p a bs = s.goard p true := by
  simp [State.barWrite, hb, hm]

/-- A read within an open aperture that has nothing held is carried out at once. -/
theorem execBar2Read_served (t off n : Nat) (ups : List Upset) (ho : ((s.atTime t).strike ups).pagesOpen p = true)
    (hh : ∀ x ∈ ((s.atTime t).strike ups).barHeld, x.port ≠ p) (hn : off + n ≤ 2 ^ 36) :
    execBar2Read t p off n ups s =
      .next (((s.atTime t).strike ups).barRead p (((s.atTime t).strike ups).barAddr p off) n) := by
  have inside : ¬ apertureBytes < off + n := Nat.not_lt.2 hn
  simp [execBar2Read, ho, State.barPending_eq_false hh, inside]

/-- A write within an open aperture that has nothing held, both halves in service, is carried out at once. -/
theorem execBar2Write_served (t off : Nat) (bs : List Byte) (ho : s.pagesOpen p = true) (hh : ∀ x ∈ s.barHeld, x.port ≠ p)
    (w : s.arr.west.half = .inService) (e : s.arr.east.half = .inService) (hn : off + bs.length ≤ 2 ^ 36) :
    execBar2Write t p off bs s = .next ((s.atTime t).barWrite p (s.barAddr p off) bs) := by
  have inside : ¬ apertureBytes < off + bs.length := Nat.not_lt.2 hn
  have idle : (s.atTime t).barPending p = false := State.barPending_eq_false hh
  have ready : ∀ a n, (s.atTime t).barWaits p a n = false := State.barWaits_eq_false w e
  simp only [execBar2Write, State.atTime_pagesOpen, ho, inside, idle, ready, Bool.not_true, Bool.or_self, Bool.false_eq_true,
    if_false]
  rfl

end

/-! ### Frames zeroed (R167) -/

section

variable (s : State) (h : Half)

@[simp] theorem State.zeroDone_gal : (s.zeroDone h).gal = s.gal := rfl

/-- The zeroing of a half leaves the uses of its frames that are no zeroing. -/
theorem State.zeroDone_use : ((s.zeroDone h).hbm.get h).use = (s.hbm.get h).use.filter fun e => !e.2.zeroes := by
  cases h <;> rfl

/-- After it no frame of the half is still being zeroed. -/
theorem State.zeroDone_zeroes : ∀ e ∈ ((s.zeroDone h).hbm.get h).use, e.2.zeroes = false := by
  simp [State.zeroDone_use]

variable {s h}

theorem State.settleMem_no_waiters (hw : s.gal.waiters = []) : s.settleMem = s := by
  simp [State.settleMem, hw]

/-- Zeroing that leaves frames to be zeroed elsewhere takes up what waits for memory, and no more. -/
theorem execFrameZeroingDone_more (t : Nat) (hu : s.halfUp h = true) (hr : (s.hbm.get h).selfRefresh = false)
    (hz : ((s.atTime t).zeroDone h).settleMem.noneZeroing = false) :
    execFrameZeroingDone t h s = .next ((s.atTime t).zeroDone h).settleMem := by
  have up : (s.atTime t).halfUp h = true := hu
  simp [execFrameZeroingDone, up, hr, hz]

/-- With no command waiting, zeroing changes nothing but the frames. -/
theorem execFrameZeroingDone_no_waiters (t : Nat) (hu : s.halfUp h = true) (hr : (s.hbm.get h).selfRefresh = false)
    (hw : s.gal.waiters = []) : execFrameZeroingDone t h s = .next ((s.atTime t).zeroDone h) := by
  have up : (s.atTime t).halfUp h = true := hu
  simp [execFrameZeroingDone, up, hr, hw, State.settleMem_no_waiters]

end

/-! ### Goard's bursts (R232) -/

/-- A burst is reported when the second's count is past its bound and the last report is a minute old. -/
theorem execGoardBurst_due {s : State} {t : Nat} {p : Fin 4} {un : Bool}
    (hw : (s.part p).rateWindow = max s.now t / 10 ^ 9)
    (hn : 65536 < (if un then (s.part p).rateUnmapped else (s.part p).rateDropped))
    (hl : ∀ l, (s.part p).lastBurst = some l → l + 60 * 10 ^ 9 ≤ max s.now t) :
    execGoardBurst t p un s = .next (((s.atTime t).modPart p fun x => { x with lastBurst := some (max s.now t) }).report
      (srcPort p) .contained 2 (b2n un)) := by
  unfold execGoardBurst
  cases hb : (s.part p).lastBurst with
  | none => simp [hw, hn, hb]
  | some l => simp only [State.atTime_part_of, State.atTime_now, hw, hn, hb, hl l hb, decide_true, Bool.and_self, if_true]

/-- Settles O18: each access by the rule of the aperture for it, the zeroing and the burst by theirs. -/
theorem apertureAndZeroing : Obligations.ApertureAndZeroing := by
  refine ⟨fun t off p s => ⟨?read, ?write⟩, fun t s => ⟨?zero, fun h => s.zeroDone_zeroes h, ?burst⟩⟩
  case read =>
    rintro n ups hn hin ⟨ho, hh, w, e⟩
    have served := execBar2Read_served t off n ups ho hh hin
    exact ⟨fun hm => served.trans (congrArg _ (State.barRead_mapped w e hn hm)),
      fun hm => served.trans (congrArg _ (State.barRead_unmapped hm))⟩
  case write =>
    rintro bs hb hin ⟨ho, hh, w, e⟩
    have served := execBar2Write_served t off bs ho hh w e hin
    exact ⟨fun hm => served.trans (congrArg _ (State.barWrite_mapped (s := s.atTime t) w e hb hm)),
      fun hm => served.trans (congrArg _ (State.barWrite_unmapped (s := s.atTime t) hb hm))⟩
  case zero =>
    exact fun h hu hr => ⟨execFrameZeroingDone_more t hu hr, execFrameZeroingDone_no_waiters t hu hr⟩
  case burst =>
    exact fun p un hw hn hl => execGoardBurst_due hw hn hl

end Sys2Proof.Machine
end

section
/-! PROOFS. Configuration domains, register accesses and captures of wide values (R200, R203-R218). -/

namespace Sys2Proof.Machine

/-! ### Configuration domains (R211, R217) -/

section

variable {s : State} {q : Fin 4}

/-- The steward's access to a domain that is not Keep's and is not being committed takes effect. -/
theorem State.cfgAccess_steward (ho : s.pagesOpen q = true) (hs : s.isSteward q = true) {d : Nat}
    (hk : knownDomain d = true) (h1 : d ≠ 1) (hb : (s.dom d).commitBusy = false) (f : State → State) :
    s.cfgAccess (.host q) d f = f s := by
  simp [State.cfgAccess, State.writerOpen, State.stewardWriter, ho, hs, hk, h1, hb]

/-- Another port's access is dropped and counted. -/
theorem State.cfgAccess_dropped (ho : s.pagesOpen q = true) (hs : s.isSteward q = false) (d : Nat) (f : State → State) :
    s.cfgAccess (.host q) d f = s.goard q false := by
  simp [State.cfgAccess, State.writerOpen, State.stewardWriter, State.dropWrite, ho, hs]

/-- The steward's access to Keep's domain violates its lock. -/
theorem State.cfgAccess_keepDomain (ho : s.pagesOpen q = true) (hs : s.isSteward q = true) (f : State → State) :
    s.cfgAccess (.host q) 1 f = s.keepLocked := by
  simp [State.cfgAccess, State.writerOpen, State.stewardWriter, knownDomain, ho, hs]

theorem execCfgCommitComplete_busy (t : Nat) {d : Nat} (hb : (s.dom d).commitBusy = true) :
    execCfgCommitComplete t d s = .next ((s.atTime t).commitDomain d) := by
  simp [execCfgCommitComplete, hb]

theorem execCfgCommitComplete_idle (t : Nat) {d : Nat} (hb : (s.dom d).commitBusy = false) :
    execCfgCommitComplete t d s = .next (s.atTime t) := by
  simp [execCfgCommitComplete, hb]

/-- A scan without an upset, while the device runs, scans every domain in turn. -/
theorem execCfgScan_running (t : Nat) (hr : s.running = true) :
    let f := (List.range 12).foldl (fun v d => v.scanDomain false d) (s.atTime t)
    execCfgScan t none s = .next { f with free := f.free + 1 } := by
  simp [execCfgScan, hr]

end

/-! ### Register writes (R200, R203, R206) -/

section

variable {s : State} {q : Fin 4} {b : Block} {i off width v : Nat} {c : Crossing}

/-- A page that is open belongs to a device that runs, on a link in operation. -/
theorem State.running_and_width_of_pagesOpen (ho : s.pagesOpen q = true) : s.running = true ∧ (s.port q).width ≠ 0 := by
  simp only [State.pagesOpen, Bool.and_eq_true, decide_eq_true_eq] at ho
  obtain ⟨⟨_, hr⟩, hw⟩ := ho
  exact ⟨decide_eq_true hr, hw⟩

/-- A host's write of at most 32 bits to a block is one write to the block. -/
theorem execRegisterWrite_block (t : Nat) (ho : s.pagesOpen q = true) (hw : width ≠ 64) (x : Dword) :
    execRegisterWrite t (.host q) (.block b i off) width x c s =
      .next ((s.atTime t).writeBlock (.host q) b i off width (x.toNat % 2 ^ 32) c) := by
  simp [execRegisterWrite, State.writerOpen, State.writeAt, State.bar0Place, ho, hw]

/-- Through a read-only window only the endpoint's mailbox registers take a write. -/
theorem State.writeBlock_dropped (hs : s.isSteward q = false) (hm : ¬ (b = .drm ∧ 0x100 ≤ off ∧ off < 0x118)) :
    s.writeBlock (.host q) b i off width v c = s.goard q false := by
  have own : (b == .drm && decide (0x100 ≤ off) && decide (off < 0x118)) = false := by
    simpa [Bool.eq_false_iff, and_assoc] using hm
  simp [State.writeBlock, State.stewardWriter, State.dropWrite, hs, own]

section

variable (hs : s.isSteward q = true) (hd : (s.regValue 0 b i (off / 4 * 4)).isSome = true)
include hs hd

theorem State.writeBlock_narrow (hw : width < 32) :
    s.writeBlock (.host q) b i off width v c = s.accessErr (domainOf b i) := by
  simp [State.writeBlock, State.stewardWriter, hs, hd, hw]

theorem State.writeBlock_down (hb : b ≠ .sec) (hw : 32 ≤ width) (hx : s.domainDown (domainOf b i) = true) :
    s.writeBlock (.host q) b i off width v c = s.modDom (domainOf b i) fun x => { x with down := true } := by
  simp [State.writeBlock, State.stewardWriter, hs, hd, Nat.not_lt.2 hw, hb, hx]

/-- A write reaches the register of a domain that is up: in the Drum's always, elsewhere when the crossing is in time. -/
theorem State.writeBlock_taken (hb : b ≠ .sec) (hw : 32 ≤ width) (hx : s.domainDown (domainOf b i) = false)
    (hc : domainOf b i = 0 ∨ c = .inTime) :
    s.writeBlock (.host q) b i off width v c = s.writeReg (.host q) b i off v := by
  cases c with
  | inTime => simp [State.writeBlock, State.stewardWriter, hs, hd, Nat.not_lt.2 hw, hb, hx]
  | late took =>
    have h0 : domainOf b i = 0 := by simpa using hc
    rw [h0] at hx
    simp [State.writeBlock, State.stewardWriter, hs, hd, Nat.not_lt.2 hw, hb, hx, h0]

end

/-! ### Register reads (R200, R203, R205) -/

/-- A port in operation whose function is awake reads a block of a device that runs. -/
theorem State.readAt_block (ho : s.pagesOpen q = true) (h3 : (s.port q).d3 = false) :
    s.readAt q (.block b i off) width c = s.readBlock q b i off width c := by
  obtain ⟨hr, hw⟩ := State.running_and_width_of_pagesOpen ho
  have hp : s.start.phase = .running := of_decide_eq_true hr
  simp [State.readAt, h3, hw, hp, hr]

theorem execRegisterRead_block (t : Nat) (ho : s.pagesOpen q = true) (h3 : (s.port q).d3 = false) (hw : width ≠ 64) :
    execRegisterRead t q (.block b i off) width c s = .next ((s.atTime t).readBlock q b i off width c) := by
  have read : (s.atTime t).readAt q (.block b i off) width c = _ := State.readAt_block ho h3
  simp [execRegisterRead, State.bar0Place, hw, read]

section

variable (hs : s.isSteward q = true)
include hs

theorem State.readBlock_undefined (hv : s.regValue q b i (off / 4 * 4) = none) :
    s.readBlock q b i off width c = s.answerReg 0 off width := by
  simp [State.readBlock, hs, hv]

/-- A domain that is down answers ones. -/
theorem State.readBlock_down (hv : s.regValue q b i (off / 4 * 4) = some v) (hx : s.domainDown (domainOf b i) = true) :
    s.readBlock q b i off width c =
      (s.modDom (domainOf b i) fun x => { x with down := true }).answerReg 0xFFFFFFFF off width := by
  simp [State.readBlock, hs, hv, hx]

/-- A domain that answers in time gives the register's bits. -/
theorem State.readBlock_value (hb : b ≠ .drm) (hv : s.regValue q b i (off / 4 * 4) = some v)
    (hx : s.domainDown (domainOf b i) = false) :
    s.readBlock q b i off width .inTime = ({ s with free := s.free + 2 } : State).answerReg v off width := by
  simp [State.readBlock, hs, hv, hx, hb]

end

end

/-! ### Captures of wide values (R213, R214) -/

section

variable {s : State} {w : Writer} {k : Nat}

/-- A select by the owner of a mailbox is a capture into it. -/
theorem execDrmMbxSel_open (t : Nat) (hk : mailboxOf w = some k) (ho : s.writerOpen w = true) (x : Option WideRef) :
    execDrmMbxSel t w x s = .next ((s.atTime t).capture64 k x) := by
  have hw : (s.atTime t).writerOpen w = true := by cases w <;> exact ho
  simp [execDrmMbxSel, hk, hw]

theorem State.capture64_none : s.capture64 k none =
    s.modMbx k fun x => { x with seq := (x.seq + 1) % 16, selErr := true, valid := true, data := 0 } := rfl

theorem State.capture64_up {x : WideRef} (hx : (s.widesOf k).contains x = true)
    (hd : s.domainDown (domainOf x.block x.inst) = false) : s.capture64 k (some x) =
    s.modMbx k fun y => { y with seq := (y.seq + 1) % 16, selErr := false, valid := true, data := s.wideValue x % 2 ^ 64 } := by
  simp only [State.capture64, hx, hd, Bool.not_true, Bool.false_eq_true, if_false]

theorem State.capture64_down {x : WideRef} (hx : (s.widesOf k).contains x = true)
    (hd : s.domainDown (domainOf x.block x.inst) = true) : s.capture64 k (some x) =
    (s.modDom (domainOf x.block x.inst) fun y => { y with down := true }).modMbx k fun y => { y with
      seq := (y.seq + 1) % 16, selErr := false, valid := true, data := 2 ^ 64 - 1 } := by
  simp only [State.capture64, hx, hd, Bool.not_true, Bool.false_eq_true, if_false, if_true]

end

/-- Settles O52: the domains' commands, the writes, the reads and the captures, each by the rule for its case. -/
theorem registersAndDomains : Obligations.RegistersAndDomains := by
  intro t q s ho u
  have hr : s.running = true := (State.running_and_width_of_pagesOpen ho).1
  have hu : u.pagesOpen q = true := ho
  refine ⟨?steward, ?others, ?keep, fun d => execCfgCommitComplete_busy t, fun d => execCfgCommitComplete_idle t,
    execCfgScan_running t hr, ?writes, fun h3 _ => ⟨?reads, ?mailbox⟩, ?missed, ?captured⟩
  case steward =>
    exact fun d hs hk h1 hb => ⟨congrArg _ (State.cfgAccess_steward hu hs hk h1 hb _),
      congrArg _ (State.cfgAccess_steward hu hs hk h1 hb _)⟩
  case others =>
    exact fun d hs => ⟨congrArg _ (State.cfgAccess_dropped hu hs d _), congrArg _ (State.cfgAccess_dropped hu hs d _)⟩
  case keep =>
    exact fun hs => congrArg _ (State.cfgAccess_keepDomain hu hs _)
  case writes =>
    intro b i off width v c d
    refine ⟨fun hs hm hw => ?_, fun hs _ hd hw => ?_, fun hs hb hd hl hw hx hc => ?_, fun hs hb hd hl hw hx => ?_⟩
    · exact (execRegisterWrite_block t ho hw v).trans (congrArg _ (State.writeBlock_dropped hs hm))
    · exact (execRegisterWrite_block t ho (by omega) v).trans (congrArg _ (State.writeBlock_narrow hs hd hw))
    · exact (execRegisterWrite_block t ho hw v).trans (congrArg _ (State.writeBlock_taken hs hd hb hl hx hc))
    · exact (execRegisterWrite_block t ho hw v).trans (congrArg _ (State.writeBlock_down hs hd hb hl hx))
  case reads =>
    intro b i off width hw hs hb
    have read := execRegisterRead_block (b := b) (i := i) (off := off) (c := .inTime) t ho h3 hw
    exact ⟨fun v hv hx => read.trans (congrArg _ (State.readBlock_value hs hb hv hx)),
      fun v hv hx => read.trans (congrArg _ (State.readBlock_down hs hv hx)),
      fun hv => read.trans (congrArg _ (State.readBlock_undefined hs hv))⟩
  case mailbox =>
    exact congrArg _ (State.readAt_block hu h3)
  case missed =>
    exact fun w k hk hw => (execDrmMbxSel_open t hk hw none).trans (congrArg _ State.capture64_none)
  case captured =>
    exact fun w k x hk hw hx =>
      ⟨fun hd => (execDrmMbxSel_open t hk hw _).trans (congrArg _ (State.capture64_up hx hd)),
        fun hd => (execDrmMbxSel_open t hk hw _).trans (congrArg _ (State.capture64_down hx hd))⟩

end Sys2Proof.Machine
end

section
/-! PROOFS. VERIFY, the drafter section, digest tiles and the boundaries of operations (R31, R37, R45, R126-R134, R177-R180). -/

namespace Sys2Proof.Machine

/-! ### The time of a command -/

section

variable (s : State) (t : Nat)

@[simp] theorem State.atTime_halfUp : (s.atTime t).halfUp = s.halfUp := rfl
@[simp] theorem State.atTime_runHalves : (s.atTime t).runHalves = s.runHalves := rfl
@[simp] theorem State.atTime_canRun : (s.atTime t).canRun = s.canRun := rfl
@[simp] theorem State.atTime_list : (s.atTime t).list = s.list := rfl

end

/-! ### VERIFY and the drafter section (R37, R126-R132) -/

/-- A run with its VERIFY in the arrays (R128, R183). -/
def State.verifying (s : State) (r : Run) (l : OpList) (d : Desc) : Run :=
  { s.runAhead r d with
    truncated := r.truncated || (l.traceAddr != 0 && decide (l.traceLen < r.traceAt + 32)),
    cur := some { desc := d, tiles := [], digest := 0, waves := noWaves, inexact := false, retried := [], slots := [],
                  poison := [], faulted := false, pausedFor := none, order := [] } }

/-- Every member's step of a run committed, from its tokens (R128). -/
def State.commitMembers (s : State) (q : Run) (toks : Nat → Nat) : State × Run :=
  q.members.foldl (fun x m => x.1.commitMember x.2 toks m) (s, q)

/-- The drafter rows of some member that started early did not stand (R37). -/
def Run.lostEarly (q after : Run) : Bool :=
  q.members.any fun m => tget [] q.early m.slot != [] && tget [] after.early m.slot == []

section

variable {s u : State} {r : Run} {l : OpList} {d : Desc} (t : Nat)

theorem execVerify_commits {ups : List Upset} {g : Option GroupSnap} (he : (s.atTime t).enter kVerify ups = .ok (u, r, l, d, g))
    (hm : d.rowsOf r.rows = r.rows.length) :
    let q := u.verifying r l d
    let x := u.commitMembers q fun i => ofLe (u.partRead r.part (d.a + 4 * i) 4)
    execVerify t ups s = .next ((if q.lostEarly x.2 then x.1.dropEarly else x.1).setRun (some x.2)).settleFrees := by
  simp only [execVerify, he, hm, ne_eq, not_true_eq_false, if_false]
  rfl

theorem execDraftEarlyStart_turn (ht : (s.atTime t).turn kVerify = some (r, l, d)) (hd : l.targetLen < l.descs.length) :
    execDraftEarlyStart t s = .next ((s.atTime t).setRun (some { r with early := (s.atTime t).earlyRows r d })) := by
  simp only [execDraftEarlyStart, ht, hd, if_true]

/-- Gallery forms one pass of the slots still to be drafted for in the iteration (R131). -/
theorem execDrafterIteration_pass {dr : DraftSt} {got left : List Nat} {rows : List RowEnt} (can : s.canRun = true)
    (hr : s.eng.run = some r) (hd : r.draft = some dr) (hl : s.list r.part r.list = some l) (hp : dr.inPass = false)
    (hc : r.cur = none) (hn : dr.left ≠ []) (pass : (s.atTime t).passOf dr.iter dr.left [] [] = (got, rows, left)) :
    execDrafterIteration t s = .next (((s.atTime t).writeRowMap r.part (r.members.map (·.rowmap)) rows 0x100000
      0x140000).setRun (some { r with
        rows := rows, pc := l.targetLen, samples := [], loop := none, early := [],
        draft := some { dr with inPass := true, pass := got, left := left } })) := by
  have ne : dr.left.isEmpty = false := List.isEmpty_eq_false_iff.2 hn
  simp only [execDrafterIteration, State.atTime_canRun, State.atTime_list, State.atTime_eng, can, hr, hd, hl, hp, hc, ne, pass,
    Option.isSome_none, Bool.not_true, Bool.or_self, Bool.false_eq_true, if_false]

end

/-- Settles O26: VERIFY, the early start and the pass of an iteration, each by its rule. -/
theorem verifyAndDrafter : Obligations.VerifyAndDrafter := by
  intro t s u r l d
  exact ⟨fun ups g => execVerify_commits t, execDraftEarlyStart_turn t,
    fun dr got rows left => execDrafterIteration_pass t⟩

/-! ### Tiles and boundaries (R31, R45, R134, R177-R180) -/

section

variable {s : State} {r : Run} {o : OpFlight} {tile : Tile}

/-- A tile that names a slot goes with the slot. -/
theorem State.liveTile_slot {i : Nat} (hi : tile.slot = some i) :
    s.liveTile r o tile = if r.dead.contains i = true then none else some tile := by
  simp only [State.liveTile, hi]

/-- A tile that holds a row of the row map goes with the row's slot. -/
theorem State.liveTile_mapRow {x : RowEnt} (hn : tile.slot = none) (hx : tile.mapRow o.desc r.rows = some x)
    (hd : r.dead.contains x.slot = true) : s.liveTile r o tile = none := by
  simp only [State.liveTile, hn, hx, Option.any_some, hd, if_true]

/-- While no slot of the run is cancelled every tile is written as it is. -/
theorem State.liveTile_none_dead (hn : tile.slot = none) (hd : r.dead = []) : s.liveTile r o tile = some tile := by
  have row : ((tile.mapRow o.desc r.rows).any fun x => ([] : List Nat).contains x.slot) = false := by
    cases tile.mapRow o.desc r.rows <;> rfl
  simp only [State.liveTile, hn, hd, row, Bool.false_eq_true, ne_eq, not_true_eq_false, and_false, if_false]

end

/-- An operation whose tile `k` has been written: its CRC is in the operation's digest and in its slot's (R178-R180). -/
def OpFlight.written (o : OpFlight) (k : Nat) (tile : Tile) : OpFlight :=
  { o with
    tiles := o.tiles.eraseIdx k, digest := o.digest + tile.crc,
    slots := match tile.slot with
      | some i => tmod 0 o.slots i (· + tile.crc)
      | none => o.slots }

/-- Tile `k` of a run's operation written. -/
def State.putTile (s : State) (r : Run) (o : OpFlight) (k : Nat) (tile : Tile) : State :=
  (s.writeTile r.part tile).setRun (some { r with cur := some (o.written k tile) })

/-- What the tile-store code finds decides what becomes of a live tile (R45). -/
def State.tileEvent (s : State) (r : Run) (l : OpList) (o : OpFlight) (k : Nat) (tile : Tile) : TstEvent → State
  | .clean => s.putTile r o k tile
  | .single h => (s.putTile r o k tile).modArr h fun a => { a with tstCorrected := a.tstCorrected + 1 }
  | .reread h off => (s.report (0x044 + halfNo h) .corrected 1 off).putTile r o k tile
  | .lost h off =>
    if o.retried.contains (tile.index, tile.slot) then
      (s.report (0x044 + halfNo h) .contained 3 off).stopOp { r with cur := none } l o.desc stFaulted
    else ((s.report (0x044 + halfNo h) .corrected 2 off).countFreeRetry h).setRun (some { r with
      cur := some { o with retried := o.retried ++ [(tile.index, tile.slot)] } })

section

variable {s : State} {r : Run} {l : OpList} {o : OpFlight} {k : Nat} {tile tile' : Tile} (t : Nat)
  (up : s.runHalves.all s.halfUp = true) (hr : s.eng.run = some r) (hc : r.cur = some o)
  (hl : s.list r.part r.list = some l)
include up hr hc hl

theorem execTileWrite_live (hk : o.tiles[k]? = some tile') (live : (s.atTime t).liveTile r o tile' = some tile)
    (e : TstEvent) : execTileWrite t k e s = .next ((s.atTime t).tileEvent r l o k tile e) := by
  simp only [execTileWrite, State.atTime_runHalves, State.atTime_halfUp, State.atTime_list, State.atTime_eng, up, hr,
    hc, hl, hk, live, Bool.not_true, Bool.false_eq_true, if_false]
  cases e <;> rfl

/-- Nothing of a cancelled slot is written: its tile leaves the operation, whatever the tile-store code finds. -/
theorem execTileWrite_dead (hk : o.tiles[k]? = some tile) (gone : (s.atTime t).liveTile r o tile = none) (e : TstEvent) :
    execTileWrite t k e s =
      .next ((s.atTime t).setRun (some { r with cur := some { o with tiles := o.tiles.eraseIdx k } })) := by
  simp only [execTileWrite, State.atTime_runHalves, State.atTime_halfUp, State.atTime_list, State.atTime_eng, up, hr,
    hc, hl, hk, gone, Bool.not_true, Bool.false_eq_true, if_false]

theorem execOperationBoundary_closes (none_left : o.tiles = []) :
    execOperationBoundary t s = .next ((s.atTime t).closeOp r l o).retryPool := by
  simp only [execOperationBoundary, State.atTime_runHalves, State.atTime_halfUp, State.atTime_list, State.atTime_eng, up,
    hr, hc, hl, none_left, List.isEmpty_nil, Bool.not_true, Bool.false_eq_true, if_false, if_true]

end

/-- Settles O27: a live tile by what the tile-store code finds, a tile of a cancelled slot, and the boundary. -/
theorem tilesAndBoundaries : Obligations.TilesAndBoundaries := by
  intro t s r l o up hr hc hl
  refine ⟨fun k tile' tile hk live => ?live, fun k tile e hk gone => execTileWrite_dead t up hr hc hl hk gone e,
    fun tile => ⟨fun i => State.liveTile_slot, fun x => State.liveTile_mapRow, State.liveTile_none_dead⟩,
    execOperationBoundary_closes t up hr hc hl⟩
  have event := execTileWrite_live t up hr hc hl hk live
  refine ⟨event .clean, fun h => event (.single h), fun h off => event (.reread h off), fun h off first => ?_,
    fun h off again => ?_⟩
  · exact (event (.lost h off)).trans (by simp only [State.tileEvent, first, Bool.false_eq_true, if_false])
  · exact (event (.lost h off)).trans (by simp only [State.tileEvent, again, if_true])

end Sys2Proof.Machine
end

section
/-! PROOFS. Slab checks, the sentinels and the measured rate (R42-R51, R434, R435). -/

namespace Sys2Proof.Machine

/-! ### Slab checks (R42-R45) -/

section

variable {s : State} {h : Half} {col row k : Nat} {r : Run} {o : OpFlight}

/-- The operation in flight is one that a slab of a bound column works on while its tile `k` is to be written. -/
theorem State.slabBusy_of_bound (hr : s.eng.run = some r) (hc : r.cur = some o) (hk : k < o.tiles.length)
    (hb : (s.arr.get h).bound.contains col = true) : s.slabBusy h col k = some (r, o) := by
  simp only [State.slabBusy, hr, hc, hk, hb, and_self, if_true]

/-- A check failure of the row within the ten seconds before (R43). -/
def Arr.checkedBefore (a : Arr) (col row now : Nat) : Bool :=
  a.checks.any fun c => c.1 == col && c.2.1 == row && decide (now ≤ c.2.2 + 10 ^ 10)

theorem Arr.checkedBefore_iff {a : Arr} {now : Nat} : a.checkedBefore col row now = true ↔
    ∃ c ∈ a.checks, c.1 = col ∧ c.2.1 = row ∧ now ≤ c.2.2 + 10 ^ 10 := by
  simp [Arr.checkedBefore, and_assoc]

theorem Arr.checkedBefore_eq_false_iff {a : Arr} {now : Nat} : a.checkedBefore col row now = false ↔
    ∀ c ∈ a.checks, c.1 = col → c.2.1 = row → c.2.2 + 10 ^ 10 < now := by
  simp [Arr.checkedBefore]

/-- A check failure recorded, with those of the ten seconds before (R43). -/
def State.noteCheck (s : State) (h : Half) (col row : Nat) : State :=
  s.modArr h fun a => { a with
    checks := (a.checks.filter fun c => decide (s.now ≤ c.2.2 + 10 ^ 10)) ++ [(col, row, s.now)] }

theorem slabAddr_of_code (code : Bool) : slabAddr (b2n code) col row = (if code then 65536 else 0) + col * 256 + row % 32 := by
  cases code <;> simp [slabAddr, b2n]

section

variable (t : Nat) (hb : (s.atTime t).slabBusy h col k = some (r, o))
include hb

/-- A check failure is recorded; a first one is tried again, and the wave count is inexact from then on, the second of a row
within ten seconds fails the slab. -/
theorem execSlabCheckFail_busy (code : Bool) :
    let noted := (s.atTime t).noteCheck h col row
    execSlabCheckFail t h col row code k s = .next (if (s.arr.get h).checkedBefore col row (max s.now t) then
        noted.failSlab h col row (b2n code)
      else ((noted.countFreeRetry h).markInexact h false).report (srcArray h) .corrected 1 (slabAddr (b2n code) col row)) := by
  simp only [execSlabCheckFail, hb]
  rfl

theorem execSlabStallWatchdog_busy :
    execSlabStallWatchdog t h col row k s = .next ((s.atTime t).failSlab h col row 2) := by
  simp only [execSlabStallWatchdog, hb]

end

end

/-- Settles O29: whether the row has failed within ten seconds decides between the two rules of a check failure. -/
theorem slabChecks : Obligations.SlabChecks := by
  intro t h col row k s r o hr hc hk hbound
  have busy : (s.atTime t).slabBusy h col k = some (r, o) := State.slabBusy_of_bound hr hc hk hbound
  refine ⟨fun code => ⟨fun first => ?_, fun again => ?_⟩, execSlabStallWatchdog_busy t busy⟩
  · have no : ¬ (s.arr.get h).checkedBefore col row (max s.now t) = true :=
      Bool.eq_false_iff.1 (Arr.checkedBefore_eq_false_iff.2 first)
    rw [← slabAddr_of_code]
    exact (execSlabCheckFail_busy t busy code).trans (congrArg _ (if_neg no))
  · exact (execSlabCheckFail_busy t busy code).trans (congrArg _ (if_pos (Arr.checkedBefore_iff.2 again)))

/-! ### Tables -/

/-- A write of a value that is not the default is read at its key and nowhere else, whatever the table's form. -/
theorem tget_tset_of_ne_default {α : Type} [DecidableEq α] {d v : α} (hv : v ≠ d) (m : Tbl α) (k k' : Nat) :
    tget d (tset d m k v) k' = if k' = k then v else tget d m k' := by
  induction m with
  | nil => grind [tset, tget]
  | cons e m ih => grind [tset, tget]

/-- Values written side by side from key `b` on, none the default, are each read again: the one of a key written, or that a
key already held. -/
theorem tget_foldl_tset {α : Type} [DecidableEq α] {d : α} (g : Nat → α) (b i : Nat) (l : List Nat)
    (hg : ∀ j ∈ l, g j ≠ d) : ∀ m : Tbl α, (i ∈ l ∨ tget d m (b + i) = g i) →
    tget d (l.foldl (fun m j => tset d m (b + j) (g j)) m) (b + i) = g i := by
  induction l with
  | nil => exact fun m held => held.resolve_left List.not_mem_nil
  | cons j l ih =>
    intro m held
    refine ih (fun k hk => hg k (List.mem_cons_of_mem _ hk)) _ ?_
    rw [tget_tset_of_ne_default (hg j List.mem_cons_self)]
    by_cases e : i = j
    · exact .inr (by rw [if_pos (congrArg (b + ·) e), e])
    · rw [if_neg fun h => e (Nat.add_left_cancel h)]
      exact held.imp_left fun h => (List.mem_cons.1 h).resolve_left e

/-! ### Sentinels and the measured rate (R47, R48, R51, R434, R435) -/

theorem slowdownOf_of_pos {base count : Nat} (hc : 0 < count) :
    slowdownOf base count = min 65535 ((base - count) * 10000 / count) := by
  simp only [slowdownOf, Nat.ne_of_gt hc, if_false]

/-- Since when a column has been slow, from the columns' slowdowns and twice their median (R48). -/
def slowMark (sent : Tbl Nat) (m2 now : Nat) (m : Tbl (Option Nat)) (i : Nat) : Tbl (Option Nat) :=
  if m2 + 2000 < 2 * tget 0 sent i then
    (if (tget none m i).isSome then m else tset none m i (some now))
  else tset none m i none

theorem Arr.sentinels_eq (a : Arr) (slow : List Nat) (now : Nat) :
    let cols := (List.range 33).filter fun i => decide (i < slow.length)
    let sent := cols.foldl (fun m i => tset 0 m i (min 65535 (slow.getD i 0))) a.sent
    let m2 := median2 ((a.inState .good).map fun i => tget 0 sent i)
    a.sentinels slow now = { a with sent := sent, slowSince := cols.foldl (slowMark sent m2 now) a.slowSince } := by
  intro cols sent m2
  refine congrArg (fun mark => { a with sent := sent, slowSince := cols.foldl mark a.slowSince })
    (funext fun m => funext fun i => ?_)
  dsimp only [slowMark]
  cases tget none m i <;> rfl

section

variable (s : State) (h : Half)

theorem State.slowdowns_getElem? {counts : List (Nat × Int)} {i : Nat} (hi : i < counts.length) :
    (s.slowdowns h counts)[i]? = (counts[i]?).map fun c =>
      slowdownOf (Config.sentinelBaseline (halfNo h) i (s.pwr.volts.get h) c.2) c.1 := by
  simp [State.slowdowns, hi]

@[simp] theorem State.recordSentinels_arr (f : Nat → Bool) : (s.recordSentinels h f).arr = s.arr := rfl

/-- The ledger holds the slowdown of every column that answers to the test. -/
theorem State.recordSentinels_sentinels {f : Nat → Bool} (h0 : f 0 = false) {i : Nat} (hi : i < 33)
    (hf : f (tget 0 (s.arr.get h).sent i) = true) :
    tget 0 (s.recordSentinels h f).led.sentinels (33 * halfNo h + i) = tget 0 (s.arr.get h).sent i := by
  have written : i ∈ (List.range 33).filter fun i => f (tget 0 (s.arr.get h).sent i) :=
    List.mem_filter.2 ⟨List.mem_range.2 hi, hf⟩
  refine tget_foldl_tset (fun i => tget 0 (s.arr.get h).sent i) _ _ _ (fun j hj e => ?_) _ (.inl written)
  obtain ⟨-, hj⟩ := List.mem_filter.1 hj
  simp [e, h0] at hj

variable (t : Nat)

/-- The plan is made anew when the sample sets SENTINEL_WARN. -/
theorem execSentinelSample_eq (counts : List (Nat × Int)) :
    let v := ((s.atTime t).modArr h fun a => a.sentinels (s.slowdowns h counts) (max s.now t)).recordSentinels h
      fun v => decide (800 < v)
    execSentinelSample t h counts s = .next (if (s.arr.get h).sentinelWarn = false ∧ (v.arr.get h).sentinelWarn = true ∧
      s.running = true then v.replan else v) := by
  intro v
  have run : decide (v.start.phase = .running) = s.running := rfl
  refine congrArg Host.Outcome.next (ite_congr (propext ?_) (fun _ => rfl) fun _ => rfl)
  change (!(s.arr.get h).sentinelWarn && (v.arr.get h).sentinelWarn && decide (v.start.phase = .running)) = true ↔ _
  rw [run]
  simp [and_assoc]

end

section

variable {s : State} {h : Half} {col : Nat} (t : Nat)

/-- A good column slow for an hour goes into reserve at once when no run is in the arrays and all 33 columns are good. -/
theorem execProactiveReserve_slow {since : Nat} (en : (s.arr.get h).remapEn = true)
    (slow : tget none (s.arr.get h).slowSince col = some since) (hour : since + 3600 * 10 ^ 9 ≤ max s.now t)
    (good : (s.arr.get h).col col = .good) (hc : col < 32) (all : 33 ≤ ((s.arr.get h).inState .good).length)
    (up : (s.arr.get h).half = .inService) (idle : s.eng.run = none) :
    execProactiveReserve t h col s = .next ((((s.atTime t).modArr h fun a =>
      ({ a with cols := tset .good a.cols col .reserve } : Arr).bind).oculusUpdate).report (srcArray h) .corrected 5
        (col * 2 ^ 8)) := by
  simp only [execProactiveReserve, State.atTime_arr, State.atTime_eng, State.atTime_now, en, slow, hour, good,
    hc, all, up, idle, beq_self_eq_true, decide_true, Bool.and_self, if_true, Option.any_none, Bool.false_eq_true, if_false]

theorem execProactiveReserve_disabled (en : (s.arr.get h).remapEn = false) :
    execProactiveReserve t h col s = .next (s.atTime t) := by
  simp [execProactiveReserve, en]

end

/-- Settles O30: the rate, the slowdowns, the sample with what it enters in the ledger, and the slow column. -/
theorem sentinelsAndRate : Obligations.SentinelsAndRate := by
  intro t h s
  refine ⟨fun v => rfl, fun base count => slowdownOf_of_pos, fun counts => ?sample,
    fun col since => execProactiveReserve_slow t, fun col => execProactiveReserve_disabled t⟩
  refine ⟨fun i => s.slowdowns_getElem? h, ?_⟩
  have sample := execSentinelSample_eq s h t counts
  simp only [Arr.sentinels_eq] at sample
  exact ⟨sample, .inr ⟨_, rfl⟩, fun i hi big => State.recordSentinels_sentinels _ h (by decide) hi (by simpa using big)⟩

end Sys2Proof.Machine
end

section
/-! PROOFS. Operations resolved, started and stopped (R29, R63-R101, R107, R154, R420). -/

namespace Sys2Proof.Machine

/-! ### How resolve ends -/

section

variable {s u : State} {r : Run} {l : OpList} {d : Desc} {kind : Nat} {ups : List Upset} {fetched : Bool}
  (turn : s.turn kind = some (r, l, d)) (fetch : (s.strike ups).fetchDesc r = (u, fetched))
include turn fetch

/-- A droop's hold leaves the operation in turn, neither started nor stopped (R420). -/
theorem State.enter_held (held : u.eng.hold = true) : s.enter kind ups = .error u := by
  simp only [State.enter, turn, fetch, held, if_true]

variable (free : u.eng.hold = false)
include free

theorem State.enter_lost (lost : fetched = false) : s.enter kind ups = .error (u.stopOp r l d stFaulted) := by
  simp only [State.enter, turn, fetch, free, lost, Bool.false_eq_true, if_false, Bool.not_false, if_true]

variable {g : Option GroupSnap} (got : fetched = true) (group : u.opGroup r d = .ok g)
include got group

theorem State.enter_refused {st : Nat} (range : u.rangeRefusal r.part d (d.rowsOf r.rows) = some st) :
    s.enter kind ups = .error (u.stopOp r l d st) := by
  simp only [State.enter, turn, fetch, free, got, group, range, Bool.not_true, Bool.false_eq_true, if_false]

/-- Poison in an operand stops every kind but those that meet it by rules of their own (R154). -/
theorem State.enter_poisoned (range : u.rangeRefusal r.part d (d.rowsOf r.rows) = none) (inside : u.outsideScratch r d = false)
    (gather : kind ≠ kGather) (xsend : kind ≠ kXsend)
    (poison : (u.fetch r d).readsPoison r.part d (d.rowsOf r.rows) = true) :
    s.enter kind ups = .error ((u.fetch r d).stopOp r l d stFaulted) := by
  have spoils : (kind != kGather && kind != kXsend && (u.fetch r d).readsPoison r.part d (d.rowsOf r.rows)) = true := by
    simp [gather, xsend, poison]
  simp only [State.enter, turn, fetch, free, got, group, range, inside, spoils, Bool.not_true, Bool.false_eq_true, if_false,
    if_true]

end

/-! ### What a resolved operation comes to -/

@[simp] theorem State.setRun_eng_run (s : State) (x : Option Run) : (s.setRun x).eng.run = x := rfl
@[simp] theorem State.setRun_setRun (s : State) (x y : Option Run) : (s.setRun x).setRun y = s.setRun y := rfl

section

variable {s u : State} {r : Run} {l : OpList} {d : Desc} {ups : List Upset} {g : Option GroupSnap} {tiles : List Tile}
  {waves : Both Nat} {bad : List Half} (t : Nat)

section

variable {kind : Nat} (f : State → Run → Desc → OpRes)

theorem State.runOp_of_enter_error (stopped : (s.atTime t).enter kind ups = .error u) : s.runOp t kind ups f = .next u := by
  simp only [State.runOp, stopped]

variable (entered : (s.atTime t).enter kind ups = .ok (u, r, l, d, g))
include entered

theorem State.runOp_starts (res : f u r d = .ok tiles waves bad) :
    s.runOp t kind ups f = .next (u.startOp r d tiles waves bad) := by
  simp only [State.runOp, entered, res, State.perform]

theorem State.runOp_refused {st : Nat} (res : f u r d = .refuse st) : s.runOp t kind ups f = .next (u.stopOp r l d st) := by
  simp only [State.runOp, entered, res, State.perform]

end

/-- The last DRAFT of a section leaves its tokens with the run, each plus one (R98, R127). -/
theorem execDraft_starts (entered : (s.atTime t).enter kDraft ups = .ok (u, r, l, d, g))
    (res : (u.tokenRes r.part d r.rows).1 = .ok tiles waves bad) :
    let toks := (u.tokenRes r.part d r.rows).2
    execDraft t ups s = .next (u.startOp { r with
      samples := (List.zip (List.range toks.length) toks).foldl (fun m y => tset 0 m y.1 (y.2 + 1)) [] } d tiles waves bad) := by
  simp only [execDraft, entered, res, State.perform]

theorem execAttend_starts (entered : (s.atTime t).enter kAttend ups = .ok (u, r, l, d, g))
    (res : u.attendRes r.part d r.rows r.dead = .ok tiles waves bad) :
    execAttend t ups s = .next ((u.noteTent r d).startOp r d tiles waves bad) := by
  simp only [execAttend, entered, res]

theorem execMatmul_starts_alone (peers : List Contribution)
    (entered : (s.atTime t).enter kMatmul ups = .ok (u, r, l, d, none))
    (res : u.matmulRes r.part d r.rows none [] = .ok tiles waves bad) :
    execMatmul t peers ups s = .next (u.startOp r d tiles waves bad) := by
  simp only [execMatmul, entered, State.groupOp, res, State.perform]

theorem execExactReduce_starts_alone (peers : List Contribution)
    (entered : (s.atTime t).enter kExactReduce ups = .ok (u, r, l, d, none))
    (res : u.exactReduceRes r.part d r.rows none [] = .ok tiles waves bad) :
    execExactReduce t peers ups s = .next (u.startOp r d tiles waves bad) := by
  simp only [execExactReduce, entered, State.groupOp, res, State.perform]

/-- A SCATTER starts as any operation does, with the order in which its rows arrive (R99). -/
theorem execScatter_starts {order : List Nat} (entered : (s.atTime t).enter kScatter ups = .ok (u, r, l, d, g))
    (res : u.scatterRes r.part d r.rows order r.dead = .ok tiles waves []) :
    execScatter t order ups s = .next (u.setRun (some { u.runAhead r d with
      cur := some { desc := d, tiles := tiles, digest := 0, waves := waves, inexact := false, retried := [], slots := [],
                    poison := [], faulted := false, pausedFor := none, order := order } })) := by
  simp only [execScatter, entered, res, State.perform, State.startOp, List.foldl_nil, List.isEmpty_nil, Bool.not_true,
    State.setRun_eng_run, State.setRun_setRun, Option.map_some]

end

/-- Settles O23: each kind starts by the rule for its form; a COPY is held, refused, poisoned or lost as resolve ends. That a
descriptor lost in every copy faults its run is the model's choice (notes/assumptions, row 84). -/
theorem operationsStart : Obligations.OperationsStart := by
  refine ⟨fun t ups s u r l d g tiles waves bad => ?starts, fun t ups s u r l d => ⟨?held, ?refused, ?lost, ?values⟩⟩
  case starts =>
    exact ⟨State.runOp_starts t fun v q e => v.normRes q.part e q.rows,
      State.runOp_starts t fun v q e => v.actRes q.part e q.rows,
      State.runOp_starts t fun v q e => v.ropeRes q.part e q.rows,
      State.runOp_starts t fun v q e => v.gatherRes q.part e q.rows,
      State.runOp_starts t fun v q e => v.copyRes q.part e q.rows,
      State.runOp_starts t fun v q e => (v.tokenRes q.part e q.rows).1,
      execDraft_starts t, execAttend_starts t, execMatmul_starts_alone t, execExactReduce_starts_alone t,
      fun _ => execScatter_starts t⟩
  case held =>
    exact fun ok turn fetch held => State.runOp_of_enter_error t _ (State.enter_held turn fetch held)
  case refused =>
    exact fun turn fetch free group =>
      ⟨fun st range => State.runOp_of_enter_error t _ (State.enter_refused turn fetch free rfl group range),
        fun range inside poison => State.runOp_of_enter_error t _
          (State.enter_poisoned turn fetch free rfl group range inside (by decide) (by decide) poison)⟩
  case lost =>
    exact fun turn fetch free => State.runOp_of_enter_error t _ (State.enter_lost turn fetch free rfl)
  case values =>
    exact fun st entered => State.runOp_refused t (fun v q e => v.actRes q.part e q.rows) entered

end Sys2Proof.Machine
end

section
/-! PROOFS. Runs entering the arrays, operations within a group, DIGEST_MARK, LOOP and FENCE (R81, R87, R92, R100-R104, R122,
R405). -/

namespace Sys2Proof.Machine

/-! ### How a run begins (R81, R93, R122) -/

section

variable (s : State) (t : Nat)

@[simp] theorem State.atTime_waitingSteps : (s.atTime t).waitingSteps = s.waitingSteps := rfl
@[simp] theorem State.atTime_runComing : (s.atTime t).runComing = s.runComing := rfl
@[simp] theorem State.atTime_freeComing : (s.atTime t).freeComing = s.freeComing := rfl
@[simp] theorem State.atTime_slot : (s.atTime t).slot = s.slot := rfl
@[simp] theorem State.atTime_partRead : (s.atTime t).partRead = s.partRead := rfl
@[simp] theorem State.atTime_partPoison : (s.atTime t).partPoison = s.partPoison := rfl

end

/-- The snapshots of a run's groups bound, in turn (R402). -/
def State.bindGroups (s : State) (p : Fin 4) (gs : List GroupSnap) : State := gs.foldl (fun s g => s.bindGroup p g) s

section

variable {s : State} {r : Run} {l : OpList}

theorem State.begin_fits (fits : tooLong l r.groups = none) : s.begin r l = s.setRun (some r) := by
  simp only [State.begin, fits]

theorem State.begin_tooLong {i : Nat} (long : tooLong l r.groups = some i) :
    s.begin r l = s.endRun { r with refusedAt := some (opsBefore l.descs i, stBadParam) } stBadParam := by
  simp only [State.begin, long]

/-- A fresh run whose list has a target section is at its first descriptor. -/
theorem Run.desc_newRun (target : 0 < l.targetLen) (p : Fin 4) (list number : Nat) (acc : Option Acc) (ms : List Member)
    (rows : List RowEnt) (gs : List GroupSnap) : ∃ d, (newRun p list number acc ms rows gs).desc l = some d := by
  have first : 0 < l.descs.length := Nat.lt_of_lt_of_le target (List.takeWhile_prefix _).length_le
  exact ⟨l.descs[0], by simp [Run.desc, newRun, target, first]⟩

theorem State.advance_of_desc (more : ∃ d, r.desc l = some d) : s.advance r l = s.setRun (some r) := by
  obtain ⟨d, hd⟩ := more
  simp only [State.advance, hd]

end

/-! ### RUN_FORM (R81, R122) -/

section

variable {s : State} {l : OpList}

/-- A waiting OPLIST_RUN binds its groups and leaves the queue; its length decides between the start and the refusal. -/
theorem State.startList_eq {q : RunReq} (loaded : s.list q.acc.part q.list = some l) :
    let u := s.settleGroups q.acc.part l
    let gs := u.snapshots q.acc.part l
    let v := (u.bindGroups q.acc.part gs).modEng fun e => { e with
      waiting := e.waiting.filter fun x => x.acc.id ≠ q.acc.id }
    let r := newRun q.acc.part q.list q.number (some q.acc) [] [] gs
    s.startList q = if (tooLong l gs).isSome then v.begin r l else v.wake.advance r l := by
  simp only [State.startList, loaded]
  rfl

/-- The waiting steps of one list that pass their checks enter as one run, the next of their partition, their row map
written. -/
theorem State.formSteps_eq {p : Fin 4} {list : Nat} {u : State} {m : Member} {ms : List Member} {rows : List RowEnt}
    (gathered : s.gather (s.waitingSteps.filter fun x => (s.slot x.1).owner == some p && (s.slot x.1).list == list) [] [] =
      (u, m :: ms, rows)) (loaded : u.list p list = some l) :
    let number := ((u.part p).runs + 1) % 2 ^ 32
    let w := u.settleGroups p l
    let gs := w.snapshots p l
    let v := (w.bindGroups p gs).modPart p fun x => { x with runs := number }
    s.formSteps p list = (v.writeRowMap p ((m :: ms).map (·.rowmap)) rows 0 0x40000).wake.begin
      (newRun p list number none (m :: ms) rows gs) l := by
  simp only [State.formSteps, gathered, loaded]
  rfl

variable (t : Nat) (can : s.canRun = true) (idle : s.eng.run = none) (calm : s.pwr.goal = none)
include can idle calm

theorem execRunForm_list {q : RunReq} {rest : List RunReq} (waiting : s.eng.waiting = q :: rest)
    (no_steps : s.waitingSteps = []) (no_run : s.runComing q.acc.id = false)
    (no_free : s.freeComing q.acc.part q.acc.id = false) :
    execRunForm t s = .next ((s.atTime t).startList q) := by
  simp only [execRunForm, State.atTime_canRun, State.atTime_eng, State.atTime_pwr, State.atTime_waitingSteps,
    State.atTime_runComing, State.atTime_freeComing, can, idle, calm, waiting, no_steps, no_run, no_free, Option.isSome_none,
    Option.any_none, Bool.not_true, Bool.or_self, Bool.false_eq_true, if_false]

theorem execRunForm_steps {i : Nat} {r : StepReq} {rest : List (Nat × StepReq)} (no_list : s.eng.waiting = [])
    (waiting : s.waitingSteps = (i, r) :: rest) (no_run : s.runComing r.acc.id = false)
    (no_free : s.freeComing r.acc.part r.acc.id = false) :
    execRunForm t s = .next ((s.atTime t).formSteps r.acc.part (s.slot i).list) := by
  simp only [execRunForm, State.atTime_canRun, State.atTime_eng, State.atTime_pwr, State.atTime_waitingSteps,
    State.atTime_runComing, State.atTime_freeComing, State.atTime_slot, can, idle, calm, waiting, no_list, no_run, no_free,
    Option.isSome_none, Option.any_none, Bool.not_true, Bool.or_self, Bool.false_eq_true, if_false]

end

/-- Settles O22: the list or the steps are the oldest run, and its length decides between the two rules of its start. That a run
too long ends BAD_PARAM at the index its operation would have had is the model's choice (notes/assumptions, row 78). -/
theorem runsEnterTheArrays : Obligations.RunsEnterTheArrays := by
  intro t s can idle calm
  refine ⟨fun q rest l waiting no_steps no_run no_free loaded _ target => ?list,
    fun i r rest l u m ms rows no_list waiting no_run no_free gathered loaded fits => ?steps⟩
  case list =>
    have enters := execRunForm_list t can idle calm waiting no_steps no_run no_free
    rw [State.startList_eq (s := s.atTime t) loaded] at enters
    refine ⟨fun fits => enters.trans (congrArg _ ?_), fun i long => enters.trans (congrArg _ ?_)⟩
    · rw [fits]
      exact State.advance_of_desc (Run.desc_newRun target ..)
    · rw [long]
      exact State.begin_tooLong long
  case steps =>
    have enters := execRunForm_steps t can idle calm no_list waiting no_run no_free
    rw [State.formSteps_eq gathered loaded] at enters
    exact enters.trans (congrArg _ (State.begin_fits fits))

/-! ### Messages and group-wide operations (R87, R92, R100, R101, R405) -/

section

variable {s u : State} {r : Run} {l : OpList} {d : Desc} {g : GroupSnap} {ups : List Upset} {peers cs : List Contribution}
  {tiles : List Tile} {waves : Both Nat} {bad : List Half} {v : State} {q : Run}

/-- A group's count of the messages sent to a rank with a tag moved on (R403). -/
def State.countSent (s : State) (p : Fin 4) (group key : Nat) : State :=
  { s with fab := { s.fab with
    groups := tmod GroupSt.init s.fab.groups (256 * p.val + group) fun x => { x with sent := tmod 0 x.sent key (· + 1) } } }

/-- A group's count of the messages taken from a rank with a tag moved on (R403). -/
def State.countGot (s : State) (p : Fin 4) (group key : Nat) : State :=
  { s with fab := { s.fab with
    groups := tmod GroupSt.init s.fab.groups (256 * p.val + group) fun x => { x with got := tmod 0 x.got key (· + 1) } } }

/-- A group-wide operation starts once every member's share has come, its own sent before (R405). -/
theorem State.groupOp_starts {type len : Nat} {own : List Byte} {f : List Contribution → OpRes}
    (sent : s.sendWide r g type 0 own = (v, q)) (come : v.collect q.part g type len peers = some cs)
    (res : f cs = .ok tiles waves bad) :
    s.groupOp r l d (some g) type len own peers f = (v.endWide q.part g).startOp q d tiles waves bad := by
  simp only [State.groupOp, sent, come, res]

variable (t : Nat)

theorem execXsend_sends (entered : (s.atTime t).enter kXsend ups = .ok (u, r, l, d, some g)) :
    let key := d.par 0 * 2 ^ 32 + d.par 1
    let bad := u.partPoison r.part d.a d.n
    let v := u.sendTo r.part g (d.par 0) 1 (d.par 1) (tget 0 (u.group r.part.val g.group).sent key)
      (u.partRead r.part d.a d.n) bad
    execXsend t ups s = .next ((v.countSent r.part g.group key).startOp { r with degraded := r.degraded + bad.length } d
      (rowTiles 3 0 none (fun _ => .send) (u.partRead r.part d.a d.n)) noWaves []) := by
  simp only [execXsend, entered]
  rfl

section

variable (entered : (s.atTime t).enter kXrecv [] = .ok (u, r, l, d, some g))
include entered

/-- A message without poison is all the destination's bytes. -/
theorem execXrecv_takes {b : List Byte} (come : u.claim r.part g (d.par 0) 1 (d.par 1)
      (tget 0 (u.group r.part.val g.group).got (d.par 0 * 2 ^ 32 + d.par 1)) d.n = .got b []) :
    let key := d.par 0 * 2 ^ 32 + d.par 1
    let v := u.unmatch r.part g (d.par 0) true (d.par 1) (tget 0 (u.group r.part.val g.group).got key)
    execXrecv t s = .next ((v.countGot r.part g.group key).startOp r d (rowTiles 0 0 none (fun o => .part (d.d + o)) b)
      noWaves []) := by
  simp only [execXrecv, entered, come, State.startOp, State.setRun_eng_run, State.setRun_setRun, Option.map_some, List.map_nil]
  rfl

theorem execXrecv_waits (none_yet : u.claim r.part g (d.par 0) 1 (d.par 1)
      (tget 0 (u.group r.part.val g.group).got (d.par 0 * 2 ^ 32 + d.par 1)) d.n = .wait) :
    execXrecv t s = .next (u.setRun (some { r with sentTo := [(r.index, g.group)] })).retryPool := by
  simp only [execXrecv, entered, none_yet]

end

theorem execXreduce_groupOp (order : List Nat) (entered : (s.atTime t).enter kXreduce ups = .ok (u, r, l, d, some g)) :
    let len := d.rowsOf r.rows * rowBytes d.fmtA d.n
    execXreduce t peers order ups s = .next (u.groupOp r l d (some g) 3 len (u.partRead r.part d.a len) peers
      fun cs => u.xreduceRes r.part d r.rows g cs order) := by
  simp only [execXreduce, entered]

theorem execMatmul_groupOp (entered : (s.atTime t).enter kMatmul ups = .ok (u, r, l, d, some g)) :
    let m := d.rowsOf r.rows
    execMatmul t peers ups s = .next (u.groupOp r l d (some g) 2 (2 * (m + d.n)) (maximaBytes (u.ownMaxima r.part d m)) peers
      (u.matmulRes r.part d r.rows (some g))) := by
  simp only [execMatmul, entered, Option.isSome_some, if_true]

theorem execExactReduce_groupOp (entered : (s.atTime t).enter kExactReduce ups = .ok (u, r, l, d, some g)) :
    let len := d.rowsOf r.rows * d.n * 32
    execExactReduce t peers ups s = .next (u.groupOp r l d (some g) 4 len (u.partRead r.part d.a len) peers
      (u.exactReduceRes r.part d r.rows (some g))) := by
  simp only [execExactReduce, entered, Option.isSome_some, if_true]

end

/-- Settles O24: the messages by their rules, and each group-wide kind by the one rule of its start. That every member's whole
share is sent directly to each other member is the model's choice (notes/assumptions, row 97). -/
theorem groupOperations : Obligations.GroupOperations := by
  intro t ups s u r l d g key
  refine ⟨execXsend_sends t, fun b entered => execXrecv_takes t entered, execXrecv_waits t,
    fun peers cs order tiles waves bad v q entered sent come res => ?xreduce,
    fun peers cs tiles waves bad v q => ⟨fun entered sent come res => ?matmul, fun entered sent come res => ?exact⟩⟩
  case xreduce =>
    exact (execXreduce_groupOp t order entered).trans (congrArg _ (State.groupOp_starts sent come res))
  case matmul =>
    exact (execMatmul_groupOp t entered).trans (congrArg _ (State.groupOp_starts sent come res))
  case exact =>
    exact (execExactReduce_groupOp t entered).trans (congrArg _ (State.groupOp_starts sent come res))

/-! ### DIGEST_MARK and LOOP (R102, R104) -/

section

variable {s u : State} {r : Run} {l : OpList} {d : Desc} (t : Nat)

theorem execDigestMark_records {g : Option GroupSnap} (entered : (s.atTime t).enter kMark [] = .ok (u, r, l, d, g)) :
    execDigestMark t s = .next ((u.partWrite r.part d.d (r.markRecord d)).startOp r d [] noWaves []) := by
  simp only [execDigestMark, entered]

theorem execLoop_enters (turn : (s.atTime t).turn kLoop = some (r, l, d)) (fetch : (s.atTime t).fetchDesc r = (u, true)) :
    execLoop t s = .next (u.setRun (some (r.enterLoop d))) := by
  simp only [execLoop, turn, fetch, if_true]

end

/-! ### FENCE (R103) -/

section

variable {s : State} {r : Run} {l : OpList} {d : Desc} {f : FenceWait} (semaphore : f.mode = 1)
include semaphore

theorem State.fenceMet_reached (reached : f.value ≤ ofLe (s.partRead r.part f.addr 4)) : s.fenceMet r f = .got [] [] := by
  simp only [State.fenceMet, semaphore, reached, if_true]

theorem State.fenceMet_below (below : ofLe (s.partRead r.part f.addr 4) < f.value) : s.fenceMet r f = .wait := by
  simp only [State.fenceMet, semaphore, Nat.not_le.2 below, if_true, if_false]

/-- A FENCE on a semaphore that has reached its value completes; it has no group to count it. -/
theorem State.tryFence_reached (reached : f.value ≤ ofLe (s.partRead r.part f.addr 4)) :
    s.tryFence r l d f = s.startOp { r with fence := none } d [] noWaves [] := by
  have no_group : ¬ f.mode = 2 := by omega
  simp only [State.tryFence, State.fenceMet_reached semaphore reached, no_group, if_false]

theorem State.tryFence_below (below : ofLe (s.partRead r.part f.addr 4) < f.value) :
    s.tryFence r l d f = s.setRun (some { r with fence := some f }) := by
  simp only [State.tryFence, State.fenceMet_below semaphore below]

variable (t : Nat) (waits : (s.atTime t).atFence = some (r, l, d, f))
include waits

/-- A semaphore read good is tried as the FENCE tried it. -/
theorem execFenceSatisfied_semaphore (can : s.canRun = true) (clean : s.mem.upset = [])
    (good : s.partPoison r.part f.addr 4 = []) : execFenceSatisfied t s = .next ((s.atTime t).tryFence r l d f) := by
  have settled : (s.atTime t).settlePart r.part f.addr 4 = s.atTime t := State.settlePart_clean (u := s.atTime t) clean _ _ _
  simp only [execFenceSatisfied, State.atTime_canRun, can, waits, semaphore, settled, State.atTime_partPoison, good,
    List.isEmpty_nil, Bool.not_true, Bool.false_eq_true, and_false, if_false, if_true]

theorem execFenceTimeout_passed (limited : f.limit ≠ 0) (passed : f.since + 1000 * f.limit < max s.now t)
    (below : ofLe (s.partRead r.part f.addr 4) < f.value) :
    execFenceTimeout t s = .next (((s.atTime t).spend r).stopOp { r with fence := none } l d stBusy) := by
  have unmet : (s.atTime t).fenceMet r f = .wait := State.fenceMet_below semaphore below
  simp only [execFenceTimeout, waits, State.atTime_now, limited, passed, unmet, ne_eq, not_false_eq_true, and_self, if_true]

end

section

variable {s u : State} {r : Run} {l : OpList} {d : Desc} {g : Option GroupSnap} (t : Nat)

theorem execFence_order (entered : (s.atTime t).enter kFence [] = .ok (u, r, l, d, g)) (mode : d.mode = 0) :
    execFence t s = .next (u.startOp r d [] noWaves []) := by
  simp only [execFence, entered, mode, if_true]

theorem execFence_alone (entered : (s.atTime t).enter kFence [] = .ok (u, r, l, d, none)) (mode : d.mode ≠ 0) :
    execFence t s = .next (u.tryFence r l d ⟨d.mode, d.x, d.par 0, d.group, u.now, d.par 1⟩) := by
  simp only [execFence, entered, mode, if_false]

end

/-- Settles O25: each operation by its rule; a FENCE on a semaphore, in turn or waiting, by whether the value is reached. -/
theorem controlOperations : Obligations.ControlOperations := by
  refine ⟨fun t s u r l d => ⟨fun g => execDigestMark_records t, execLoop_enters t, fun g => execFence_order t,
    fun entered mode => ?fence⟩, fun t s r l d f waits semaphore =>
    ⟨fun can clean good reached => ?satisfied, execFenceTimeout_passed semaphore t waits⟩⟩
  case fence =>
    have tried := execFence_alone t entered (by omega)
    refine ⟨fun reached => tried.trans (congrArg _ (State.tryFence_reached mode reached)),
      fun below => tried.trans ?_⟩
    rw [State.tryFence_below mode below, mode]
  case satisfied =>
    exact (execFenceSatisfied_semaphore semaphore t waits can clean good).trans
      (congrArg _ (State.tryFence_reached semaphore reached))

end Sys2Proof.Machine
end

section
/-! PROOFS. Acceptance: each stage's refusal, the packets accepted, and the generations that stage 8 asks for (R110, R184, R228,
R246-R248, R253, R254, R459). -/

namespace Sys2Proof.Machine

/-! ### Refusals and what acceptance keeps (R246, R253, R254) -/

/-- A packet put last among the accepted ones. -/
def State.putAccepted (s : State) (a : Acc) : State := { s with gal := { s.gal with accepted := s.gal.accepted ++ [a] } }

section

variable {s : State} {a : Acc} {r : Refused}

/-- STALE_ROLE is counted for the partition before it is replied. -/
theorem State.refuse_stale (stale : r.status = stStale) :
    s.refuse a r = (s.modPart a.part fun x => { x with stale := satTo 0xFFFFFFFF (x.stale + 1) }).reply a stStale
      (r.stage + r.off * 2 ^ 16) r.d1 0 := by
  simp only [State.refuse, stale, if_true]

/-- Any other refusal is its reply alone. -/
theorem State.refuse_other (other : r.status ≠ stStale) :
    s.refuse a r = s.reply a r.status (r.stage + r.off * 2 ^ 16) r.d1 0 := by
  simp only [State.refuse, other, if_false]

/-- Stages 1 to 5 refuse for Gallery, whoever the packet is meant for. -/
theorem State.accept_gate_refuses (refused : s.gate a = some r) : s.accept a = s.refuse { a with keep := false } r := by
  simp only [State.accept, refused]

variable (form : s.gate a = none)
include form

theorem State.accept_keep (keep : a.keep = true) :
    s.accept a = { s with gal := { s.gal with keepQ := s.gal.keepQ ++ [a] } } := by
  simp only [State.accept, form, keep, if_true]

variable (own : a.keep = false)
include own

theorem State.accept_gate2_refuses (refused : s.gate2 a = some r) : s.accept a = s.refuse a r := by
  simp only [State.accept, form, own, refused, Bool.false_eq_true, if_false]

variable (now_fits : s.gate2 a = none)
include now_fits

theorem State.accept_gate3_refuses (refused : s.gate3 a = some r) : s.accept a = s.refuse a r := by
  simp only [State.accept, form, own, now_fits, refused, Bool.false_eq_true, if_false]

variable (resources : s.gate3 a = none)
include resources

/-- A packet that passes every stage waits among the accepted ones: an OPLIST_RUN with its number, a FAULT_INJECT with the
time, a SEQ_CANCEL with NEW_TURN having raised its slot's generation. -/
theorem State.accept_passed :
    s.accept a =
      let n := ((s.part a.part).runs + 1) % 2 ^ 32
      let u := if a.opcode = 0x0402 then (s.modPart a.part fun x => { x with runs := n }).putAccepted { a with mark := n }
        else s.putAccepted (if a.opcode = 0x0A30 then { a with mark := s.now } else a)
      if a.opcode = 0x0311 ∧ bitOf (a.par 16 1) 0 = true then u.modSlot a.slotField fun x => { x with gen := nextGen x.gen }
      else u := by
  have not_keeps : ¬ a.keep = true := by simp [own]
  simp only [State.accept, form, if_neg not_keeps, now_fits, resources]
  by_cases run : a.opcode = 0x0402
  · simp only [if_pos run]
    rfl
  by_cases inject : a.opcode = 0x0A30
  · simp only [if_neg run, if_pos inject]
    rfl
  · simp only [if_neg run, if_neg inject]
    rfl

end

/-! ### Generations (R110, R228, R247) -/

section

variable {s : State} {a : Acc} {r : CmdRow}

/-- The safe state refuses SET_POWER_STATE alone. -/
theorem State.not_safe_refused (safe : s.start.safe = false ∨ a.opcode ≠ 0x0110) :
    ¬ (s.start.safe = true ∧ a.opcode = 0x0110) := by
  rcases safe with h | h <;> simp [h]

variable (row : cmdRow a.opcode = some r) (security : r.security.contains s.sec.st.code = true)
  (power : r.power.contains s.powerSeen = true) (safe : s.start.safe = false ∨ a.opcode ≠ 0x0110)
include row security power safe

/-- Past the security and the power state, a command that names no slot is judged by its partition's generation. -/
theorem State.gate2_partition_stale (no_slot : a.isSlot = false) (old : a.genField ≠ (s.part a.part).gen.toNat) :
    s.gate2 a = some ⟨stStale, 8, 12, (s.part a.part).gen.toNat + 2 ^ 16⟩ := by
  simp only [State.gate2, row, security, power, State.not_safe_refused safe, no_slot, old, ne_eq,
    not_false_eq_true, Bool.not_true, Bool.false_eq_true, or_self, if_false, if_true]

/-- One that names a slot of its partition is judged by the slot's. -/
theorem State.gate2_slot_stale (slot : a.isSlot = true) (owned : (s.slot a.slotField).owner = some a.part)
    (held : (s.slot a.slotField).st ≠ .free) (old : a.genField ≠ (s.slot a.slotField).gen.toNat) :
    s.gate2 a = some ⟨stStale, 8, 12, (s.slot a.slotField).gen.toNat⟩ := by
  simp only [State.gate2, row, security, power, State.not_safe_refused safe, slot, owned, held, old, ne_eq,
    not_true_eq_false, not_false_eq_true, Bool.not_true, Bool.false_eq_true, or_self, if_false, if_true]

end

theorem nextGen_ne_zero (g : Hword) : nextGen g ≠ 0 := by
  unfold nextGen
  split
  · decide
  · bv_omega

theorem nextGen_of_ne {g : Hword} (more : g ≠ 0xFFFF) : nextGen g = g + 1 := if_neg more

theorem nextGen_wraps : nextGen 0xFFFF = 1 := rfl

/-- Settles O15: the first stage that refuses, or none, decides; stage 8 by the generation it asks for. -/
theorem acceptanceStages : Obligations.AcceptanceStages := by
  refine ⟨fun s a => ⟨State.accept_keep, fun form own now_fits resources => ?passed, fun r refused other => ?form,
    fun r form own refused stale => ?generation, fun r form own now_fits refused other => ?resources⟩,
    fun s a r row security power safe => ⟨State.gate2_partition_stale row security power safe,
      State.gate2_slot_stale row security power safe, fun g => ⟨nextGen_ne_zero g, nextGen_of_ne, nextGen_wraps⟩⟩⟩
  case passed =>
    have passed := State.accept_passed form own now_fits resources
    refine ⟨fun cancel run inject => passed.trans ?plain, fun inject => passed.trans ?injected,
      fun run => passed.trans ?numbered, fun cancel => passed.trans ?cancelled⟩
    case plain =>
      simp only [cancel, run, inject, false_and, if_false]
      rfl
    case injected =>
      simp only [inject, Nat.reduceEqDiff, false_and, if_false, if_true]
      rfl
    case numbered =>
      simp only [run, Nat.reduceEqDiff, false_and, if_false, if_true]
      rfl
    case cancelled =>
      simp only [cancel, Nat.reduceEqDiff, true_and, if_false]
      rfl
  case form => exact (State.accept_gate_refuses refused).trans (State.refuse_other other)
  case generation => exact (State.accept_gate2_refuses form own refused).trans (State.refuse_stale stale)
  case resources => exact (State.accept_gate3_refuses form own now_fits refused).trans (State.refuse_other other)

end Sys2Proof.Machine
end

section
/-! PROOFS. Slots opened and restored, steps queued, and slots cancelled, closed and saved (R134, R137-R140, R248, R260,
R268-R274). -/

namespace Sys2Proof.Machine

/-! ### Opening (R268) -/

section

variable {s : State} {a : Acc}

/-- With both halves in service and the pages free, the FREE slot named or found is opened. -/
theorem State.tryOpen_free {sl : Slot} {i : Nat} (slot : s.freeSlot a.slotField = some i)
    (w : s.arr.west.half = .inService) (e : s.arr.east.half = .inService)
    (pages : let need := s.kvNeed sl.target sl.drafter sl.maxPos sl.tentPos; s.freeNow need.1 need.2 = true) :
    s.tryOpen a sl = s.openSlot a i sl := by
  simp only [State.tryOpen, slot, State.halvesMissing_none w e, pages, if_true]

end

/-! ### Restoring (R138-R140, R269) -/

/-- The slot that a SEQ_RESTORE opens from an image's header and body (R138, R269). -/
def Acc.restored (a : Acc) (h body : List Byte) : Slot :=
  let y := imageSlot h
  { y with
    list := a.par 16 1, rowmap := a.par 32 8, scratch := a.par 40 8, scratchLen := a.par 48 4, genDefault := a.par 52 1,
    tokens := (List.range (y.commit - y.histStart)).foldl
      (fun m j => tset 0 m (y.histStart + j) (le body (4 * j) 4)) ([] : Tbl Nat) }

/-- An image's KV put into the pages of a slot opened from it. -/
def State.loadKv (s : State) (i : Nat) (bs : List Byte) : State :=
  if (s.slot i).st = .opened then
    s.loadParts i ((s.slot i).imageParts (s.slot i).target 0 (s.slot i).kvLen ++
      (s.slot i).imageParts (s.slot i).drafter (s.slot i).target.layers (s.slot i).dkv) bs
  else s

/-- A good image, header and body, stands where a SEQ_RESTORE looks for one, and reads without poison (R140, R154). -/
structure State.HoldsImage (s : State) (a : Acc) (h body : List Byte) : Prop where
  header : s.partRead a.part (a.par 56 8) 256 = h
  rest : s.partRead a.part (a.par 56 8 + 256) (le h 68 8) = body
  mapped_header : s.mappedRange a.part (a.par 56 8) 256 = true
  mapped : s.mappedRange a.part (a.par 56 8) (256 + le h 68 8) = true
  good_header : s.partPoison a.part (a.par 56 8) 256 = []
  good : s.partPoison a.part (a.par 56 8) (256 + le h 68 8) = []
  header_ok : headerOk h = true
  crc : le h 76 8 = (crc64 0 body).toNat

section

variable {s : State} {a : Acc} (clean : s.mem.upset = [])
include clean

theorem State.firstPoison_none {p : Fin 4} {x n : Nat} (good : s.partPoison p x n = []) :
    s.firstPoison p x n = (s, none) := by
  simp only [State.firstPoison, State.settlePart_clean clean, good, List.head?_nil]

/-- A good image opens a slot, into whose pages its KV goes. -/
theorem State.restore_good (w : s.arr.west.half = .inService) (e : s.arr.east.half = .inService) {h body : List Byte}
    (image : s.HoldsImage a h body) (scratch : (imageSlot h).draftMax ≠ 0 ∨ a.par 40 8 = 0 ∧ a.par 48 4 = 0)
    (pages : let y := imageSlot h; let need := s.kvNeed y.target y.drafter y.maxPos y.tentPos
      s.mayTake a.part need.1 need.2 = true ∧ s.freeNow need.1 need.2 = true)
    {i : Nat} (slot : s.freeSlot a.slotField = some i) :
    s.restore a = (s.openSlot a i (a.restored h body)).loadKv i
      (body.drop (4 * ((imageSlot h).commit - (imageSlot h).histStart))) := by
  obtain ⟨may, free⟩ := pages
  have scratch_ok : ((imageSlot h).draftMax != 0 || (a.par 40 8 == 0 && a.par 48 4 == 0)) = true := by simpa using scratch
  have opens := State.tryOpen_free (sl := a.restored h body) slot w e free
  simp only [State.restore, State.halvesMissing_none w e, image.mapped_header, State.firstPoison_none clean image.good_header,
    image.header, image.header_ok, image.mapped, State.firstPoison_none clean image.good, image.rest, image.crc, scratch_ok,
    may, slot, ne_eq, not_true_eq_false, Bool.not_true, Bool.false_eq_true, or_self, if_false]
  exact congrArg (State.loadKv · i _) opens

end

/-- Settles O19: each command passes its checks, and opens its slot by the rule of opening. -/
theorem slotsOpen : Obligations.SlotsOpen := by
  refine fun t id i s u a => ⟨fun ready slot w e pages => ?opening, fun ready w e clean => ?restoring⟩
  case opening =>
    exact (State.act_of_ready ready _).trans (congrArg _ (State.tryOpen_free slot w e pages))
  case restoring =>
    intro src h n body y x need mapped_header header_ok mapped good_header good crc scratch may pages slot v
    have image : u.HoldsImage a h body := ⟨rfl, rfl, mapped_header, mapped, good_header, good, header_ok, crc⟩
    exact (State.act_of_ready ready _).trans (congrArg _ (State.restore_good clean w e image scratch ⟨may, pages⟩ slot))

/-! ### Freeing a slot (R111, R118, R248) -/

/-- What the freeing of a slot makes of an accepted command: one on the slot finds no sequence there (R248). -/
def Acc.closedOn (b : Acc) (p : Fin 4) (i : Nat) : Acc :=
  if b.part = p ∧ b.slotField = i ∧ b.isSlot = true then { b with closed := true } else b

section

variable (s : State) (p : Fin 4) (i : Nat)

theorem State.freeSlotOf_accepted : (s.freeSlotOf p i).gal.accepted = s.gal.accepted.map (·.closedOn p i) := rfl

theorem State.freeSlotOf_slots : (s.freeSlotOf p i).slots =
    tmod Slot.init (tmod Slot.init s.slots i fun x => { x with frames := ⟨[], []⟩ }) i fun x =>
      { Slot.init with gen := x.gen, commits := x.commits } := rfl

variable {s i}

/-- The slot freed keeps its generation and its count of commits alone. -/
theorem State.freeSlotOf_slot (wf : twf Slot.init s.slots = true) :
    (s.freeSlotOf p i).slot i = { Slot.init with gen := (s.slot i).gen, commits := (s.slot i).commits } := by
  simp only [State.slot, State.freeSlotOf_slots, tget_tmod, twf_tmod, wf]

theorem State.freeSlotOf_slot_ne (wf : twf Slot.init s.slots = true) {k : Nat} (other : k ≠ i) :
    (s.freeSlotOf p i).slot k = s.slot k := by
  simp only [State.slot, State.freeSlotOf_slots, tget_tmod_ne, twf_tmod, wf, other, ne_eq, not_false_eq_true]

variable {p}

theorem Acc.closedOn_of_not {b : Acc} (elsewhere : b.part ≠ p ∨ b.slotField ≠ i ∨ b.isSlot = false) :
    b.closedOn p i = b := by
  refine if_neg ?_
  rintro ⟨part, slot, names⟩
  rcases elsewhere with h | h | h
  · exact h part
  · exact h slot
  · simp [names] at h

/-- The mark changes neither whose command it is nor what it names, so a command on the slot is one that was marked. -/
theorem Acc.closedOn_closed {b : Acc} (part : (b.closedOn p i).part = p) (slot : (b.closedOn p i).slotField = i)
    (names : (b.closedOn p i).isSlot = true) : (b.closedOn p i).closed = true := by
  by_cases on : b.part = p ∧ b.slotField = i ∧ b.isSlot = true
  · simp only [Acc.closedOn, on, and_self, if_true]
  · simp only [Acc.closedOn, on, if_false] at part slot names
    exact absurd ⟨part, slot, names⟩ on

end

/-! ### SEQ_STEP, SEQ_CANCEL, SEQ_CLOSE (R134, R260, R270, R271, R273) -/

theorem b2n_decide (c : Prop) [Decidable c] : b2n (decide c) = if c then 1 else 0 := by
  simp only [b2n, decide_eq_true_eq]

section

variable {s u : State} {t id : Nat} {a : Acc}

theorem execSeqStep_open (taken : s.Taken t id 0x0310 a u)
    (open_ : (u.slot a.slotField).st = .opened ∨ (u.slot a.slotField).st = .stepping) :
    execSeqStep t id s = .next (u.wake.modSlot a.slotField fun x => { x with
      st := .stepping, steps := insertById (·.acc.id) (a.step (u.slot a.slotField)) x.steps }) := by
  refine (State.actOn_of_taken taken _).trans ?_
  simp only [open_, if_true]

theorem execSeqCancel_closed (taken : s.Taken t id 0x0311 a u) (closed : a.closed = true) :
    execSeqCancel t id s = .next (u.reply a stOK 0 0 0) := by
  refine (State.actOn_of_taken taken _).trans ?_
  simp only [closed, true_or, if_true]

theorem execSeqClose_closed (taken : s.Taken t id 0x0302 a u) (closed : a.closed = true) :
    execSeqClose t id s = .next (u.reply a stOK 0 0 0) := by
  refine (State.actOn_of_taken taken _).trans ?_
  simp only [closed, true_or, if_true]

variable (kept : a.closed = false) (owned : (u.slot a.slotField).owner = some a.part)
  (held : (u.slot a.slotField).st ≠ .free)
include kept owned held

theorem execSeqCancel_held (taken : s.Taken t id 0x0311 a u) :
    let v := u.cancelWork a.slotField fun k => decide (k < a.id)
    execSeqCancel t id s = .next (v.1.reply a stOK (v.1.slot a.slotField).commit
      ((v.1.slot a.slotField).gen.toNat + 2 ^ 16 * (if a.mark < (v.1.slot a.slotField).commits then 1 else 0)) v.2) := by
  refine (State.actOn_of_taken taken _).trans ?_
  simp only [kept, owned, held, b2n_decide, Bool.false_eq_true, ne_eq, not_true_eq_false, or_self, if_false]

theorem execSeqClose_held (taken : s.Taken t id 0x0302 a u) :
    let v := u.cancelWork a.slotField fun _ => true
    execSeqClose t id s =
      .next ((v.1.freeSlotOf a.part a.slotField).reply a stOK (v.1.slot a.slotField).commit v.2 0) := by
  refine (State.actOn_of_taken taken _).trans ?_
  simp only [kept, owned, held, Bool.false_eq_true, ne_eq, not_true_eq_false, or_self, if_false]

end

/-! ### SEQ_SAVE (R137, R274) -/

/-- The parts of a slot's KV in the order of its image (R139). -/
def Slot.allParts (sl : Slot) : List (Half × Nat × Nat) :=
  sl.imageParts sl.target 0 sl.kvLen ++ sl.imageParts sl.drafter sl.target.layers sl.dkv

/-- The body of a slot's image: the tokens from HIST_START, then the KV (R139). -/
def State.savedBody (s : State) (i : Nat) : List Byte :=
  let sl := s.slot i
  let from_ := histFrom sl.commit sl.kvLen sl.dkv
  ((List.range (sl.commit - from_)).flatMap fun j => leBytes 4 (tget 0 sl.tokens (from_ + j))) ++
    sl.allParts.flatMap fun x => s.kvRead i x.1 x.2.1 x.2.2

section

variable {s : State} {a : Acc}

/-- Memory without upset words has nothing to correct in a slot's pages. -/
theorem State.settleKv_clean (clean : s.mem.upset = []) (i : Nat) (h : Half) (off n : Nat) : s.settleKv i h off n = s :=
  State.settle_clean clean _

theorem State.foldl_settleKv_clean (clean : s.mem.upset = []) (i : Nat) (l : List (Half × Nat × Nat)) :
    l.foldl (fun s x => s.settleKv i x.1 x.2.1 x.2.2) s = s := by
  induction l with
  | nil => rfl
  | cons x l ih => rw [List.foldl_cons, State.settleKv_clean clean, ih]

theorem State.saveSlot_closed (closed : a.closed = true) : s.saveSlot a = s.reply a stBusy 0 0 0 := by
  simp only [State.saveSlot, closed, true_or, if_true]

/-- An OPEN slot whose pages read good is written out: header and body, nothing else. -/
theorem State.saveSlot_good {n : Nat} (kept : a.closed = false) (owned : (s.slot a.slotField).owner = some a.part)
    (open_ : (s.slot a.slotField).st = .opened) (clean : s.mem.upset = []) (w : s.arr.west.half = .inService)
    (e : s.arr.east.half = .inService) (length : 256 + (s.slot a.slotField).bodyBytes = n) (room : n ≤ a.par 24 8)
    (mapped : s.mappedRange a.part (a.par 16 8) n = true)
    (good : ∀ x ∈ (s.slot a.slotField).allParts, s.kvPoison a.slotField x.1 x.2.1 x.2.2 = false) :
    s.saveSlot a = (s.partWrite a.part (a.par 16 8)
      ((s.slot a.slotField).imageHeader (s.savedBody a.slotField).length (crc64 0 (s.savedBody a.slotField)) ++
        s.savedBody a.slotField)).reply a stOK (n % 2 ^ 32) (n / 2 ^ 32) 0 := by
  have none_lost : ((s.slot a.slotField).allParts.any fun x => s.kvPoison a.slotField x.1 x.2.1 x.2.2) = false :=
    List.any_eq_false.2 fun x hx => by simp [good x hx]
  simp only [Slot.allParts] at none_lost
  simp only [State.saveSlot, kept, owned, open_, length, Nat.not_lt.2 room, mapped, State.halvesMissing_none w e,
    State.foldl_settleKv_clean clean, none_lost, State.savedBody, Slot.allParts, Bool.false_eq_true, ne_eq, not_true_eq_false,
    or_self, if_false, Bool.not_true]

end

/-- Settles O20: each command by its rule for a slot that is held; a freed slot by what freeing it leaves. What a command finds
on a slot that was closed before it acts is the model's choice (notes/assumptions, row 81). -/
theorem sequenceCommands : Obligations.SequenceCommands := by
  refine fun t id s u a => ⟨execSeqStep_open, fun taken kept owned held => execSeqCancel_held kept owned held taken,
    fun taken kept owned held => execSeqClose_held kept owned held taken, fun p j wf => ?freed, fun closed => ?closed,
    fun taken kept owned open_ clean w e => ?save⟩
  case freed =>
    refine ⟨State.freeSlotOf_slot p wf, fun k other => State.freeSlotOf_slot_ne p wf other, fun b hb part slot names => ?marked,
      fun b hb elsewhere => ?left⟩
    case marked =>
      rw [State.freeSlotOf_accepted] at hb
      obtain ⟨c, -, rfl⟩ := List.mem_map.1 hb
      exact Acc.closedOn_closed part slot names
    case left =>
      rw [State.freeSlotOf_accepted]
      exact List.mem_map.2 ⟨b, hb, Acc.closedOn_of_not elsewhere⟩
  case closed =>
    exact ⟨fun taken => execSeqCancel_closed taken closed, fun taken => execSeqClose_closed taken closed,
      fun taken => (State.actOn_of_taken taken _).trans (congrArg _ (State.saveSlot_closed closed))⟩
  case save =>
    intro sl parts n from_ body room mapped good
    exact (State.actOn_of_taken taken _).trans
      (congrArg _ (State.saveSlot_good kept owned open_ clean w e rfl room mapped good))

end Sys2Proof.Machine
end

section
/-! PROOFS. The check code of a word: every error of at most two places has a syndrome of its own (R152, R153). -/

namespace Sys2Proof.Machine

/-! ### Numbers that differ -/

/-- Whether the numbers of a list differ from each other and from the bits set in `seen`, in one pass that marks each number
met. -/
def distinctFrom : Nat → List Nat → Bool
  | _, [] => true
  | seen, x :: l => !seen.testBit x && distinctFrom (seen ||| 2 ^ x) l

theorem nodup_of_distinctFrom {l : List Nat} : ∀ {seen : Nat}, distinctFrom seen l = true →
    l.Nodup ∧ ∀ x ∈ l, seen.testBit x = false := by
  induction l with
  | nil => simp
  | cons x l ih =>
    intro seen h
    obtain ⟨new, rest⟩ : seen.testBit x = false ∧ distinctFrom (seen ||| 2 ^ x) l = true := by simpa [distinctFrom] using h
    obtain ⟨nodup, marked⟩ := ih rest
    have apart : ∀ y ∈ l, seen.testBit y = false ∧ x ≠ y := fun y hy => by
      simpa [Nat.testBit_or, Nat.testBit_two_pow] using marked y hy
    exact ⟨List.nodup_cons.2 ⟨fun hx => (apart x hx).2 rfl, nodup⟩,
      List.forall_mem_cons.2 ⟨new, fun y hy => (apart y hy).1⟩⟩

/-- What has different values along a list has different values at different members. -/
theorem eq_of_nodup_map {α β : Type} {f : α → β} {l : List α} (h : (l.map f).Nodup) {x y : α} (hx : x ∈ l) (hy : y ∈ l)
    (same : f x = f y) : x = y := by
  induction l with
  | nil => cases hx
  | cons z l ih =>
    obtain ⟨new, rest⟩ := List.nodup_cons.1 h
    rcases List.mem_cons.1 hx, List.mem_cons.1 hy with ⟨rfl | xl, rfl | yl⟩
    · rfl
    · exact absurd (same ▸ List.mem_map_of_mem yl) new
    · exact absurd (same ▸ List.mem_map_of_mem xl) new
    · exact ih rest xl yl

/-! ### Syndromes add up -/

theorem syndromeTable_getD {i : Nat} (hi : i < 107) : syndromeTable.getD i 0 = bitSyndrome i := by
  simp [syndromeTable, hi]

/-- What one place adds to a syndrome. -/
def addPlace (m : BitVec 107) (y : BitVec 15) (i : Nat) : BitVec 15 := if m.getLsbD i then y ^^^ bitSyndrome i else y

theorem syndrome_eq_foldl (m : BitVec 107) : syndrome m = (List.range 107).foldl (addPlace m) 0 := by
  rw [syndrome, syndromeTable, ← List.map_prod_left_eq_zip, List.foldl_map]
  rfl

theorem addPlace_xor (m n : BitVec 107) (a b : BitVec 15) (i : Nat) :
    addPlace (m ^^^ n) (a ^^^ b) i = addPlace m a i ^^^ addPlace n b i := by
  have twice : (a ^^^ bitSyndrome i) ^^^ (b ^^^ bitSyndrome i) = a ^^^ b := calc
    _ = (a ^^^ b) ^^^ (bitSyndrome i ^^^ bitSyndrome i) := by ac_rfl
    _ = a ^^^ b := by rw [BitVec.xor_self, BitVec.xor_zero]
  simp only [addPlace, BitVec.getLsbD_xor]
  cases m.getLsbD i <;> cases n.getLsbD i
  · rfl
  · exact BitVec.xor_assoc a b _
  · exact (BitVec.xor_assoc a b _).trans ((congrArg (a ^^^ ·) (BitVec.xor_comm b _)).trans (BitVec.xor_assoc a _ b).symm)
  · exact twice.symm

/-- The syndrome of two error patterns together is the sum of theirs. -/
theorem syndrome_xor (m n : BitVec 107) : syndrome (m ^^^ n) = syndrome m ^^^ syndrome n := by
  have key : ∀ (l : List Nat) (a b : BitVec 15),
      l.foldl (addPlace (m ^^^ n)) (a ^^^ b) = l.foldl (addPlace m) a ^^^ l.foldl (addPlace n) b := by
    intro l
    induction l with
    | nil => intro a b; rfl
    | cons i l ih => intro a b; simp only [List.foldl_cons, addPlace_xor, ih]
  simp only [syndrome_eq_foldl]
  exact key (List.range 107) 0 0

/-- The syndrome of an error in one place is the place's. -/
theorem syndrome_twoPow {i : Nat} (hi : i < 107) : syndrome (BitVec.twoPow 107 i) = bitSyndrome i := by
  have key : ∀ (l : List Nat) (a : BitVec 15), l.Nodup →
      l.foldl (addPlace (BitVec.twoPow 107 i)) a = if i ∈ l then a ^^^ bitSyndrome i else a := by
    intro l
    induction l with
    | nil => simp
    | cons k l ih =>
      intro a hl
      obtain ⟨hk, hl⟩ := List.nodup_cons.1 hl
      rw [List.foldl_cons, ih _ hl]
      by_cases same : i = k
      · subst same; simp [addPlace, hi, hk]
      · simp [addPlace, same]
  simpa [hi] using (syndrome_eq_foldl _).trans (key (List.range 107) 0 List.nodup_range)

/-! ### Errors of at most two places -/

/-- The syndrome of an error in the places of a list. -/
def placesSyndrome (l : List Nat) : BitVec 15 := l.foldr (fun i y => bitSyndrome i ^^^ y) 0

/-- No place, each place, and each two places, the lower one first. -/
def fewPlaces : List (List Nat) :=
  [] :: ((List.range 107).map fun i => [i]) ++ (List.range 107).flatMap fun i => (List.range i).map fun j => [j, i]

/-- One pass over the 5,779 of them, a closed list, finds no syndrome twice. -/
theorem fewPlaces_syndromes_distinct : distinctFrom 0 (fewPlaces.map fun l => (placesSyndrome l).toNat) = true := by
  decide +kernel

/-- Two errors of at most two places with one syndrome are one error. -/
theorem placesSyndrome_inj {l l' : List Nat} (h : l ∈ fewPlaces) (h' : l' ∈ fewPlaces)
    (same : placesSyndrome l = placesSyndrome l') : l = l' :=
  eq_of_nodup_map (nodup_of_distinctFrom fewPlaces_syndromes_distinct).1 h h' (congrArg BitVec.toNat same)

theorem nil_mem_fewPlaces : [] ∈ fewPlaces := by simp [fewPlaces]

section

variable {i j : Nat}

theorem single_mem_fewPlaces (hi : i < 107) : [i] ∈ fewPlaces := by simp [fewPlaces, hi]

theorem pair_mem_fewPlaces (hi : i < 107) (hj : j < i) : [j, i] ∈ fewPlaces :=
  List.mem_append_right _ (List.mem_flatMap.2 ⟨i, List.mem_range.2 hi, List.mem_map.2 ⟨j, List.mem_range.2 hj, rfl⟩⟩)

theorem mem_pairsWith {y : BitVec 15} : (j, i) ∈ pairsWith y ↔ i < 107 ∧ j < i ∧ placesSyndrome [j, i] = y := by
  simp only [pairsWith, List.mem_flatMap, List.mem_map, List.mem_filter, List.mem_range, Prod.mk.injEq, beq_iff_eq]
  constructor
  · rintro ⟨i, hi, j, ⟨hj, sum⟩, rfl, rfl⟩
    rw [syndromeTable_getD hi, syndromeTable_getD (Nat.lt_trans hj hi)] at sum
    exact ⟨hi, hj, by simpa [placesSyndrome, BitVec.xor_comm] using sum⟩
  · rintro ⟨hi, hj, sum⟩
    refine ⟨i, hi, j, ⟨hj, ?_⟩, rfl, rfl⟩
    rw [syndromeTable_getD hi, syndromeTable_getD (Nat.lt_trans hj hi)]
    simpa [placesSyndrome, BitVec.xor_comm] using sum

/-! ### Decoding (Table 6-5) -/

variable {m : BitVec 107}

theorem eccDecode_of_syndrome_zero (h : syndrome m = 0) : eccDecode m = .clean := by
  simp [eccDecode, h]

/-- An error of one place is found there. -/
theorem eccDecode_single (hi : i < 107) (h : syndrome m = placesSyndrome [i]) :
    eccDecode m = if isLocBit i then .address else .fix (BitVec.twoPow 107 i) 1 := by
  have nonzero : syndrome m ≠ 0 := fun h0 =>
    absurd (placesSyndrome_inj (single_mem_fewPlaces hi) nil_mem_fewPlaces (h.symm.trans h0)) (by simp)
  have found : ((List.range 107).find? fun k => syndromeTable.getD k 0 == syndrome m) = some i := by
    cases hf : (List.range 107).find? fun k => syndromeTable.getD k 0 == syndrome m with
    | none =>
      have missed := List.find?_eq_none.1 hf i (List.mem_range.2 hi)
      rw [syndromeTable_getD hi, h] at missed
      exact absurd (by simp [placesSyndrome]) missed
    | some k =>
      have hk : k < 107 := List.mem_range.1 (List.mem_of_find?_eq_some hf)
      have same := List.find?_some hf
      rw [syndromeTable_getD hk, beq_iff_eq, h] at same
      have := placesSyndrome_inj (single_mem_fewPlaces hk) (single_mem_fewPlaces hi) (by simpa [placesSyndrome] using same)
      simpa using this
  simp only [eccDecode, nonzero, if_false, found]

/-- An error of two places is found in them. -/
theorem eccDecode_double (hi : i < 107) (hj : j < i) (h : syndrome m = placesSyndrome [j, i]) :
    eccDecode m = if isLocBit i || isLocBit j then .address else .fix (BitVec.twoPow 107 i ^^^ BitVec.twoPow 107 j) 2 := by
  have pair := pair_mem_fewPlaces hi hj
  have nonzero : syndrome m ≠ 0 := fun h0 =>
    absurd (placesSyndrome_inj pair nil_mem_fewPlaces (h.symm.trans h0)) (by simp)
  have no_single : ((List.range 107).find? fun k => syndromeTable.getD k 0 == syndrome m) = none := by
    rw [List.find?_eq_none]
    intro k hk same
    have hk := List.mem_range.1 hk
    rw [syndromeTable_getD hk, beq_iff_eq, h] at same
    exact absurd (placesSyndrome_inj (single_mem_fewPlaces hk) pair (by simpa [placesSyndrome] using same)) (by simp)
  simp only [eccDecode, nonzero, if_false, no_single]
  cases hp : pairsWith (syndrome m) with
  | nil => exact absurd (mem_pairsWith.2 ⟨hi, hj, h.symm⟩) (by simp [hp])
  | cons p rest =>
    obtain ⟨j', i'⟩ := p
    obtain ⟨hi', hj', sum⟩ := mem_pairsWith.1 (hp ▸ List.mem_cons_self : (j', i') ∈ pairsWith (syndrome m))
    obtain ⟨rfl, rfl⟩ : j' = j ∧ i' = i := by
      simpa using placesSyndrome_inj (pair_mem_fewPlaces hi' hj') pair (sum.trans h)
    rfl

end

/-- Settles O11: the errors named have syndromes of their own, so each is found in its places. -/
theorem checkCodeCorrects : Obligations.CheckCodeCorrects := by
  have single {i : Nat} (hi : i < 107) : syndrome (BitVec.twoPow 107 i) = placesSyndrome [i] := by
    simp [syndrome_twoPow hi, placesSyndrome]
  refine ⟨eccDecode_of_syndrome_zero ?zero, fun i hi stored => ?one, fun i hi loc => ?location, fun i hi j hj si sj => ?two⟩
  case zero => simpa using syndrome_xor 0 0
  case one => simp [eccDecode_single hi (single hi), stored]
  case location => simp [eccDecode_single hi (single hi), loc]
  case two =>
    have sum : syndrome (BitVec.twoPow 107 j ^^^ BitVec.twoPow 107 i) = placesSyndrome [j, i] := by
      simp [syndrome_xor, syndrome_twoPow hi, syndrome_twoPow (Nat.lt_trans hj hi), placesSyndrome]
    rw [eccDecode_double hi hj sum, BitVec.xor_comm]
    simp [si, sj]

end Sys2Proof.Machine
end

section
/-! PROOFS. Writes of a word and its poison, the canonical form of device memory, frames zeroed (R153, R155, R167). -/

namespace Sys2Proof.Machine

/-! ### A range taken out of a table -/

section

variable {α : Type} [DecidableEq α] {d : α} {m : Tbl α}

/-- Of a table in the canonical form, the entries whose keys answer to a test are read as before, the others as unlisted. -/
theorem tget_filter (wf : twf d m = true) (p : Nat → Bool) (k : Nat) :
    tget d (m.filter fun e => p e.1) k = if p k then tget d m k else d := by
  have rising := ((twf_iff d m).1 wf).1
  clear wf
  induction m with
  | nil => simp
  | cons e r ih =>
    obtain ⟨above, rising⟩ := List.pairwise_cons.1 rising
    have rest := ih rising
    rcases Nat.lt_trichotomy k e.1 with lt | rfl | gt
    · have below : ∀ x ∈ e :: r, k < x.1 := List.forall_mem_cons.2 ⟨lt, fun x hx => Nat.lt_trans lt (above x hx)⟩
      rw [tget_of_lt d _ k below, tget_of_lt d _ k fun x hx => below x (List.mem_filter.1 hx).1]
      simp
    · cases hp : p e.1
      · simp [hp, rest]
      · simp [hp, tget]
    · cases hp : p e.1 <;> simp [hp, rest, tget, Nat.ne_of_gt gt, Nat.not_lt_of_gt gt]

/-- A range taken out reads as unlisted, every other key as before. -/
theorem tget_tclear (wf : twf d m = true) (lo hi k : Nat) :
    tget d (tclear m lo hi) k = if lo ≤ k ∧ k < hi then d else tget d m k := by
  rw [tclear, tget_filter wf fun x => !(decide (lo ≤ x) && decide (x < hi))]
  by_cases inside : lo ≤ k ∧ k < hi
  · simp [inside]
  · rw [if_neg inside, if_pos (by simp; omega)]

/-- The same for one of the blocks of `n` keys each. -/
theorem tget_tclear_block (wf : twf d m = true) {n : Nat} (hn : 0 < n) (f k : Nat) :
    tget d (tclear m (f * n) (f * n + n)) k = if k / n = f then d else tget d m k := by
  have block : (f * n ≤ k ∧ k < f * n + n) ↔ k / n = f := by
    rw [Nat.div_eq_iff hn]; omega
  simp only [tget_tclear wf, block]

end

/-! ### Writes of a word (R155) -/

section

variable {m : Memory} {w off : Nat} {bs : List Byte}

theorem writeInWord_whole (whole : bs.length = 8) : writeInWord m w off bs = { m with
    cells := writeBytes 0 m.cells (8 * w) bs, poison := tset false m.poison w (framePoison m w),
    upset := tset 0 m.upset w 0, badLoc := tset false m.badLoc w false, fc := uncache m.fc w } := by
  simp [writeInWord, whole]

theorem writeInWord_part_of_poisoned (part : bs.length < 8) (lost : poisoned m w = true) : writeInWord m w off bs = m := by
  simp [writeInWord, Nat.ne_of_lt part, lost]

theorem writeInWord_part (part : bs.length < 8) (clean : poisoned m w = false) (located : tget false m.badLoc w = false) :
    writeInWord m w off bs = { m with cells := writeBytes 0 m.cells (8 * w + off) bs, fc := uncache m.fc w } := by
  simp [writeInWord, Nat.ne_of_lt part, clean, located]

theorem poisoned_writeInWord_whole (wf : m.wf = true) (whole : bs.length = 8) :
    poisoned (writeInWord m w off bs) w = false := by
  obtain ⟨-, poison, -⟩ := m.wf_iff.1 wf
  rw [writeInWord_whole whole, poisoned, tget_tset false m.poison w _ poison]
  exact Bool.xor_self _

/-- A write of a word leaves the bytes of every other as they were. -/
theorem tget_cells_writeInWord (wf : m.wf = true) (fits : off + bs.length ≤ 8) {a : Nat} (other : a / 8 ≠ w) :
    tget 0 (writeInWord m w off bs).cells a = tget 0 m.cells a := by
  obtain ⟨cells, -⟩ := m.wf_iff.1 wf
  unfold writeInWord
  split
  · exact tget_writeBytes_ne 0 bs m.cells (8 * w) a cells (by omega)
  · split
    · rfl
    · exact tget_writeBytes_ne 0 bs m.cells (8 * w + off) a cells (by omega)

/-- A write of a word leaves the poison of every other as it was. -/
theorem poisoned_writeInWord_ne (wf : m.wf = true) {v : Nat} (other : v ≠ w) :
    poisoned (writeInWord m w off bs) v = poisoned m v := by
  obtain ⟨-, poison, -⟩ := m.wf_iff.1 wf
  unfold writeInWord
  split
  · exact congrArg (· ^^ framePoison m v) (tget_tset_ne false m.poison w v _ poison other)
  · split <;> rfl

end

/-- Settles O12: a whole write, a part of a poisoned word and a part of a good one, each by its rule. -/
theorem wordWritesAndPoison : Obligations.WordWritesAndPoison := by
  intro m w off bs wf fits
  obtain ⟨cells, -⟩ := m.wf_iff.1 wf
  refine ⟨fun whole => ⟨poisoned_writeInWord_whole wf whole, ?whole⟩, writeInWord_part_of_poisoned,
    fun part clean located => ?part, fun a => tget_cells_writeInWord wf fits, fun v => poisoned_writeInWord_ne wf⟩
  case whole =>
    simpa only [writeInWord_whole whole, whole] using readBytes_writeBytes 0 m.cells (8 * w) bs cells
  case part =>
    rw [writeInWord_part part clean located]
    exact ⟨readBytes_writeBytes 0 m.cells (8 * w + off) bs cells, clean⟩

/-! ### Frames zeroed (R167) -/

section

variable {m : Memory} (wf : m.wf = true) (f : Nat)

theorem zeroFrame_eq (m : Memory) : zeroFrame m f = { m with
    cells := tclear m.cells (f * 2 ^ 21) (f * 2 ^ 21 + 2 ^ 21), poison := tclear m.poison (f * 2 ^ 18) (f * 2 ^ 18 + 2 ^ 18),
    fpoison := tset false m.fpoison f false, upset := tclear m.upset (f * 2 ^ 18) (f * 2 ^ 18 + 2 ^ 18),
    badLoc := tclear m.badLoc (f * 2 ^ 18) (f * 2 ^ 18 + 2 ^ 18), fc := uncacheFrame m.fc f } := by
  have lo : f * 2 ^ 21 / 8 = f * 2 ^ 18 := by omega
  have hi : (f * 2 ^ 21 + 2 ^ 21) / 8 = f * 2 ^ 18 + 2 ^ 18 := Nat.div_eq_of_eq_mul_left (by decide) (by omega)
  simp only [zeroFrame, lo, hi]

include wf

theorem tget_cells_zeroFrame (a : Nat) :
    tget 0 (zeroFrame m f).cells a = if a / 2 ^ 21 = f then 0 else tget 0 m.cells a := by
  obtain ⟨cells, -⟩ := m.wf_iff.1 wf
  rw [zeroFrame_eq]
  exact tget_tclear_block cells (by decide) f a

theorem tget_upset_zeroFrame (w : Nat) :
    tget 0 (zeroFrame m f).upset w = if w / 2 ^ 18 = f then 0 else tget 0 m.upset w := by
  obtain ⟨-, -, -, upset, -⟩ := m.wf_iff.1 wf
  rw [zeroFrame_eq]
  exact tget_tclear_block upset (by decide) f w

theorem tget_badLoc_zeroFrame (w : Nat) :
    tget false (zeroFrame m f).badLoc w = if w / 2 ^ 18 = f then false else tget false m.badLoc w := by
  obtain ⟨-, -, -, -, badLoc, -⟩ := m.wf_iff.1 wf
  rw [zeroFrame_eq]
  exact tget_tclear_block badLoc (by decide) f w

theorem poisoned_zeroFrame (w : Nat) :
    poisoned (zeroFrame m f) w = if w / 2 ^ 18 = f then false else poisoned m w := by
  obtain ⟨-, poison, fpoison, -⟩ := m.wf_iff.1 wf
  rw [zeroFrame_eq]
  simp only [poisoned, framePoison, tget_tclear_block poison (by decide : 0 < 2 ^ 18)]
  by_cases inside : w / 2 ^ 18 = f
  · rw [if_pos inside, if_pos inside, inside, tget_tset false m.fpoison f false fpoison]
    rfl
  · rw [if_neg inside, if_neg inside, tget_tset_ne false m.fpoison f _ false fpoison inside]

end

/-- Settles O13: each operation keeps the form, and a frame zeroed is read by the range taken out of each table. -/
theorem memoryOperationsKeepForm : Obligations.MemoryOperationsKeepForm := by
  refine ⟨fun m wf => ⟨fun a bs => writeDpa_wf m a bs wf, fun f => zeroFrame_wf m f wf, fun a b => copyFrame_wf m a b wf,
    fun w => poisonWord_wf m w wf, fun w p => flipWord_wf m w p wf⟩, fun m f a wf => ?zeroed⟩
  case zeroed =>
    have frame : a / 8 / 2 ^ 18 = a / 2 ^ 21 := Nat.div_div_eq_div_mul a 8 (2 ^ 18)
    rw [tget_cells_zeroFrame wf, poisoned_zeroFrame wf, tget_upset_zeroFrame wf, tget_badLoc_zeroFrame wf, frame]
    exact ⟨fun inside => by simp only [if_pos inside, and_self], fun outside => by simp only [if_neg outside, and_self], rfl⟩

end Sys2Proof.Machine
end

section
/-! PROOFS. Where a MEM_ALLOC places its frames, and the memory commands with their halves in service (R147, R167,
R264-R266). -/

namespace Sys2Proof.Machine

/-! ### Placement (R147, R502) -/

section

variable {s : State} {a : Acc} {i : Nat}

theorem State.homeOf_interleaved (code : a.par 32 1 = 0) : s.homeOf a i =
    if s.start.singleHalf then (if s.halfUp .west then .west else .east)
    else halfOf ((a.par 16 8 / 2 ^ 21 + i) % 2) := by
  simp [State.homeOf, code, frameBytes]

theorem State.homeOf_mapped (code : a.par 32 1 = 3) :
    s.homeOf a i = if bitOf (le a.ext (i / 8) 1) (i % 8) then .east else .west := by
  simp [State.homeOf, code]

end

/-- Settles O16: the placement code decides, and for INTERLEAVED whether one half is left (R502). -/
theorem placementDecidesHalf : Obligations.PlacementDecidesHalf := by
  refine fun s a i => ⟨fun west => if_pos west, fun east => ?east, State.homeOf_mapped, fun code both => ?parity,
    fun code single up => ?westLeft, fun code single down => ?eastLeft⟩
  case east => simp [State.homeOf, east]
  case parity => simp [State.homeOf_interleaved code, both, halfOf]
  case westLeft => simp [State.homeOf_interleaved code, single, up]
  case eastLeft => simp [State.homeOf_interleaved code, single, down]

/-! ### Memory commands (R264-R266) -/

section

variable {s : State} {a : Acc} (w : s.arr.west.half = .inService) (e : s.arr.east.half = .inService)
include w e

theorem State.memAlloc_free (free : s.freeNow (s.allocShare a).1 (s.allocShare a).2 = true) :
    s.memAlloc a = (s.mapFrames a.part (a.par 16 8 / 2 ^ 21)
      ((List.range ((s.allocShare a).1 + (s.allocShare a).2)).map fun i => s.homeOf a i)).reply a stOK
        (s.allocShare a).1 (s.allocShare a).2 0 := by
  simp only [State.memAlloc, State.halvesMissing_none w e, free, Bool.not_true, Bool.false_eq_true, if_false, frameBytes]

theorem State.freeRange_mapped (mapped : s.mappedRange a.part (a.par 16 8) (a.par 24 8) = true) :
    s.freeRange a = (s.unmapFrames a.part (a.par 16 8 / 2 ^ 21) (a.par 24 8 / 2 ^ 21)).reply a stOK
      (a.par 24 8 / 2 ^ 21) 0 0 := by
  simp only [State.freeRange, State.halvesMissing_none w e, mapped, Bool.not_true, Bool.false_eq_true, if_false]

/-- A copy within partition memory: the bytes, then the poison of the words that were lost. -/
theorem State.memCopy_mapped (src : a.par 40 1 = 0) (dst : a.par 41 1 = 0)
    (from_ : s.mappedRange a.part (a.par 16 8) (a.par 32 8) = true)
    (into : s.mappedRange a.part (a.par 24 8) (a.par 32 8) = true) :
    s.memCopy a =
      let v := s.settlePart a.part (a.par 16 8) (a.par 32 8)
      let bad := v.partPoison a.part (a.par 16 8) (a.par 32 8)
      let w := (v.partWrite a.part (a.par 24 8) (v.partRead a.part (a.par 16 8) (a.par 32 8))).poisonAt a.part (a.par 24 8) bad
      if bad = [] then w.reply a stOK 0 0 0 else w.reply a stDegraded (satTo 0xFFFFFFFF bad.length) 0 0 := by
  simp only [State.memCopy, State.halvesMissing_none w e, src, dst, from_, into, State.put, Bool.not_true, Bool.false_eq_true,
    and_false, or_self, if_false, if_true, Nat.zero_ne_one, List.isEmpty_iff]

theorem State.memFill_mapped (dst : a.par 41 1 = 0) (mapped : s.mappedRange a.part (a.par 24 8) (a.par 32 8) = true) :
    s.memFill a = (s.partWrite a.part (a.par 24 8) (List.replicate (a.par 32 8 / 8) (leBytes 8 (a.par 48 8))).flatten).reply a
      stOK 0 0 0 := by
  simp only [State.memFill, State.halvesMissing_none w e, dst, mapped, Bool.not_true, Bool.false_eq_true, if_false, Nat.zero_ne_one]

end

section

variable {s : State} {a : Acc}

theorem State.memFill_host (dst : a.par 41 1 = 1) : s.memFill a =
    (s.dma a (a.par 24 8) (List.replicate (a.par 32 8 / 8) (leBytes 8 (a.par 48 8))).flatten).reply a stOK 0 0 0 :=
  if_pos dst

theorem State.memFill_unmapped (dst : a.par 41 1 = 0) (hole : s.mappedRange a.part (a.par 24 8) (a.par 32 8) = false) :
    s.memFill a = s.reply a stNotPermitted 0 0 0 := by
  simp [State.memFill, dst, hole]

end

section

variable {s u : State} {t id : Nat} {a : Acc} (ready : s.Ready t id 0x0202 a u)
include ready

/-- A MEM_FREE with no earlier run of its partition takes effect. -/
theorem execMemFree_effect (idle : ∀ r ∈ u.activeRuns a.part, a.id ≤ r) : execMemFree t id s = .next (u.freeRange a) := by
  have none_before : (u.activeRuns a.part).filter (· < a.id) = [] := by simpa using idle
  refine (State.act_of_ready ready _).trans ?_
  simp [none_before]

/-- One with an earlier run to complete waits for those runs. -/
theorem execMemFree_waits (busy : ∃ r ∈ u.activeRuns a.part, r < a.id) :
    execMemFree t id s = .next (u.wait a (.memFree ((u.activeRuns a.part).filter (· < a.id)))) := by
  have some_before : (u.activeRuns a.part).filter (· < a.id) ≠ [] := by simpa using busy
  refine (State.act_of_ready ready _).trans ?_
  simp [some_before]

end

/-- Settles O17: each command passes its checks and has the effect of its case. -/
theorem memoryCommands : Obligations.MemoryCommands := by
  refine fun t id s u a => ⟨?alloc, ?free, ?copy, ?fill⟩
  case alloc =>
    exact fun ready w e free => (State.act_of_ready ready _).trans (congrArg _ (State.memAlloc_free w e free))
  case free =>
    exact fun ready w e mapped =>
      ⟨fun idle => (execMemFree_effect ready idle).trans (congrArg _ (State.freeRange_mapped w e mapped)),
        fun busy => execMemFree_waits ready busy⟩
  case copy =>
    exact fun taken src dst w e from_ into =>
      (State.actOn_of_taken taken _).trans (congrArg _ (State.memCopy_mapped w e src dst from_ into))
  case fill =>
    refine fun taken => ⟨fun dst => ?_, fun dst mapped w e => ?_, fun dst hole => ?_⟩
    · exact (State.actOn_of_taken taken _).trans (congrArg _ (State.memFill_host dst))
    · exact (State.actOn_of_taken taken _).trans (congrArg _ (State.memFill_mapped w e dst mapped))
    · exact (State.actOn_of_taken taken _).trans (congrArg _ (State.memFill_unmapped dst hole))

end Sys2Proof.Machine
end

section
/-! PROOFS. Scrub passes, retired frames and fenced pseudo-channels (R156-R159). -/

namespace Sys2Proof.Machine

/-! ### What messages and updates leave of the HBM -/

section

variable (s : State)

@[simp] theorem Both.get_mod {α : Type} (b : Both α) (h : Half) (f : α → α) : (b.mod h f).get h = f (b.get h) := by
  cases h <;> rfl

@[simp] theorem State.report_hbm (src : Nat) (cls : FClass) (kind addr : Nat) : (s.report src cls kind addr).hbm = s.hbm := by
  have note : (s.noteUnsync src).hbm = s.hbm := by
    unfold State.noteUnsync
    split
    · rfl
    · dsimp only
      split <;> rfl
  exact note

@[simp] theorem State.oculusUpdate_hbm : s.oculusUpdate.hbm = s.hbm := by
  have msi (u : State) (p : Fin 4) : (u.msi p 17).hbm = u.hbm := u.msi_keepsBut p 17 .hbm (by decide)
  simp only [State.oculusUpdate, allParts, List.foldl_cons, List.foldl_nil, msi]

end

/-! ### Scrub passes (R156, R157) -/

section

variable (t : Nat) {h : Half} {s : State} (ups : List Upset) (tags parity : List Nat)

/-- A half asleep, or with scrub off, is not scrubbed. -/
theorem execScrubPass_off (off : (s.hbm.get h).selfRefresh = true ∨ (s.hbm.get h).ctrl % 16 = 0) :
    execScrubPass t h ups tags parity s = .next (s.atTime t) := by
  simp [execScrubPass, off]

/-- A row of a half whose address inversion is bad, coded as pseudo-channel × 2^20 + row: logged, and the row retired. -/
def State.badTag (h : Half) (s : State) (b : Nat) : State :=
  ((s.modHbm h fun y => { y with addressErrors := y.addressErrors + 1 }).report (srcStack h (b / 2 ^ 20 / 64)) .contained 3
    (eccAddr (b / 2 ^ 20) (b % 2 ^ 20) 0 0x7F)).retireDue (s.mem.upset.length + 1)
      [(h, b / 2 ^ 20, b % 2 ^ 20, rowFrames (b % 2 ^ 20))]

theorem execScrubPass_on (awake : (s.hbm.get h).selfRefresh = false) (on : (s.hbm.get h).ctrl % 16 ≠ 0) :
    execScrubPass t h ups tags parity s = .next (parity.foldl (fun s pc => s.fencePc h pc)
      (tags.foldl (State.badTag h) (((s.atTime t).strike ups).settle fun w => dpaHalf (8 * w) == h))) := by
  simp only [execScrubPass, State.atTime_hbm, awake, Bool.false_or, beq_iff_eq, on, if_false]
  rfl

end

/-! ### Retired frames (R15, R158, R197) -/

section

variable (t : Nat) {h : Half} {s : State}

/-- A retirement held back is made once a frame of the half is free, its words read first. -/
theorem execRetirePendingResolve_room {e : Nat} (one : (s.hbm.get h).retirePending = [e])
    (room : (s.hbm.get h).freeSpare ≠ none ∨ (s.hbm.get h).freeFrame ≠ none) :
    execRetirePendingResolve t h s = .next (((s.atTime t).settle fun w => w / 2 ^ 18 == dpaFrame h (e % 2 ^ 20)).retireFrame h
      (e / 2 ^ 20) (e % 2 ^ 20)) := by
  have found : ((s.hbm.get h).freeSpare.isSome || (s.hbm.get h).freeFrame.isSome) = true := by
    simpa [Option.isSome_iff_ne_none] using room
  simp only [execRetirePendingResolve, State.atTime_hbm, one, List.foldl_cons, List.foldl_nil, found, if_true]

theorem execRetirePendingResolve_full {e : Nat} (one : (s.hbm.get h).retirePending = [e])
    (spare : (s.hbm.get h).freeSpare = none) (frame : (s.hbm.get h).freeFrame = none) :
    execRetirePendingResolve t h s = .next (s.atTime t) := by
  simp [execRetirePendingResolve, one, spare, frame]

theorem execRetirePendingResolve_none (none_held : (s.hbm.get h).retirePending = []) :
    execRetirePendingResolve t h s = .next (s.atTime t) := by
  simp only [execRetirePendingResolve, State.atTime_hbm, none_held, List.foldl_nil]

/-- A free frame leaves its pool: counted, shown in the Oculus table, then logged. -/
theorem State.retireFrame_free {stack i : Nat} (free : (s.hbm.get h).useOf i = .free) :
    s.retireFrame h stack i = ((((s.setUse h i .retired).modHbm h fun y => { y with
      retired := satTo 65535 (y.retired + 1), retirementCount := y.retirementCount + 1,
      retirePending := y.retirePending.filter (· % 2 ^ 20 ≠ i) }).oculusUpdate).report (srcStack h stack) .corrected 4
        (dpaFrame h i)) := by
  simp only [State.retireFrame, free]

end

/-- Settles O32: a pass that is off or on, a retirement held back with and without a free frame, a free frame retired. -/
theorem scrubAndRetire : Obligations.ScrubAndRetire :=
  fun t _ _ => ⟨fun ups tags parity => ⟨fun asleep => execScrubPass_off t ups tags parity (.inl asleep),
      execScrubPass_on t ups tags parity⟩, fun off ups tags parity => execScrubPass_off t ups tags parity (.inr off),
    fun _ one => ⟨execRetirePendingResolve_room t one, execRetirePendingResolve_full t one⟩,
    fun _ _ => State.retireFrame_free, execRetirePendingResolve_none t⟩

/-! ### Fenced pseudo-channels (R159) -/

section

variable {h : Half} {pc : Nat} {s : State}

theorem State.fencePc_fenced (fenced : (s.hbm.get h).fences.any (·.1 == pc) = true) : s.fencePc h pc = s := by
  simp only [State.fencePc, fenced, if_true]

variable (unfenced : (s.hbm.get h).fences.any (·.1 == pc) = false)
include unfenced

theorem State.fencePc_slot {k : Nat} {ks : List Nat} (slots : (s.hbm.get h).slotsFree = k :: ks) :
    s.fencePc h pc = s.startFence h pc (.slot k) := by
  simp only [State.fencePc, unfenced, slots, Bool.false_eq_true, if_false]

theorem State.fencePc_frames {u : State} {l : List Nat} (slots : (s.hbm.get h).slotsFree = [])
    (taken : s.takeFenceFrames h = some (u, l)) : s.fencePc h pc = u.startFence h pc (.frames l) := by
  simp only [State.fencePc, unfenced, slots, taken, Bool.false_eq_true, if_false]

/-- With neither a slot nor frames the fence is held back, and a fault says so once. -/
theorem State.fencePc_pending (slots : (s.hbm.get h).slotsFree = []) (few : s.takeFenceFrames h = none)
    (new : (s.hbm.get h).fencePending.contains pc = false) :
    s.fencePc h pc = (s.modHbm h fun y => { y with fencePending := y.fencePending ++ [pc] }).report (srcStack h (pc / 64))
      .contained 7 ((pc % 64) <<< 34) := by
  simp only [State.fencePc, unfenced, slots, few, new, Bool.false_eq_true, if_false]

end

section

variable (t : Nat) {h : Half} {s : State}

theorem State.retryFences_none {s : State} (none_held : (s.hbm.get h).fencePending = []) : s.retryFences h = s := by
  simp only [State.retryFences, none_held, List.foldl_nil]

theorem State.retryFences_one {s : State} {q : Nat} (one : (s.hbm.get h).fencePending = [q]) :
    s.retryFences h = s.fencePc h q := by
  simp only [State.retryFences, one, List.foldl_cons, List.foldl_nil]

theorem execPcRelocationDone_idle (idle : (s.hbm.get h).relocating = []) :
    execPcRelocationDone t h s = .next (s.atTime t) := by
  simp only [execPcRelocationDone, State.atTime_hbm, idle]

/-- The oldest copy done, of words without errors and with no fence held back: the channel is served from its new place. -/
theorem execPcRelocationDone_clean {f : Nat × FencePlace} {rest : List (Nat × FencePlace)}
    (copying : (s.hbm.get h).relocating = f :: rest) (none_held : (s.hbm.get h).fencePending = []) (clean : s.mem.upset = []) :
    execPcRelocationDone t h s = .next ((((s.atTime t).modHbm h fun y => { y with
      relocating := rest, fencedPcs := y.fencedPcs ++ [f] }).oculusUpdate).report (srcStack h (f.1 / 64)) .contained 6
        ((f.1 % 64) <<< 34)) := by
  simp only [execPcRelocationDone, State.atTime_hbm, copying, State.settle_clean (u := s.atTime t) clean]
  rw [State.retryFences_none (by simpa using none_held)]

theorem execFencePendingResolve_none (none_held : (s.hbm.get h).fencePending = []) :
    execFencePendingResolve t h s = .next (s.atTime t) :=
  congrArg _ (State.retryFences_none (s := s.atTime t) none_held)

theorem execFencePendingResolve_one {q : Nat} (one : (s.hbm.get h).fencePending = [q]) :
    execFencePendingResolve t h s = .next ((s.atTime t).fencePc h q) :=
  congrArg _ (State.retryFences_one (s := s.atTime t) one)

end

/-- Settles O33: the place a fence finds, or that it is held back; a copy done; the fences held back. -/
theorem channelFences : Obligations.ChannelFences :=
  fun t _ _ _ => ⟨State.fencePc_fenced, fun _ _ unfenced => State.fencePc_slot unfenced,
    fun _ _ unfenced => State.fencePc_frames unfenced, State.fencePc_pending,
    fun _ _ => execPcRelocationDone_clean t, execPcRelocationDone_idle t, fun _ => execFencePendingResolve_one t,
    execFencePendingResolve_none t⟩

end Sys2Proof.Machine
end

section
/-! PROOFS. Temperatures, trips, throttling, and the records of the margin ledger (R160, R285, R286, R412, R425-R435). -/

namespace Sys2Proof.Machine

/-! ### THERM_STATUS and MARGIN_REPORT (R285, R286) -/

section

variable {s : State} {a : Acc}

theorem State.thermStatus_words (none_asked : a.par 24 8 = 0) : s.thermStatus a =
    s.reply a stOK (s.thermWords (a.par 16 1)).1 (s.thermWords (a.par 16 1)).2.1 0 := by
  simp only [State.thermStatus, none_asked, if_true]
  rfl

/-- The record is written before the reply, whose words are those of the block before it. -/
theorem State.thermStatus_record (asked : a.par 24 8 ≠ 0) : s.thermStatus a =
    (s.dma a (a.par 24 8) (s.thermRecord (a.par 16 1))).reply a stOK (s.thermWords (a.par 16 1)).1
      (s.thermWords (a.par 16 1)).2.1 0 := by
  simp only [State.thermStatus, asked, if_false]
  rfl

theorem State.marginReport_short (short : a.par 24 4 < 256) : s.marginReport a = s.reply a stBadParam 0 256 0 := if_pos short

theorem State.marginReport_room (room : 256 ≤ a.par 24 4) : s.marginReport a =
    ({ s.dma a (a.par 16 8) s.marginSummary with free := s.free + 16 } : State).reply a stOK 256
      (max ((s.arr.west.sent.map (·.2)).foldl max 0) ((s.arr.east.sent.map (·.2)).foldl max 0)) 0 :=
  if_neg (Nat.not_lt.2 room)

end

/-! ### Samples and trips of a die (R423-R431) -/

section

variable (t : Nat) {d : Fin 11} {s : State}

/-- A die's samples kept, the newest first. -/
def State.keepSample (s : State) (d : Fin 11) (temps : List Int) : State :=
  s.modDie d.val fun x => { x with
    temps := temps.take (sensorsOf d.val), history := ((s.now, temps.take (sensorsOf d.val)) :: x.history).take 128 }

theorem execThermalSample_core (core : d.val < 3) (temps : List Int) (found : List Nat) :
    execThermalSample t d ⟨temps, found⟩ s =
      .next (((((s.atTime t).keepSample d temps).checkSensors d.val).checkCore d.val).noteCool.noteThrottle) := by
  simp only [execThermalSample, core, Nat.not_le.2 core, if_true, false_and, if_false]
  rfl

theorem execThermalSample_lantern (lantern : 3 ≤ d.val) (temps : List Int) (found : List Nat) :
    execThermalSample t d ⟨temps, found⟩ s =
      let w := (((s.atTime t).keepSample d temps).checkSensors d.val).checkLantern (d.val - 3)
      .next ((if (w.lan (d.val - 3)).dark = true then w.testShutters (d.val - 3) found else w).noteCool.noteThrottle) := by
  simp only [execThermalSample, lantern, Nat.not_lt.2 lantern, if_false, true_and]
  rfl

/-- The temperature that a die's trip comparator judges (R424). -/
def State.tripTemp (s : State) (d : Nat) (temp : Int) : Int := if (s.die d).conservative then temp + 160 else temp

theorem execHardTrip_below {temp : Int} (below : s.tripTemp d.val temp < tripAt d.val) :
    execHardTrip t d temp s = .next (s.atTime t) :=
  congrArg Host.Outcome.next (if_neg fun h => absurd h.2 (Int.not_le.2 below))

theorem execHardTrip_lantern (lantern : 3 ≤ d.val) (temp : Int) : execHardTrip t d temp s = .next (s.atTime t) :=
  congrArg Host.Outcome.next (if_neg fun h => absurd h.1 (Nat.not_lt.2 lantern))

/-- A die that has tripped trips no more. -/
theorem execHardTrip_tripped (tripped : (s.die d.val).trip = true) (temp : Int) :
    execHardTrip t d temp s = .next (s.atTime t) := by
  have again : (s.atTime t).hardTrip d.val temp = s.atTime t := if_pos tripped
  simp only [execHardTrip, again, ite_self]

theorem execHardTrip_trips {temp : Int} (core : d.val < 3) (first : (s.die d.val).trip = false)
    (reached : tripAt d.val ≤ s.tripTemp d.val temp) :
    execHardTrip t d temp s =
      .next (((s.atTime t).report (srcThermal d.val) .fatal 5 (temp16 temp)).tripOff d.val) := by
  have judged : d.val < 3 ∧ tripAt d.val ≤ if ((s.atTime t).die d.val).conservative then temp + 160 else temp := ⟨core, reached⟩
  have untripped : ¬ ((s.atTime t).die d.val).trip = true := by simp [first]
  simp only [execHardTrip, if_pos judged, State.hardTrip, if_neg untripped]

end

/-! ### Throttling (R412, R425) -/

section

variable (t : Nat) {h : Half} {s : State}

theorem State.atThrottle_half (s : State) (h : Half) :
    s.atThrottle (halfNo h) = ((s.die (halfNo h)).throttle || (s.die (halfNo h)).lost) := by
  cases h <;> rfl

/-- A half at its throttle level, or silent, gives up two per cent of its limit each millisecond. -/
theorem execThrottleAdjust_down {x : Nat} (hot : s.atThrottle (halfNo h) = true) (limit : (s.die (halfNo h)).limit = some x)
    (due : (s.die (halfNo h)).lastStep + 10 ^ 6 ≤ max s.now t) :
    execThrottleAdjust t h s = .next ((s.atTime t).modDie (halfNo h) fun d => { d with
      limit := some (x * 98 / 100), lastStep := max s.now t }) := by
  have hot : (s.atTime t).atThrottle (halfNo h) = true := hot
  simp only [execThrottleAdjust, hot, State.atTime_die_of, State.atTime_now, limit, due, if_true]

theorem execThrottleAdjust_unlimited (cool : s.atThrottle (halfNo h) = false) (limit : (s.die (halfNo h)).limit = none) :
    execThrottleAdjust t h s = .next (s.atTime t) := by
  have cool : (s.atTime t).atThrottle (halfNo h) = false := cool
  simp only [execThrottleAdjust, cool, State.atTime_die_of, limit, Bool.false_eq_true, if_false]

/-- A half that has cooled takes one per cent back each ten milliseconds, until its limit binds no longer. -/
theorem execThrottleAdjust_up {x : Nat} (cool : s.atThrottle (halfNo h) = false) (limit : (s.die (halfNo h)).limit = some x)
    (due : (s.die (halfNo h)).lastStep + 10 ^ 7 ≤ max s.now t) :
    execThrottleAdjust t h s = .next ((s.atTime t).modDie (halfNo h) fun d => { d with
      limit := if s.pwr.rateTarget ≤ ceilDiv (x * 101) 100 then none else some (ceilDiv (x * 101) 100),
      lastStep := max s.now t }) := by
  have cool : (s.atTime t).atThrottle (halfNo h) = false := cool
  simp only [execThrottleAdjust, cool, State.atTime_die_of, limit, Bool.false_eq_true, if_false]
  exact congrArg Host.Outcome.next (if_pos due)

end

/-! ### Stacks (R160, R425) -/

/-- A level that was not entered and whose threshold is not reached is not entered. -/
theorem level_below {thr v : Int} (below : v < thr) : level false thr v = false := by
  simp [level, below]

theorem State.modHbm_congr {s : State} {h : Half} {f g : Hbm → Hbm} (same : f (s.hbm.get h) = g (s.hbm.get h)) :
    s.modHbm h f = s.modHbm h g := by
  simp only [State.modHbm, Both.mod, same]

/-- A stack below every limit, with none of its half at one, leaves its reading and no more. -/
theorem execHbmTempSample_cool (t : Nat) {k : Fin 32} {temp : Int} {lim : StackLimits} {s : State}
    (below : temp < lim.maxTemp - 160) (no_trip : temp < lim.trip) (slow : temp ≤ 1360)
    (was_slow : (s.hbm.get (halfOf (k.val / 16))).temp (k.val % 16) ≤ 1360)
    (none_warm : (s.hbm.get (halfOf (k.val / 16))).warm = []) (none_at : (s.hbm.get (halfOf (k.val / 16))).atLimit = []) :
    execHbmTempSample t k temp lim s = .next ((s.atTime t).modHbm (halfOf (k.val / 16)) fun y => { y with
      temps := tset none y.temps (k.val % 16) (some temp) }).noteCool := by
  have at_ : level false (lim.maxTemp - 80) temp = false := level_below (by omega)
  have warm : ¬ lim.maxTemp - 80 - 80 ≤ temp := by omega
  have stop : ¬ lim.maxTemp ≤ temp := by omega
  have fast : ¬ 1360 < temp := by omega
  have was_fast : ¬ 1360 < (s.hbm.get (halfOf (k.val / 16))).temp (k.val % 16) := by omega
  simp only [execHbmTempSample, State.atTime_hbm, none_at, List.contains_nil, at_, warm, stop, Int.not_le.2 no_trip, fast,
    was_fast, decide_false, bne_self_eq_false, Bool.false_eq_true, if_false, Bool.false_and]
  refine congrArg (fun u : State => Host.Outcome.next u.noteCool) (State.modHbm_congr ?_)
  simp [none_at, none_warm]

/-! ### The margin ledger (R434, R435) -/

section

theorem thinned_sublist (now : Nat) : ∀ (day : Option Nat) (l : List LedgerRecord), (thinned now day l).Sublist l
  | _, [] => .slnil
  | day, r :: l => by
    unfold thinned
    split
    · exact (thinned_sublist now day l).cons_cons r
    · split
      · exact (thinned_sublist now day l).cons r
      · exact (thinned_sublist now _ l).cons_cons r

/-- No record of the last 30 days is thinned out. -/
theorem mem_thinned_of_recent {now : Nat} {x : LedgerRecord} (recent : now ≤ x.stamp + 30 * dayNs) :
    ∀ (day : Option Nat) {l : List LedgerRecord}, x ∈ l → x ∈ thinned now day l
  | day, r :: l, hx => by
    unfold thinned
    rcases List.mem_cons.1 hx with rfl | hx
    · simp [recent]
    · split
      · exact List.mem_cons_of_mem _ (mem_thinned_of_recent recent day hx)
      · split
        · exact mem_thinned_of_recent recent day hx
        · exact List.mem_cons_of_mem _ (mem_thinned_of_recent recent _ hx)

variable {x : Ledger} {r : LedgerRecord}

theorem Ledger.append_getLast? : (x.append r).log.getLast? = some r := by
  unfold Ledger.append
  cases x.log with
  | nil => rfl
  | cons c l => exact List.getLast?_concat (l := c :: thinned r.stamp none l)

theorem Ledger.append_cons {c : LedgerRecord} {l : List LedgerRecord} (old : x.log = c :: l) :
    (x.append r).log = c :: (thinned r.stamp none l ++ [r]) := by
  simp only [Ledger.append, old]

/-- What an append leaves is the new record and records that stood. -/
theorem Ledger.mem_append {y : LedgerRecord} (hy : y ∈ (x.append r).log) : y = r ∨ y ∈ x.log := by
  cases old : x.log with
  | nil => exact .inl (by simpa [Ledger.append, old] using hy)
  | cons c l =>
    rw [Ledger.append_cons old] at hy
    rcases List.mem_cons.1 hy with rfl | hy
    · exact .inr List.mem_cons_self
    · rcases List.mem_append.1 hy with hy | hy
      · exact .inr (List.mem_cons_of_mem _ ((thinned_sublist _ _ _).subset hy))
      · exact .inl (List.mem_singleton.1 hy)

end

section

variable {s : State} (powers : List LanePower)

theorem State.appendRecord_led : (s.appendRecord powers).led = s.led.append (s.ledgerNow powers) := by
  have key : ∀ (l : List Nat) (u : State),
      (l.foldl (fun s b => s.modBundle b fun x => { x with foms := [] }) u).led = u.led := by
    intro l
    induction l with
    | nil => exact fun u => rfl
    | cons b l ih => exact fun u => ih _
  exact key _ _

theorem execLedgerRecord_hour (t : Nat) (running : s.start.phase = .running) (safe : s.start.safe = false)
    (on : s.pwr.st ≤ 1) (used : s.led.st = 1) :
    let v := (((s.atTime t).recordSentinels .west fun _ => true).recordSentinels .east fun _ => true).appendRecord powers
    execLedgerRecord t powers s = .next ({ v with led := { v.led with hours := v.led.hours + 1 } } : State).replan := by
  simp [execLedgerRecord, running, safe, on, used]

theorem execLedgerRecord_off (t : Nat) (off : 2 ≤ s.pwr.st) : execLedgerRecord t powers s = .next (s.atTime t) := by
  have off : ¬ s.pwr.st ≤ 1 := by omega
  simp [execLedgerRecord, off]

end

/-- Settles O49: each command by its rule for its case; the ledger by what an append leaves of it. That a silent half counts as
one at its throttle level, and when the ledger's records are stamped, is the model's choice (notes/assumptions, rows 70, 99). -/
theorem heatAndLedger : Obligations.HeatAndLedger := by
  refine fun t id s => ⟨fun u a taken none_asked => ?words, fun u a taken asked => ?record, fun u a taken => ?margin,
    fun d temps found => ⟨fun core => execThermalSample_core t core temps found,
      fun lantern => execThermalSample_lantern t lantern temps found⟩,
    fun d temp => ⟨fun tripped => execHardTrip_tripped t tripped temp, fun lantern => execHardTrip_lantern t lantern temp,
      execHardTrip_below t, execHardTrip_trips t⟩,
    fun h => ?throttle, fun k temp lim => execHbmTempSample_cool t, fun powers => execLedgerRecord_hour powers t,
    fun powers => execLedgerRecord_off powers t, fun powers => ?ledger⟩
  case words => exact (State.actOn_of_taken taken _).trans (congrArg _ (State.thermStatus_words none_asked))
  case record => exact (State.actOn_of_taken taken _).trans (congrArg _ (State.thermStatus_record asked))
  case margin =>
    exact ⟨fun short => (State.actOn_of_taken taken _).trans (congrArg _ (State.marginReport_short short)),
      fun room => (State.actOn_of_taken taken _).trans (congrArg _ (State.marginReport_room room))⟩
  case throttle =>
    have half := s.atThrottle_half h
    exact ⟨fun x hot => execThrottleAdjust_down t (by simp [half, hot]),
      fun x silent => execThrottleAdjust_down t (by simp [half, silent]),
      fun cool heard => execThrottleAdjust_unlimited t (by simp [half, cool, heard]),
      fun x cool heard => execThrottleAdjust_up t (by simp [half, cool, heard])⟩
  case ledger =>
    simp only [State.appendRecord_led]
    refine ⟨Ledger.append_getLast?, rfl, fun c l old => ⟨?_, fun x hx recent => ?_⟩, fun x => Ledger.mem_append, rfl⟩
    · rw [Ledger.append_cons old]; rfl
    · rw [Ledger.append_cons old]
      exact List.mem_cons_of_mem _ (List.mem_append_left _ (mem_thinned_of_recent recent none hx))

end Sys2Proof.Machine
end

section
/-! PROOFS. Operation lists loaded and run, and digest reports read (R29, R80, R107, R154, R183, R275-R277). -/

namespace Sys2Proof.Machine

/-! ### OPLIST_LOAD (R29, R154, R275) -/

/-- The list that an OPLIST_LOAD makes of its descriptors (R275). -/
def Acc.loaded (a : Acc) (raw : List (List Byte)) : OpList := ⟨raw.map parseDesc, a.par 32 8, a.par 40 4⟩

/-- A loaded list put in place, with its copies in the halves written afresh (R29, R275). -/
def State.putList (s : State) (a : Acc) (raw : List (List Byte)) : State :=
  (s.freshCopies (listKey a.part (a.par 16 1)) (a.par 20 4)).modEng fun e => { e with
    lists := tset none e.lists (listKey a.part (a.par 16 1)) (some (a.loaded raw)) }

/-- The descriptors' bytes that an OPLIST_LOAD finds in partition memory. -/
def State.listSource (s : State) (a : Acc) : List Byte := s.partRead a.part (a.par 24 8) (a.par 20 4 * descBytes)

/-- The same cut into descriptors. -/
def State.rawDescs (s : State) (a : Acc) : List (List Byte) := chunks descBytes (s.listSource a).length (s.listSource a)

section

variable {s : State} {a : Acc} (own : a.par 17 1 = 0) (clean : s.mem.upset = [])
  (good : s.partPoison a.part (a.par 24 8) (a.par 20 4 * descBytes) = [])
include own clean good

theorem State.listBytes_own : s.listBytes a = (s, .ok (s.listSource a)) := by
  simp only [State.listBytes, own, State.firstPoison_none clean good, State.listSource, Nat.zero_ne_one, if_false]

variable (w : s.arr.west.half = .inService) (e : s.arr.east.half = .inService)
  (mapped : s.mappedRange a.part (a.par 24 8) (a.par 20 4 * descBytes) = true)
include w e mapped

theorem State.loadList_passed (pass : firstBad (s.rawDescs a) = none) :
    s.loadList a = (s.putList a (s.rawDescs a)).reply a stOK (a.par 20 4) 0 0 := by
  simp only [State.rawDescs] at pass
  simp only [State.loadList, mapped, State.halvesMissing_none w e, State.listBytes_own own clean good, pass, State.putList,
    State.rawDescs, Acc.loaded, Bool.not_true, Bool.false_eq_true, and_false, if_false]

theorem State.loadList_refused {k : Nat} (bad : firstBad (s.rawDescs a) = some k) :
    s.loadList a = s.reply a stBadParam 0 0 k := by
  simp only [State.rawDescs] at bad
  simp only [State.loadList, mapped, State.halvesMissing_none w e, State.listBytes_own own clean good, bad, Bool.not_true,
    Bool.false_eq_true, and_false, if_false]

end

/-! ### OPLIST_RUN (R82, R276) -/

section

variable {s u : State} {t id : Nat} {a : Acc} {o : OpList} (ready : s.Ready t id 0x0402 a u)
  (found : u.list a.part (a.par 16 1) = some o)
include ready found

/-- The run of a list without a row map waits for the arrays, which wake. -/
theorem execOplistRun_waits (plain : o.descs.any (·.needsRows) = false) :
    execOplistRun t id s = .next (u.wake.modEng fun e => { e with
      waiting := insertById (·.acc.id) ⟨a, a.par 16 1, a.mark⟩ e.waiting }) := by
  refine (State.act_of_ready ready _).trans ?_
  simp only [found, plain, Bool.false_eq_true, if_false]

/-- A list that needs a row map is refused before its first operation. -/
theorem execOplistRun_refused (rows : o.descs.any (·.needsRows) = true) :
    execOplistRun t id s = .next ((u.modEng fun e => { e with
      reports := tset none e.reports (listKey a.part (a.par 16 1)) (some (refusedReport a.mark u.now)) }).reply a stBadParam
        a.mark 0 0xFFFFFFFF).settleFrees := by
  refine (State.act_of_ready ready _).trans ?_
  simp only [found, rows, if_true]

end

/-! ### DIGEST_READ (R183, R277) -/

section

variable {s : State} {a : Acc}

theorem State.reportRead_slot (slot : a.par 16 1 = 1) (kept : a.closed = false) :
    s.reportRead a = (s.slot a.slotField).report := by
  simp only [State.reportRead, slot, kept, Bool.false_eq_true, if_true, if_false]

theorem State.reportRead_closed (slot : a.par 16 1 = 1) (closed : a.closed = true) : s.reportRead a = none := by
  simp only [State.reportRead, slot, closed, if_true]

theorem State.reportRead_list (list : a.par 16 1 = 0) :
    s.reportRead a = tget none s.eng.reports (listKey a.part (a.par 17 1)) := by
  simp only [State.reportRead, list, Nat.zero_ne_one, if_false]

end

/-- What a DIGEST_READ writes to the host, and its reply: the report, and whether there is one (VALID). -/
def State.sendReport (s : State) (a : Acc) (source ident : Nat) (x : Option Report) : State :=
  (s.dma a (a.par 24 8) (reportBytes source ident x)).reply a stOK (if x.isSome then 1 else 0) 0 0

section

variable {s u : State} {t id : Nat} {a : Acc} {x : Option Report} (taken : s.Taken t id 0x0410 a u)
  (named : u.reportRead a = x)
include taken named

theorem execDigestRead_slot (slot : a.par 16 1 = 1) :
    execDigestRead t id s = .next (u.sendReport a 1 a.slotField x) := by
  refine (State.actOn_of_taken taken _).trans ?_
  simp only [slot, named, if_true, State.sendReport, b2n]

theorem execDigestRead_list (list : a.par 16 1 = 0) :
    execDigestRead t id s = .next (u.sendReport a 0 (a.par 17 1) x) := by
  refine (State.actOn_of_taken taken _).trans ?_
  simp only [list, named, Nat.zero_ne_one, if_false, State.sendReport, b2n]

end

/-- Settles O21: OPLIST_LOAD by what its check of the descriptors finds, OPLIST_RUN by whether its list needs rows, DIGEST_READ
by the report it names. That one on a slot that was closed before it acts finds no report is the model's choice
(notes/assumptions, row 81). -/
theorem programCommands : Obligations.ProgramCommands := by
  refine fun t id s u a => ⟨fun ready own clean w e mapped good => ⟨fun pass => ?passed, fun k bad => ?refused⟩,
    fun o ready found => ⟨execOplistRun_waits ready found, execOplistRun_refused ready found⟩,
    fun taken => ⟨fun slot kept => execDigestRead_slot taken (State.reportRead_slot slot kept) slot,
      fun slot closed => execDigestRead_slot taken (State.reportRead_closed slot closed) slot,
      fun list => execDigestRead_list taken (State.reportRead_list list) list⟩⟩
  case passed =>
    exact (State.act_of_ready ready _).trans (congrArg _ (State.loadList_passed own clean good w e mapped pass))
  case refused =>
    exact (State.act_of_ready ready _).trans (congrArg _ (State.loadList_refused own clean good w e mapped bad))

end Sys2Proof.Machine
end

section
/-! PROOFS. What an Oculus update leaves unchanged (R197); partition resets, host ports, the steward role and GET_OCULUS (R190,
R222-R235, R262). -/

namespace Sys2Proof.Machine

/-! ### Oculus updates (R197) -/

/-- Interrupts signalled on several endpoints touch the ports and host memory alone. -/
theorem State.foldl_msi_keepsBut (v : Nat) (l : List (Fin 4)) :
    ∀ s : State, s.KeepsBut [.ports, .hmem] (l.foldl (fun x p => x.msi p v) s) := by
  induction l with
  | nil => exact fun s f _ => by cases f <;> rfl
  | cons p l ih =>
    exact fun s => State.keepsBut_trans (s.msi_keepsBut p v) (ih (s.msi p v)) (List.Subset.refl _) (List.Subset.refl _)

/-- The count goes on; the interrupts that follow leave it as it is. -/
theorem State.oculusUpdate_drm (s : State) :
    s.oculusUpdate.drm = { s.drm with change := (s.drm.change + 2) % 2 ^ 32 } :=
  State.foldl_msi_keepsBut 17 allParts _ .drm (by decide)

/-- Beside the count only what the interrupts touch changes. -/
theorem State.oculusUpdate_keepsBut (s : State) : s.KeepsBut [.drm, .ports, .hmem] s.oculusUpdate := by
  have counted : s.KeepsBut [.drm] { s with drm := { s.drm with change := (s.drm.change + 2) % 2 ^ 32 } } := by
    intro f other
    cases f with
    | drm => exact absurd (List.mem_singleton_self _) other
    | _ => rfl
  exact State.keepsBut_trans counted (State.foldl_msi_keepsBut 17 allParts _) (by decide) (by decide)

/-- Settles O9: the count and the frame by their rules; 2 divides 2^32, so the count's parity stays when it wraps. -/
theorem oculusUpdateCounts : Obligations.OculusUpdateCounts := by
  refine fun s => ⟨s.oculusUpdate_drm, fun even => ?_, s.oculusUpdate_keepsBut⟩
  have count : s.oculusUpdate.drm.change = (s.drm.change + 2) % 2 ^ 32 := congrArg Drm.change s.oculusUpdate_drm
  omega

/-! ### Partition resets asked for by a host (R234) -/

section

variable {s : State} {p q : Fin 4} {v : Nat}

/-- A partition that is not being reset goes through the steps of the reset. -/
theorem State.partReset_of_idle (idle : (s.part p).resetting = false) : s.partReset p =
    let w := s.modPart p fun x => { x with resetting := true }
    let w := ((w.killCommands p).killRun p).freePartition p
    ((({ w with barHeld := w.barHeld.filter fun x => x.port ≠ p } : State).killTraffic p (s.part p).gen.toNat).resetPartRegs
      p).oculusUpdate := by
  simp only [State.partReset, idle, Bool.false_eq_true, if_false]

/-- Neither its own host nor the steward: the write is dropped and counted. -/
theorem State.writePartReset_dropped (served : s.pagesOpen q = true) (foreign : q ≠ p) (plain : s.isSteward q = false) :
    s.writePartReset (.host q) p v = s.goard q false := by
  simp [State.writePartReset, State.writerOpen, State.dropWrite, served, foreign, plain]

section

variable (served : s.pagesOpen q = true) (may : q = p ∨ s.isSteward q = true)
include served may

theorem State.writePartReset_keyed (key : bitsOf v 31 16 = 0x5245) (idle : (s.part p).resetting = false) :
    s.writePartReset (.host q) p v = (s.partReset p).partBack p := by
  have allowed : (decide (q = p) || s.isSteward q) = true := by simpa using may
  simp only [State.writePartReset, State.writerOpen, served, allowed, key, idle, Bool.not_true, Bool.false_eq_true, ne_eq,
    not_true_eq_false, if_false]

theorem State.writePartReset_unkeyed (key : bitsOf v 31 16 ≠ 0x5245) :
    s.writePartReset (.host q) p v = s.badValue 0 := by
  have allowed : (decide (q = p) || s.isSteward q) = true := by simpa using may
  simp only [State.writePartReset, State.writerOpen, served, allowed, key, Bool.not_true, Bool.false_eq_true, ne_eq,
    not_false_eq_true, if_false, if_true]

end

/-! ### Resets and power states of a host port (R223, R234, R235) -/

/-- A function-level reset of a device that runs resets the partition and is over at once. -/
theorem execFunctionLevelReset_running (t : Nat) (running : s.running = true) (idle : (s.part p).resetting = false) :
    execFunctionLevelReset t p s = .next ((((s.atTime t).partReset p).resetFunction p).partBack p) := by
  simp [execFunctionLevelReset, running, idle]

theorem State.hostLinkDown_running (running : s.running = true) :
    s.hostLinkDown p = ((s.partReset p).modPort p fun _ => Port.init).oculusUpdate := by
  simp only [State.hostLinkDown, running, if_true]

/-- Before a start has completed there is no partition to reset. -/
theorem State.hostLinkDown_starting (starting : s.running = false) :
    s.hostLinkDown p = (s.modPort p fun _ => Port.init).oculusUpdate := by
  simp only [State.hostLinkDown, starting, Bool.false_eq_true, if_false]

theorem State.cfgRequest_idle (idle : (s.part p).resetting = false) (f : State → State) : s.cfgRequest p f = f s := by
  simp only [State.cfgRequest, idle, Bool.false_eq_true, if_false]

theorem State.cfgRequest_resetting (busy : (s.part p).resetting = true) (f : State → State) :
    s.cfgRequest p f = { s with bus := ⟨0, [], false, false, true⟩ } := by
  simp only [State.cfgRequest, busy, if_true]

/-! ### Links that come up (R222) -/

section

variable {width rate : Nat}

theorem execHostLinkUp_served (t : Nat) (lanes : 4 ≤ width) (lowest : 5 ≤ rate) : execHostLinkUp t p width rate s =
    .next (((s.atTime t).partBack p).modPort p fun x => { x with width := width, rate := rate, slow := false }).oculusUpdate :=
  congrArg Host.Outcome.next (if_pos ⟨lanes, lowest⟩)

theorem execHostLinkUp_slow (t : Nat) (short : width < 4 ∨ rate < 5) : execHostLinkUp t p width rate s =
    .next (((((s.atTime t).partBack p).modPort p fun x => { x with width := 0, rate := 0, slow := true }).oculusUpdate).report
      (srcPort p) .contained 1 (width % 32 + 2 ^ 8 * (rate % 8))) :=
  congrArg Host.Outcome.next (if_neg (by omega))

end

/-! ### The steward's role and generation offers (R190, R229) -/

theorem State.writeSteward_steward (served : s.pagesOpen q = true) (steward : s.isSteward q = true) :
    s.writeSteward (.host q) v = s.moveSteward (Fin.ofNat 4 v) := by
  simp only [State.writeSteward, State.writerOpen, served, steward, Bool.not_true, Bool.false_eq_true, if_false]

theorem State.writeSteward_dropped (served : s.pagesOpen q = true) (plain : s.isSteward q = false) :
    s.writeSteward (.host q) v = s.goard q false := by
  simp only [State.writeSteward, State.writerOpen, State.dropWrite, served, plain, Bool.not_true, Bool.not_false,
    Bool.false_eq_true, if_false, if_true]

theorem State.writeOffer_first (served : s.pagesOpen p = true) (free : (s.part p).offer = none) :
    s.writeOffer p v = s.modPart p fun x => { x with offer := some (v % 256) } := by
  simp only [State.writeOffer, served, free, Bool.not_true, Bool.false_eq_true, if_false]

/-- A second offer violates the lock of the first. -/
theorem State.writeOffer_locked (served : s.pagesOpen p = true) (taken : (s.part p).offer ≠ none) :
    s.writeOffer p v = (s.lockStatus 0).report (srcPort p) .contained 3 0 := by
  obtain ⟨g, first⟩ := Option.ne_none_iff_exists'.1 taken
  simp only [State.writeOffer, served, first, Bool.not_true, Bool.false_eq_true, if_false]

/-! ### GET_OCULUS (R199, R262) -/

variable {a : Acc}

theorem State.getOculus_held (room : (s.oculus a.part).length ≤ a.par 24 4) : s.getOculus a =
    (s.dma a (a.par 16 8) (s.oculus a.part)).reply a stOK (s.oculus a.part).length s.drm.change 0 :=
  if_neg (Nat.not_lt.2 room)

theorem State.getOculus_short (short : a.par 24 4 < (s.oculus a.part).length) :
    s.getOculus a = s.reply a stBadParam 0 (s.oculus a.part).length 0 :=
  if_pos short

end

/-- Settles O53: each write and each event of a port by the rule for its case, GET_OCULUS by whether the buffer holds the table.
That RESETTING of a reset that waits for no link is cleared in the same step, and that of a link's loss when the link is up again,
is the model's choice (notes/assumptions, row 12). -/
theorem partitionsAndPorts : Obligations.PartitionsAndPorts := by
  intro t id p q v s u
  refine ⟨?keyed, ?unkeyed, ?foreign, State.partReset_of_idle, execFunctionLevelReset_running t, ?linkLost, ?lostEarly, ?awake,
    ?busy, fun w r => ⟨execHostLinkUp_served t, execHostLinkUp_slow t⟩, ?steward, ?plain, ?offer, ?again, ?oculus⟩
  case keyed =>
    exact fun served may key idle => congrArg _ (State.writePartReset_keyed (s := u) served may key idle)
  case unkeyed =>
    exact fun served may key => congrArg _ (State.writePartReset_unkeyed (s := u) served may key)
  case foreign =>
    exact fun served foreign plain => congrArg _ (State.writePartReset_dropped (s := u) served foreign plain)
  case linkLost =>
    intro running
    have down := State.hostLinkDown_running (s := u) (p := p) running
    exact ⟨congrArg Host.Outcome.next down, congrArg Host.Outcome.next down⟩
  case lostEarly =>
    intro starting
    have down := State.hostLinkDown_starting (s := u) (p := p) starting
    exact ⟨congrArg Host.Outcome.next down, congrArg Host.Outcome.next down⟩
  case awake =>
    exact fun idle => ⟨congrArg _ (State.cfgRequest_idle (s := u) idle _), congrArg _ (State.cfgRequest_idle (s := u) idle _)⟩
  case busy =>
    exact fun busy => ⟨congrArg _ (State.cfgRequest_resetting (s := u) busy _),
      congrArg _ (State.cfgRequest_resetting (s := u) busy _)⟩
  case steward =>
    exact fun served steward => congrArg _ (State.writeSteward_steward (s := u) served steward)
  case plain =>
    exact fun served plain => congrArg _ (State.writeSteward_dropped (s := u) served plain)
  case offer =>
    exact fun served free => congrArg _ (State.writeOffer_first (s := u) served free)
  case again =>
    exact fun served taken => congrArg _ (State.writeOffer_locked (s := u) served taken)
  case oculus =>
    exact fun w a taken => ⟨fun room => (State.actOn_of_taken taken _).trans (congrArg _ (State.getOculus_held room)),
      fun short => (State.actOn_of_taken taken _).trans (congrArg _ (State.getOculus_short short))⟩

end Sys2Proof.Machine
end

section
/-! PROOFS. Service drains and the button, the status, resets and the thermal stop of a Lantern (R280, R283, R362, R378-R382,
R431, R495, R496). -/

namespace Sys2Proof.Machine

/-! ### SERVICE_DRAIN (R283) -/

section

variable {s : State} {a : Acc}

/-- A drain that is not complete at once is waited for. -/
theorem State.serviceDrain_begun (drains : a.par 17 1 = 0)
    (begun : ((s.askDrain (a.par 16 1)).lan (a.par 16 1)).drainDone = false) :
    s.serviceDrain a = (s.askDrain (a.par 16 1)).wait a (.drain (a.par 16 1) 0) := by
  simp only [State.serviceDrain, drains, begun, Bool.false_eq_true, if_true, if_false]

theorem State.serviceDrain_restored (restores : a.par 17 1 = 1) (idle : (s.lan (a.par 16 1)).restoring = false) :
    s.serviceDrain a =
      ((s.startRestore (a.par 16 1)).wait a (.drain (a.par 16 1) 1)).settleRestore (a.par 16 1) := by
  simp only [State.serviceDrain, restores, idle, Nat.one_ne_zero, Bool.false_eq_true, if_true, if_false]

theorem State.serviceDrain_abandoned (abandons : a.par 17 1 = 2) : s.serviceDrain a =
    (s.abandonDrain (a.par 16 1)).reply a stOK ((s.abandonDrain (a.par 16 1)).drainDetail (a.par 16 1)) 0 0 :=
  (if_neg (by omega)).trans (if_neg (by omega))

end

/-! ### The button (R380, R381) -/

section

variable (s : State) (t : Nat) (l : Fin 8)

/-- A Lantern's record with the debounced level of its button. -/
def State.buttonLevel (pressed : Bool) : State := s.modLan l.val fun x => { x with button := pressed }

/-- A press shows in its Lantern's record, which has the button released at reset. -/
theorem State.buttonLevel_lan : (s.buttonLevel l true).lan l.val = { s.lan l.val with button := true } :=
  have pressed : ({ s.lan l.val with button := true } : Lantern) ≠ Lantern.init :=
    fun e => Bool.noConfusion (congrArg Lantern.button e)
  (tget_tset_of_ne_default pressed s.lans l.val l.val).trans (if_pos rfl)

theorem execSvcButtonPress_released :
    execSvcButtonPress t ⟨l, false⟩ s = .next ((s.atTime t).buttonLevel l false) := rfl

/-- What a press comes to, by the Lantern's record before it. -/
theorem execSvcButtonPress_pressed : execSvcButtonPress t ⟨l, true⟩ s =
    let v := (s.atTime t).buttonLevel l true
    .next (if !bitOf (s.lan l.val).ctrl 1 || (s.lan l.val).fenced then v
      else match (s.lan l.val).drain with
        | none => if (s.lan l.val).shell = 0 then v.startDrain l.val else v
        | some _ => if (s.lan l.val).drainDone && (s.lan l.val).present && !(s.lan l.val).restoring then
            (v.startRestore l.val).settleRestore l.val else v) := by
  have lan := (s.atTime t).buttonLevel_lan l
  unfold State.buttonLevel at lan
  simp only [execSvcButtonPress, lan]
  rfl

variable {s l}

theorem execSvcButtonPress_disabled (off : bitOf (s.lan l.val).ctrl 1 = false) :
    execSvcButtonPress t ⟨l, true⟩ s = .next ((s.atTime t).buttonLevel l true) := by
  simp [execSvcButtonPress_pressed, off]

section

variable (on : bitOf (s.lan l.val).ctrl 1 = true) (serves : (s.lan l.val).fenced = false)
include on serves

theorem execSvcButtonPress_drains (inService : (s.lan l.val).drain = none) (closed : (s.lan l.val).shell = 0) :
    execSvcButtonPress t ⟨l, true⟩ s = .next (((s.atTime t).buttonLevel l true).startDrain l.val) := by
  simp [execSvcButtonPress_pressed, on, serves, inService, closed]

theorem execSvcButtonPress_restores (drained : (s.lan l.val).drain ≠ none) (done : (s.lan l.val).drainDone = true)
    (present : (s.lan l.val).present = true) (idle : (s.lan l.val).restoring = false) :
    execSvcButtonPress t ⟨l, true⟩ s =
      .next ((((s.atTime t).buttonLevel l true).startRestore l.val).settleRestore l.val) := by
  obtain ⟨since, begun⟩ := Option.ne_none_iff_exists'.1 drained
  simp [execSvcButtonPress_pressed, on, serves, begun, done, present, idle]

end

end

/-! ### Drains that end (R381, R382) -/

section

variable {s : State} {l : Fin 8} (t : Nat) (found : List Nat)

theorem execDrainPortsEmpty_done (drains : (s.lan l.val).drain ≠ none) (unfinished : (s.lan l.val).drainDone = false)
    (empty : ∀ p < 16, (s.link (portKey l.val p)).queue = [] ∧ (s.link (portKey l.val p)).unacked = []) :
    execDrainPortsEmpty t ⟨l, found⟩ s = .next (((s.atTime t).completeDrain l.val).testShutters l.val found) := by
  have begun : (s.lan l.val).drain.isSome = true := Option.isSome_iff_ne_none.2 drains
  have allEmpty : (allPorts.all fun p =>
      (s.link (portKey l.val p)).queue.isEmpty && (s.link (portKey l.val p)).unacked.isEmpty) = true := by
    simpa [allPorts] using empty
  simp [execDrainPortsEmpty, begun, unfinished, allEmpty]

/-- Traffic queued on one port keeps the drain going. -/
theorem execDrainPortsEmpty_queued {p : Nat} (isPort : p < 16) (queued : (s.link (portKey l.val p)).queue ≠ []) :
    execDrainPortsEmpty t ⟨l, found⟩ s = .next (s.atTime t) := by
  have busy : (allPorts.all fun p =>
      (s.link (portKey l.val p)).queue.isEmpty && (s.link (portKey l.val p)).unacked.isEmpty) = false :=
    List.all_eq_false.2 ⟨p, List.mem_range.2 isPort, by simp [queued]⟩
  simp [execDrainPortsEmpty, busy]

theorem execDrainTimeout_unlimited (unlimited : (s.lan l.val).drainLimit = none) :
    execDrainTimeout t ⟨l, found⟩ s = .next (s.atTime t) := by
  cases h : (s.lan l.val).drain <;> simp [execDrainTimeout, unlimited, h]

section

variable {since lim : Nat} (begun : (s.lan l.val).drain = some since) (limit : (s.lan l.val).drainLimit = some lim)
include begun limit

theorem execDrainTimeout_due (unfinished : (s.lan l.val).drainDone = false) (due : since + lim ≤ max s.now t) :
    execDrainTimeout t ⟨l, found⟩ s = .next (((s.atTime t).completeDrain l.val).testShutters l.val found) := by
  simp only [execDrainTimeout, State.atTime_lan_of, State.atTime_now, begun, limit, unfinished, due, decide_true, Bool.not_false,
    Bool.and_self, if_true]

theorem execDrainTimeout_early (early : max s.now t < since + lim) :
    execDrainTimeout t ⟨l, found⟩ s = .next (s.atTime t) := by
  have notDue : ¬ since + lim ≤ max s.now t := Nat.not_le.2 early
  simp only [execDrainTimeout, State.atTime_lan_of, State.atTime_now, begun, limit, notDue, decide_false, Bool.and_false,
    Bool.false_eq_true, if_false]

end

theorem execAutoRestore_on (on : bitOf (s.lan l.val).ctrl 2 = true) (drained : (s.lan l.val).drain ≠ none)
    (done : (s.lan l.val).drainDone = true) (present : (s.lan l.val).present = true)
    (idle : (s.lan l.val).restoring = false) :
    execAutoRestore t l s = .next (((s.atTime t).startRestore l.val).settleRestore l.val) := by
  have begun : (s.lan l.val).drain.isSome = true := Option.isSome_iff_ne_none.2 drained
  simp [execAutoRestore, on, begun, done, present, idle]

theorem execAutoRestore_off (off : bitOf (s.lan l.val).ctrl 2 = false) :
    execAutoRestore t l s = .next (s.atTime t) := by
  simp [execAutoRestore, off]

end

/-! ### A Lantern put under reset (R495, R496) -/

/-- A Lantern's reset entered among those of the last minute. -/
def State.resetNoted (s : State) (l : Nat) : State :=
  let v := s.holdLantern l true
  (v.modLan l fun x => { x with
    resetSince := some v.now,
    resetTimes := (x.resetTimes.filter fun r => decide (v.now < r + 60 * 10 ^ 9)) ++ [v.now] }).oculusUpdate

section

variable {s : State} {l : Nat}

theorem State.resetLantern_fenced (fenced : (s.lan l).fenced = true) : s.resetLantern l = s := if_pos fenced

theorem State.resetLantern_of_unfenced (serves : (s.lan l).fenced = false) : s.resetLantern l =
    if 3 ≤ ((s.resetNoted l).lan l).resetTimes.length then (s.resetNoted l).fenceLantern l 0 else s.resetNoted l :=
  if_neg (by simp [serves])

end

/-! ### A Lantern that comes out of reset (R219, R313, R362, R378, R496) -/

/-- The modules that could not be repaired at training (R313). -/
def modulesOut (bad : List Nat) : List Nat := (List.range 5).filter fun m => bad.contains m

/-- A Lantern out of reset before its shutters are tested: its register domain is up, and each module out of use is logged. -/
def State.lanternReleased (s : State) (l : Nat) (out : List Nat) : State :=
  out.foldl (fun v m => v.report (0x100 + 16 * l) .contained 11 m)
    (((s.modLan l fun x => { x with
      held := false, resetSince := none, modules := (List.range 5).filter fun m => !out.contains m }).restoreDomain
        (4 + l)).oculusUpdate)

/-- The modules of a Lantern report from the source of its port 0. -/
theorem srcLink_portKey_zero (l : Nat) : srcLink (portKey l 0) = 0x100 + 16 * l := by
  have port : ¬ portKey l 0 < 16 := by unfold portKey; omega
  have first : portKey l 0 - 16 = 16 * l := by unfold portKey; omega
  simp only [srcLink, port, first, if_false]

section

variable {s : State} {l : Nat} {bad found : List Nat}

/-- One that is fenced stays dark; its register domain is up again. -/
theorem State.lanternBack_fenced (fenced : (s.lan l).fenced = true) (held : (s.lan l).held = true) : s.lanternBack l bad found =
    ((s.modLan l fun x => { x with held := false, resetSince := none }).restoreDomain (4 + l)).oculusUpdate := by
  simp only [State.lanternBack, fenced, held, if_true]

section

variable (serves : (s.lan l).fenced = false)
include serves

/-- The shutters, the modules and the wavelengths are looked at in this order. -/
theorem State.lanternBack_of_unfenced : s.lanternBack l bad found =
    let v := (s.lanternReleased l (modulesOut bad)).testShutters l found
    if (v.lan l).fenced then v
    else if 2 ≤ (modulesOut bad).length then v.fenceLantern l 0x0B
    else if (v.lan l).waves.length < 8 then v.fenceLantern l 0x06
    else v.relight l := by
  simp only [State.lanternBack, serves, srcLink_portKey_zero, Bool.false_eq_true, if_false]
  rfl

variable (released : ((s.lanternReleased l (modulesOut bad)).lan l).fenced = false)
include released

/-- A shutter that lets light through fences the Lantern. -/
theorem State.lanternBack_badShutter {f : Nat} (leaks : badFibre found = some f)
    (fences : ((((s.lanternReleased l (modulesOut bad)).report (srcLantern l) .contained 8 f).fenceLantern l 8).lan l).fenced =
      true) : s.lanternBack l bad found =
    ((s.lanternReleased l (modulesOut bad)).report (srcLantern l) .contained 8 f).fenceLantern l 8 := by
  have tested : (s.lanternReleased l (modulesOut bad)).testShutters l found =
      ((s.lanternReleased l (modulesOut bad)).report (srcLantern l) .contained 8 f).fenceLantern l 8 := by
    simp only [State.testShutters, leaks, released, Bool.false_eq_true, if_false]
  simp only [State.lanternBack_of_unfenced serves, tested, fences, if_true]

variable (tight : badFibre found = none)
include tight

/-- With its shutters good, the modules and the wavelengths decide. -/
theorem State.lanternBack_of_tight : s.lanternBack l bad found =
    let v := s.lanternReleased l (modulesOut bad)
    if 2 ≤ (modulesOut bad).length then v.fenceLantern l 0x0B
    else if (v.lan l).waves.length < 8 then v.fenceLantern l 0x06
    else v.relight l := by
  have tested : (s.lanternReleased l (modulesOut bad)).testShutters l found = s.lanternReleased l (modulesOut bad) := by
    simp only [State.testShutters, tight]
  simp only [State.lanternBack_of_unfenced serves, tested, released, Bool.false_eq_true, if_false]

end

end

section

variable {s : State} {l : Fin 8} (t : Nat)

theorem execLanternReturn_of_reset (reset : (s.lan l.val).resetSince ≠ none) (bad : List (Fin 5)) (found : List Nat) :
    execLanternReturn t l bad found s = .next ((s.atTime t).lanternBack l.val (bad.map (·.val)) found) := by
  simp [execLanternReturn, reset]

theorem execLanternReturn_of_up (up : (s.lan l.val).resetSince = none) (bad : List (Fin 5)) (found : List Nat) :
    execLanternReturn t l bad found s = .next (s.atTime t) := by
  simp [execLanternReturn, up]

theorem execLanternReturnTimeout_of_reset (reset : (s.lan l.val).resetSince ≠ none) :
    execLanternReturnTimeout t l s = .next ((s.atTime t).fenceLantern l.val 0) := by
  simp [execLanternReturnTimeout, Option.isSome_iff_ne_none, reset]

theorem execLanternReturnTimeout_of_up (up : (s.lan l.val).resetSince = none) :
    execLanternReturnTimeout t l s = .next (s.atTime t) := by
  simp [execLanternReturnTimeout, up]

/-! ### The end of a thermal stop (R431) -/

variable {c : Nat} (cool : (s.die (3 + l.val)).coolSince = some c)
include cool

theorem execLanternStopExit_due (stopped : (s.lan l.val).stop = true) (due : c + 10 ^ 9 ≤ max s.now t) :
    execLanternStopExit t l s = .next ((((s.atTime t).modLan l.val fun x => { x with stop := false }).modDie (3 + l.val)
      fun d => { d with stop := false }).relight l.val) := by
  simp only [execLanternStopExit, State.atTime_lan_of, State.atTime_die_of, State.atTime_now, cool, stopped, due, decide_true,
    Bool.and_self, if_true]

theorem execLanternStopExit_early (early : max s.now t < c + 10 ^ 9) : execLanternStopExit t l s = .next (s.atTime t) := by
  have notDue : ¬ c + 10 ^ 9 ≤ max s.now t := Nat.not_le.2 early
  simp only [execLanternStopExit, State.atTime_die_of, State.atTime_now, cool, notDue, decide_false, Bool.and_false,
    Bool.false_eq_true, if_false]

end

/-- Settles O45: each command and each event by the rule for its case. That the fence of a Lantern lost or reset three times carries
cause 0, that BUTTON follows the level of the input, and that a domain up again has the values from before its reset are the
model's choices (notes/assumptions, rows 18, 29 and 85). -/
theorem lanternServiceAndResets : Obligations.LanternServiceAndResets := by
  intro t id l s x
  refine ⟨?drain, fun u a taken => State.actOn_of_taken taken _, ?button, ?empty, ?timeout,
    fun found => execDrainTimeout_unlimited t found, execAutoRestore_on t, execAutoRestore_off t, ?fencedReset, ?reset, ?back,
    ?fencedBack, fun up => ⟨execLanternReturn_of_up t up, execLanternReturnTimeout_of_up t up⟩, ?stop⟩
  case drain =>
    intro u a ready
    have acts := State.act_of_ready ready fun a s => s.serviceDrain a
    exact ⟨fun drains begun => acts.trans (congrArg _ (State.serviceDrain_begun drains begun)),
      fun restores idle => acts.trans (congrArg _ (State.serviceDrain_restored restores idle)),
      fun abandons => acts.trans (congrArg _ (State.serviceDrain_abandoned abandons))⟩
  case button =>
    exact ⟨execSvcButtonPress_drains t, execSvcButtonPress_disabled t, execSvcButtonPress_restores t,
      execSvcButtonPress_released s t l⟩
  case empty =>
    exact fun drains unfinished found => ⟨execDrainPortsEmpty_done t found drains unfinished,
      execDrainPortsEmpty_queued t found (by decide)⟩
  case timeout =>
    exact fun since lim found begun limit unfinished => ⟨execDrainTimeout_due t found begun limit unfinished,
      execDrainTimeout_early t found begun limit⟩
  case fencedReset =>
    exact fun fenced => congrArg _ (State.resetLantern_fenced (s := s.atTime t) fenced)
  case reset =>
    intro serves
    have resets := State.resetLantern_of_unfenced (s := s.atTime t) serves
    exact ⟨fun few => congrArg _ (resets.trans (if_neg (Nat.not_le.2 few))),
      fun third => congrArg _ (resets.trans (if_pos third))⟩
  case back =>
    intro reset serves
    refine ⟨fun bad found released => ?_, execLanternReturnTimeout_of_reset t reset⟩
    have returns := execLanternReturn_of_reset t reset bad found
    have decided := State.lanternBack_of_tight (s := s.atTime t) (found := found) serves released
    exact ⟨fun tight repaired lit => returns.trans (congrArg _ ((decided tight).trans
        ((if_neg (Nat.not_le.2 repaired)).trans (if_neg (Nat.not_lt.2 lit))))),
      fun tight repaired dim => returns.trans (congrArg _ ((decided tight).trans
        ((if_neg (Nat.not_le.2 repaired)).trans (if_pos dim)))),
      fun tight broken => returns.trans (congrArg _ ((decided tight).trans (if_pos broken))),
      fun f leaks fences => returns.trans (congrArg _
        (State.lanternBack_badShutter (s := s.atTime t) serves released leaks fences))⟩
  case fencedBack =>
    exact fun fenced held reset bad found => (execLanternReturn_of_reset t reset bad found).trans
      (congrArg _ (State.lanternBack_fenced (s := s.atTime t) fenced held))
  case stop =>
    exact fun c cool stopped => ⟨execLanternStopExit_due t cool stopped, execLanternStopExit_early t cool⟩

end Sys2Proof.Machine
end

section
/-! PROOFS. Commanded and abrupt resets of a half, its return and its failed starts, and single-half operation (R234, R495-R502). -/

namespace Sys2Proof.Machine

/-! ### Actions of DRM_RESET_CTRL that carry a key (R503) -/

section

variable {s : State} {q : Fin 4}

theorem bitsOf_resetWord_key (key : Nat) {action : Nat} (code : action < 16) :
    bitsOf (resetWord key action) 31 16 = key % 2 ^ 16 := by
  simp only [bitsOf, resetWord, Nat.shiftRight_eq_div_pow]
  omega

theorem resetWord_mod (key : Nat) {action : Nat} (code : action < 16) : resetWord key action % 16 = action := by
  unfold resetWord
  omega

/-- A write to an endpoint that serves no pages changes nothing. -/
theorem State.writeResetCtrl_closed (closed : s.pagesOpen q = false) (v : Nat) : s.writeResetCtrl (.host q) v = s := by
  simp only [State.writeResetCtrl, State.writerOpen, closed, Bool.not_false, if_true]

section

variable (served : s.pagesOpen q = true)
include served

theorem State.writeResetCtrl_dropped (plain : s.isSteward q = false) (v : Nat) :
    s.writeResetCtrl (.host q) v = s.goard q false := by
  simp only [State.writeResetCtrl, State.writerOpen, State.dropWrite, served, plain, Bool.not_true, Bool.not_false,
    Bool.false_eq_true, if_false, if_true]

variable (steward : s.isSteward q = true) {key action : Nat} (code : action < 16)
include steward code

theorem State.writeResetCtrl_unkeyed (unkeyed : key % 2 ^ 16 ≠ 0x5253) :
    s.writeResetCtrl (.host q) (resetWord key action) = s.badValue 0 := by
  simp only [State.writeResetCtrl, State.writerOpen, served, steward, bitsOf_resetWord_key key code, Bool.not_true,
    Bool.false_eq_true, if_false]
  exact if_pos unkeyed

theorem State.writeResetCtrl_keyed (keyed : key % 2 ^ 16 = 0x5253) :
    s.writeResetCtrl (.host q) (resetWord key action) = s.resetAction (.host q) action := by
  simp only [State.writeResetCtrl, State.writerOpen, served, steward, bitsOf_resetWord_key key code, resetWord_mod key code,
    Bool.not_true, Bool.false_eq_true, if_false]
  exact if_neg fun unkeyed => unkeyed keyed

end

/-- What a host's write of an action with a key comes to, by its pages, its role and the key. -/
theorem State.writeResetCtrl_cases (t key : Nat) {action : Nat} (code : action < 16) :
    let u := s.atTime t
    let answer : Host.Outcome State Fault Refusal := .next (u.writeResetCtrl (.host q) (resetWord key action))
    (s.pagesOpen q = true → s.isSteward q = false → answer = .next (u.goard q false)) ∧
    (s.pagesOpen q = true → s.isSteward q = true → key % 2 ^ 16 ≠ 0x5253 → answer = .next (u.badValue 0)) ∧
    (s.pagesOpen q = true → s.isSteward q = true → key % 2 ^ 16 = 0x5253 → answer = .next (u.resetAction (.host q) action)) ∧
    (s.pagesOpen q = false → answer = .next u) := by
  refine ⟨?dropped, ?unkeyed, ?keyed, ?closed⟩
  case dropped =>
    exact fun served plain => congrArg _ (State.writeResetCtrl_dropped (s := s.atTime t) served plain _)
  case unkeyed =>
    exact fun served steward unkeyed => congrArg _ (State.writeResetCtrl_unkeyed (s := s.atTime t) served steward code unkeyed)
  case keyed =>
    exact fun served steward keyed => congrArg _ (State.writeResetCtrl_keyed (s := s.atTime t) served steward code keyed)
  case closed =>
    exact fun closed => congrArg _ (State.writeResetCtrl_closed (s := s.atTime t) closed _)

end

/-! ### Resets and losses by cause (R495, R498, R501) -/

section

variable {s : State} {h : Half}

theorem State.resetHalf_up (running : s.running = true) (up : s.halfUp h = true) (cause : Nat) :
    s.resetHalf h cause = s.orderlyHalf h cause := by
  simp only [State.resetHalf, running, up, Bool.and_self, if_true]

theorem State.crashHalf_running (running : s.running = true) (cause : Nat) : s.crashHalf h cause = s.abruptHalf h cause :=
  if_pos running

theorem State.crashHalf_starting (starting : s.running = false) (cause : Nat) : s.crashHalf h cause = s :=
  if_neg (Bool.eq_false_iff.1 starting)

/-- The steward's orderly reset of a half in service names the steward's port as its cause. -/
theorem State.resetAction_orderly (q : Fin 4) (up : s.halfUp h = true) (alone : s.underReset (other h) = false)
    (running : s.running = true) : s.resetAction (.host q) (1 + halfNo h) = s.orderlyHalf h (srcPort q) := by
  have resets : s.resetAction (.host q) (1 + halfNo h) = s.resetHalf h (srcPort q) := by
    cases h <;> simp only [State.resetAction, halfNo, writerSource, up, alone, Bool.not_false, Bool.and_self, if_true]
  exact resets.trans (State.resetHalf_up running up _)

/-- A half is declared lost by command only while neither is. -/
theorem State.resetAction_lose (q : Fin 4) (kept : (s.arr.get h).half ≠ .lost) (otherKept : (s.arr.get (other h)).half ≠ .lost) :
    s.resetAction (.host q) (3 + halfNo h) = s.loseHalf h (srcPort q) := by
  cases h <;> simp only [State.resetAction, halfNo, writerSource, kept, otherKept, or_self, if_false]

/-! ### The preparation of an orderly reset that takes too long (R495) -/

variable (t : Nat)

theorem execOrderlyResetTimeout_due (orderly : (s.arr.get h).half = .orderly) (running : s.running = true)
    (due : (s.arr.get h).resetSince + 5000000 ≤ max s.now t) :
    execOrderlyResetTimeout t h s = .next ((s.atTime t).abruptHalf h (s.arr.get h).resetCause) :=
  congrArg _ ((if_pos ⟨orderly, due⟩).trans (State.crashHalf_running (s := s.atTime t) running _))

theorem execOrderlyResetTimeout_other (unasked : (s.arr.get h).half ≠ .orderly) :
    execOrderlyResetTimeout t h s = .next (s.atTime t) :=
  congrArg _ (if_neg fun due => unasked due.1)

/-! ### The return of a half and its failed starts (R498-R501) -/

/-- A half that is not under reset, or that still prepares it, does not start. -/
theorem execHalfStart_none (idle : s.underReset h = false ∨ (s.arr.get h).preparing = true) :
    (∀ r, execHalfReturn t h r s = .next (s.atTime t)) ∧ execHalfStartFailure t h s = .next (s.atTime t) := by
  have stays : (!(s.atTime t).underReset h || ((s.atTime t).arr.get h).preparing) = true := by
    change (!s.underReset h || (s.arr.get h).preparing) = true
    simpa using idle
  exact ⟨fun r => congrArg _ (if_pos stays), congrArg _ (if_pos stays)⟩

section

variable (reset : s.underReset h = true) (starts : (s.arr.get h).preparing = false)
include reset starts

/-- One under reset that is past its preparation starts. -/
theorem State.halfStarts : ¬ (!(s.atTime t).underReset h || ((s.atTime t).arr.get h).preparing) = true := by
  change ¬ (!s.underReset h || (s.arr.get h).preparing) = true
  simp [reset, starts]

theorem execHalfReturn_own (r : HalfReport)
    (own : s.identityFaults r.identity (halfNo h :: (lansOf h).map (· + 3)) = []) :
    execHalfReturn t h r s = .next ((s.atTime t).halfBack h r) := by
  refine congrArg _ ((if_neg (State.halfStarts t reset starts)).trans (if_neg ?_))
  change ¬ (!(s.identityFaults r.identity (halfNo h :: (lansOf h).map (· + 3))).isEmpty) = true
  simp [own]

/-- A die or stack that is not the package's own ends in the safe state (R317). -/
theorem execHalfReturn_foreign (r : HalfReport) {d : Nat} {ds : List Nat}
    (foreign : s.identityFaults r.identity (halfNo h :: (lansOf h).map (· + 3)) = d :: ds) :
    execHalfReturn t h r s =
      .next (((d :: ds).foldl (fun v x => v.report 0x002 .fatal 2 x) (s.atTime t)).safeState false) := by
  have found : (s.atTime t).identityFaults r.identity (halfNo h :: (lansOf h).map (· + 3)) = d :: ds := foreign
  refine congrArg _ ((if_neg (State.halfStarts t reset starts)).trans ?_)
  simp only [found, List.isEmpty_cons, Bool.not_false, if_true]

theorem execHalfStartFailure_first (first : (s.arr.get h).failedStarts = 0) :
    execHalfStartFailure t h s = .next ((s.atTime t).modArr h fun a => { a with failedStarts := 1 }) := by
  refine congrArg _ ((if_neg (State.halfStarts t reset starts)).trans ?_)
  simp only [State.atTime_arr, first, Nat.zero_add, Nat.reduceLeDiff, if_false]

theorem execHalfStartFailure_second (second : (s.arr.get h).failedStarts = 1) :
    execHalfStartFailure t h s =
      .next (((s.atTime t).modArr h fun a => { a with failedStarts := 2 }).loseHalf h (s.arr.get h).resetCause) := by
  refine congrArg _ ((if_neg (State.halfStarts t reset starts)).trans ?_)
  simp only [State.atTime_arr, second, Nat.reduceAdd, Nat.le_refl, if_true]

end

end

/-- Settles O50: a keyed command by the port that writes it, each event of a half by the half's state. That a commanded reset or
loss carries the source of the steward's port as its cause is the model's choice (notes/assumptions, row 14). -/
theorem halvesResetAndReturn : Obligations.HalvesResetAndReturn := by
  intro t q h key s u cmd
  have small : halfNo h < 2 := by cases h <;> decide
  refine ⟨?reset, ?lose, ?single, State.resetAction_orderly q, State.resetAction_lose q, ?unlock, ?unlockEarly,
    execOrderlyResetTimeout_due t, execOrderlyResetTimeout_other t, ?returns, execHalfStartFailure_first t,
    execHalfStartFailure_second t, fun idle => (execHalfStart_none t idle).2⟩
  case reset => exact State.writeResetCtrl_cases t key (by omega)
  case lose => exact State.writeResetCtrl_cases t key (by omega)
  case single => exact State.writeResetCtrl_cases t key (by omega)
  case unlock => exact fun running => congrArg _ (State.crashHalf_running (s := u) running _)
  case unlockEarly => exact fun starting => congrArg _ (State.crashHalf_starting (s := u) starting _)
  case returns =>
    exact fun r => ⟨fun prepares => (execHalfStart_none t (.inr prepares)).1 r,
      fun reset starts own => execHalfReturn_own t reset starts r own,
      fun d ds reset starts foreign => execHalfReturn_foreign t reset starts r foreign,
      fun up => (execHalfStart_none t (.inl up)).1 r⟩

end Sys2Proof.Machine
end

section
/-! PROOFS. Keep's commands, SPDM on an endpoint's mailbox and DOE discovery (R223, R289-R291, R464, R466, R470-R472). -/

namespace Sys2Proof.Machine

/-! ### ATTEST, DEBUG_UNLOCK, FW_UPDATE (R289-R291) -/

section

variable {s u : State} {t id : Nat} {a : Acc}

theorem execAttest_ready (ready : s.KeepReady t id 0x0901 a u) :
    let b := u.transcript (a.par 48 4) (slice a.pkt 16 32)
    execAttest t id s = .next (if b.length ≤ a.par 60 4 then (u.dma a (a.par 52 8) b).reply a stOK b.length 0 0
      else u.reply a stBadParam 0 b.length 0) := by
  refine (State.keepAct_of_ready ready _).trans ?_
  simp only [← Nat.not_le, ite_not]

theorem State.debugUnlock_challenge (asks : a.par 16 1 = 0) : u.debugUnlock a = (({ u with sec := { u.sec with
    challenge := some (u.newChallenge (a.par 17 1)), nonces := u.sec.nonces + 1 } } : State).dma a (a.par 24 8)
      (u.newChallenge (a.par 17 1))).reply a stOK (16 * u.sec.st.code) 0 0 :=
  if_pos asks

section

variable (answers : a.par 16 1 = 1)
include answers

theorem State.debugUnlock_unverified (wrong : u.unlockKey (a.ext.take 245) (a.par 17 1) = none) : u.debugUnlock a =
    ({ u with sec := { u.sec with challenge := none } } : State).reply a stDenied (16 * u.sec.st.code) 0 0 := by
  simp only [State.debugUnlock, answers, wrong, Nat.one_ne_zero, if_false, if_true]

/-- The Observe scope from LOCKED is granted at once to a response that verifies. -/
theorem State.debugUnlock_observe (observe : a.par 17 1 = 1) (locked : u.sec.st = .locked) : u.debugUnlock a =
    match u.unlockKey (a.ext.take 245) 1 with
    | none => ({ u with sec := { u.sec with challenge := none } } : State).reply a stDenied (16 * SecState.locked.code) 0 0
    | some k => (({ u with sec := { u.sec with challenge := none, debugKey := k } } :
        State).moveSecurity .observe).reply a stOK (16 * SecState.observe.code) 0 0 := by
  cases key : u.unlockKey (a.ext.take 245) 1 with
  | none => rw [State.debugUnlock_unverified answers (by rw [observe]; exact key), locked]
  | some k =>
    simp only [State.debugUnlock, answers, observe, key, locked, Nat.one_ne_zero, Nat.reduceEqDiff, reduceCtorEq, if_false, if_true]

end

/-- Leaving Control is a device reset. -/
theorem State.debugUnlock_leaveControl (locks : a.par 16 1 = 2) (control : u.sec.st = .control) :
    u.debugUnlock a = u.deviceReset 5 := by
  simp only [State.debugUnlock, locks, control, Nat.reduceEqDiff, Nat.succ_ne_zero, if_false, if_true]

theorem State.fwUpdate_opens (free : u.sec.session = none) : u.fwUpdate a = ({ u with sec := { u.sec with
    session := some ⟨1 - u.sec.runSlot, a.par 20 4, 0, u.now, false⟩ } } : State).reply a stOK (1 - u.sec.runSlot) 0 0 := by
  simp only [State.fwUpdate, free]

section

variable {x : Session} (opened : u.sec.session = some x)
include opened

theorem State.fwUpdate_chunk (sends : a.par 16 1 = 1) (good : u.hostBad a.part (a.par 32 8) (a.par 24 4) = false) :
    u.fwUpdate a = (u.writeImage (a.par 28 4) (u.hostRead a.part (a.par 32 8) (a.par 24 4))).reply a stOK
      x.slot (min x.len (x.received + a.par 24 4)) 0 := by
  simp only [State.fwUpdate, opened, sends, good, Bool.false_eq_true, if_false, if_true]

/-- The end of an image marks its slot when the image is good; the session is over either way. -/
theorem State.fwUpdate_verifies (ends : a.par 16 1 = 2) : u.fwUpdate a =
    if u.imageGood x.slot x.len then (u.markSlot x.slot).endSession.reply a stOK x.slot x.received 0
    else u.endSession.reply a stDenied x.slot x.received 0 := by
  simp only [State.fwUpdate, opened, ends, Nat.reduceEqDiff, if_false, if_true]

end

@[simp] theorem State.markSlot_nextSlot (slot : Nat) : (u.markSlot slot).sec.nextSlot = slot := rfl

end

/-! ### An update session that is not used (R470) -/

section

variable {s : State} (t : Nat)

theorem execUpdateSessionTimeout_due {x : Session} (opened : s.sec.session = some x)
    (due : x.lastUse + 60 * 10 ^ 9 ≤ max s.now t) : execUpdateSessionTimeout t s = .next (s.atTime t).endSession := by
  simp only [execUpdateSessionTimeout, State.atTime_sec, State.atTime_now, opened, due, if_true]

theorem execUpdateSessionTimeout_none (free : s.sec.session = none) :
    execUpdateSessionTimeout t s = .next (s.atTime t) := by
  simp only [execUpdateSessionTimeout, State.atTime_sec, free]

end

/-! ### Requests to an endpoint's mailbox (R223, R235, R471) -/

section

variable {s : State} {p : Fin 4} (t : Nat)

/-- A mailbox that is not reached answers nothing. -/
theorem State.spdm_unreached (closed : s.doeOpen p = false) (level stage : Nat) (f : State → State) :
    s.spdm t p level stage f = .next (s.atTime t) := by
  have closed : (s.atTime t).doeOpen p = false := closed
  simp only [State.spdm, closed, Bool.not_false, if_true]

theorem execDoeDiscovery_unreached (closed : s.doeOpen p = false) (i : BitVec 8) :
    execDoeDiscovery t p i s = .next (s.atTime t) := by
  have closed : (s.atTime t).doeOpen p = false := closed
  simp only [execDoeDiscovery, closed, Bool.not_false, if_true]

/-- Every security state serves version and capabilities (Table 19-7). -/
theorem State.one_le_spdmLevel (s : State) : 1 ≤ s.spdmLevel := by
  unfold State.spdmLevel
  cases s.sec.st <;> decide

theorem State.spdmLevel_of_terminated (terminated : s.sec.st = .terminated) : s.spdmLevel = 1 := by
  simp only [State.spdmLevel, terminated]

/-- All but TERMINATED serve the algorithms too. -/
theorem State.two_le_spdmLevel (alive : s.sec.st ≠ .terminated) : 2 ≤ s.spdmLevel := by
  unfold State.spdmLevel
  cases state : s.sec.st with
  | terminated => exact absurd state alive
  | _ => decide

section

variable (reached : s.doeOpen p = true)
include reached

theorem State.spdm_reached (level stage : Nat) (f : State → State) : s.spdm t p level stage f =
    .next ((s.atTime t).cfgRequest p fun u =>
      if u.spdmLevel < level then (s.atTime t).modPort p fun x => { x with doe := .error errUnsupported }
      else if (u.port p).spdm.rank < stage then (s.atTime t).modPort p fun x => { x with doe := .error errUnexpected }
      else f u) := by
  have reached : (s.atTime t).doeOpen p = true := reached
  simp only [State.spdm, reached, Bool.not_true, Bool.false_eq_true, if_false]

theorem execDoeDiscovery_reached (i : BitVec 8) : execDoeDiscovery t p i s =
    .next ((s.atTime t).cfgRequest p fun u => u.modPort p fun x =>
      if i = 0 then { x with doe := .discovery 1 0 1 }
      else if i = 1 then { x with doe := .discovery 1 1 0 } else { x with doe := .discovery 0xFFFF 0 0 }) := by
  have reached : (s.atTime t).doeOpen p = true := reached
  simp only [execDoeDiscovery, reached, Bool.not_true, Bool.false_eq_true, if_false]

/-- While the partition resets the bus gets Request Retry Status (R235). -/
theorem State.spdm_resetting (busy : (s.part p).resetting = true) (level stage : Nat) (f : State → State) :
    s.spdm t p level stage f = .next { s.atTime t with bus := ⟨0, [], false, false, true⟩ } :=
  (State.spdm_reached t reached level stage f).trans (congrArg _ (State.cfgRequest_resetting (s := s.atTime t) busy _))

theorem execDoeDiscovery_resetting (busy : (s.part p).resetting = true) (i : BitVec 8) :
    execDoeDiscovery t p i s = .next { s.atTime t with bus := ⟨0, [], false, false, true⟩ } :=
  (execDoeDiscovery_reached t reached i).trans (congrArg _ (State.cfgRequest_resetting (s := s.atTime t) busy _))

variable (idle : (s.part p).resetting = false)
include idle

theorem execDoeDiscovery_idle (i : BitVec 8) : execDoeDiscovery t p i s =
    .next ((s.atTime t).modPort p fun x =>
      if i = 0 then { x with doe := .discovery 1 0 1 }
      else if i = 1 then { x with doe := .discovery 1 1 0 } else { x with doe := .discovery 0xFFFF 0 0 }) :=
  (execDoeDiscovery_reached t reached i).trans (congrArg _ (State.cfgRequest_idle (s := s.atTime t) idle _))

section

variable {level stage : Nat} (f : State → State)

/-- What the security state does not serve is unsupported, whatever the context's stage. -/
theorem State.spdm_unsupported (unserved : s.spdmLevel < level) : s.spdm t p level stage f =
    .next ((s.atTime t).modPort p fun x => { x with doe := .error errUnsupported }) :=
  (State.spdm_reached t reached level stage f).trans
    (congrArg _ ((State.cfgRequest_idle (s := s.atTime t) idle _).trans (if_pos unserved)))

variable (serves : level ≤ s.spdmLevel)
include serves

/-- A request before its turn is unexpected. -/
theorem State.spdm_unexpected (early : (s.port p).spdm.rank < stage) : s.spdm t p level stage f =
    .next ((s.atTime t).modPort p fun x => { x with doe := .error errUnexpected }) :=
  (State.spdm_reached t reached level stage f).trans
    (congrArg _ ((State.cfgRequest_idle (s := s.atTime t) idle _).trans
      ((if_neg (Nat.not_lt.2 serves)).trans (if_pos early))))

theorem State.spdm_served (inTurn : stage ≤ (s.port p).spdm.rank) : s.spdm t p level stage f = .next (f (s.atTime t)) :=
  (State.spdm_reached t reached level stage f).trans
    (congrArg _ ((State.cfgRequest_idle (s := s.atTime t) idle _).trans
      ((if_neg (Nat.not_lt.2 serves)).trans (if_neg (Nat.not_lt.2 inTurn)))))

end

end

end

/-! ### A port after a change, and what a measurement reads (R472) -/

section

variable {s : State} {p : Fin 4} (t : Nat)

/-- A change of a port is judged by what it makes of the port as it is. -/
theorem State.modPort_congr {f g : Port → Port} (same : f (s.port p) = g (s.port p)) : s.modPort p f = s.modPort p g := by
  have same : f (tget Port.init s.ports p.val) = g (tget Port.init s.ports p.val) := same
  simp only [State.modPort, tmod, same]

/-- A port changed to something other than its reset value is read as changed. -/
theorem State.modPort_port {f : Port → Port} (set : f (s.port p) ≠ Port.init) : (s.modPort p f).port p = f (s.port p) :=
  (tget_tset_of_ne_default set s.ports p.val p.val).trans (if_pos rfl)

/-- The running image is read from what Keep holds alone. -/
theorem State.runComponent_congr {u : State} (same : u.sec = s.sec) (i : Nat) : u.runComponent i = s.runComponent i := by
  unfold State.runComponent
  rw [same]

@[simp] theorem State.atTime_runComponent (i : Nat) : (s.atTime t).runComponent i = s.runComponent i :=
  State.runComponent_congr (s.atTime_sec t) i

@[simp] theorem State.atTime_measured (i : Nat) : (s.atTime t).measured i = s.measured i := by
  simp only [State.measured, State.atTime_runComponent] <;> rfl

@[simp] theorem State.atTime_signed (l : List Byte) : (s.atTime t).signed l = s.signed l := rfl

/-- The end of a run of measurements leaves the rest of a port whose algorithms are agreed. -/
theorem State.notMeasuring_port_of_agreed (agreed : (s.port p).spdm = .algos) :
    ((s.atTime t).notMeasuring p).port p = { s.port p with measures := [] } := by
  have set : ({ (s.atTime t).port p with measures := [] } : Port) ≠ Port.init := fun same => by
    have fresh : (s.port p).spdm = SpdmStage.none := congrArg Port.spdm same
    exact SpdmStage.noConfusion (agreed.symm.trans fresh)
  exact State.modPort_port set

end

/-! ### The order of SPDM's requests (R471) -/

section

variable {s : State} {p : Fin 4} (t : Nat)

variable (reached : s.doeOpen p = true) (idle : (s.part p).resetting = false)
include reached idle

theorem execSpdmGetVersion_reached : execSpdmGetVersion t p s = .next ((s.atTime t).modPort p fun x => { x with
    spdm := .version, deferred := none, certs := [], measures := [],
    transcript := spdmMessage 0 0 [] ++ spdmMessage 1 0 [], doe := .bytes (spdmMessage 1 0 []) }) :=
  State.spdm_served t reached idle _ s.one_le_spdmLevel (Nat.zero_le _)

theorem execSpdmGetCapabilities_inTurn (begun : (s.port p).spdm ≠ .none) : execSpdmGetCapabilities t p s =
    .next (((s.atTime t).notMeasuring p).modPort p fun x => { x with
      spdm := .caps, transcript := x.transcript ++ spdmMessage 2 0 [] ++ spdmMessage 3 0 [],
      doe := .bytes (spdmMessage 3 0 []) }) := by
  have inTurn : 1 ≤ (s.port p).spdm.rank := by
    cases stage : (s.port p).spdm with
    | none => exact absurd stage begun
    | _ => decide
  exact State.spdm_served t reached idle _ s.one_le_spdmLevel inTurn

theorem execSpdmGetCapabilities_early (fresh : (s.port p).spdm = .none) : execSpdmGetCapabilities t p s =
    .next ((s.atTime t).modPort p fun x => { x with doe := .error errUnexpected }) :=
  State.spdm_unexpected t reached idle _ s.one_le_spdmLevel (by rw [fresh]; decide)

theorem execSpdmNegotiateAlgorithms_inTurn (begun : (s.port p).spdm = .caps) (alive : s.sec.st ≠ .terminated) :
    execSpdmNegotiateAlgorithms t p s = .next (((s.atTime t).notMeasuring p).modPort p fun x => { x with
      spdm := .algos, transcript := x.transcript ++ spdmMessage 4 0 [] ++ spdmMessage 5 0 [],
      doe := .bytes (spdmMessage 5 0 []) }) :=
  State.spdm_served t reached idle _ (State.two_le_spdmLevel alive) (by rw [begun]; decide)

theorem execSpdmNegotiateAlgorithms_terminated (terminated : s.sec.st = .terminated) :
    execSpdmNegotiateAlgorithms t p s = .next ((s.atTime t).modPort p fun x => { x with doe := .error errUnsupported }) :=
  State.spdm_unsupported t reached idle _ (by rw [State.spdmLevel_of_terminated terminated]; decide)

/-- A request of another code is unsupported at every stage. -/
theorem execSpdmRespondIfReady_other {code : BitVec 8} (unknown : code ≠ 0xFF) : execSpdmRespondIfReady t ⟨p, code⟩ s =
    .next (((s.atTime t).notMeasuring p).modPort p fun x => { x with doe := .error errUnsupported }) :=
  (if_neg unknown).trans (State.spdm_served t reached idle _ (Nat.zero_le _) (Nat.zero_le _))

/-! ### The requests after the negotiation (R464, R471, R472) -/

section

variable (agreed : (s.port p).spdm = .algos) (serves : 3 ≤ s.spdmLevel)
include agreed serves

theorem State.spdm_agreed (f : State → State) : s.spdm t p 3 3 f = .next (f (s.atTime t)) :=
  State.spdm_served t reached idle f serves (by rw [agreed]; decide)

theorem execSpdmGetDigests_served (chain : s.sec.chainServed = true) : execSpdmGetDigests t p s =
    .next ((s.atTime t).serveChain p (spdmMessage 12 0 []) (spdmMessage 8 0 (digest Config.certChain))) :=
  (State.spdm_agreed t reached idle agreed serves _).trans (congrArg _ (if_pos chain))

theorem execSpdmGetDigests_unserved (noChain : s.sec.chainServed = false) : execSpdmGetDigests t p s =
    .next (((s.atTime t).notMeasuring p).modPort p fun x => { x with doe := .error errUnsupported }) :=
  (State.spdm_agreed t reached idle agreed serves _).trans (congrArg _ (if_neg (Bool.eq_false_iff.1 noChain)))

/-- A part of the chain that begins within it is served. -/
theorem execSpdmGetCertificate_slotZero (chain : s.sec.chainServed = true) (off len : Nat) :
    let b := (Config.certChain.drop off).take len
    execSpdmGetCertificate t ⟨p, 0⟩ off len s = .next (if off < Config.certChain.length then
        (s.atTime t).serveChain p (spdmMessage 13 0 (leBytes 2 off ++ leBytes 2 len)) (spdmMessage 9 0
          (leBytes 2 b.length ++ leBytes 2 (Config.certChain.length - off - b.length) ++ b))
      else ((s.atTime t).notMeasuring p).modPort p fun x => { x with doe := .error errInvalid }) := by
  refine (State.spdm_agreed t reached idle agreed serves _).trans (congrArg _ ?_)
  simp only [State.atTime_sec, chain, Bool.not_true, Bool.false_eq_true, ne_eq, not_true_eq_false, false_or, ← Nat.not_lt,
    ite_not, if_false]
  rfl

/-- Only certificate slot 0 is populated. -/
theorem execSpdmGetCertificate_otherSlot (chain : s.sec.chainServed = true) {k : Fin 16} (other : k ≠ 0) (off len : Nat) :
    execSpdmGetCertificate t ⟨p, k⟩ off len s =
      .next (((s.atTime t).notMeasuring p).modPort p fun x => { x with doe := .error errInvalid }) := by
  refine (State.spdm_agreed t reached idle agreed serves _).trans (congrArg _ ?_)
  simp only [State.atTime_sec, chain, other, Bool.not_true, Bool.false_eq_true, ne_eq, not_false_eq_true, true_or, if_false,
    if_true]

/-- A challenge is answered by a signature over the negotiation, the certificate requests and the exchange. -/
theorem execSpdmChallenge_slotZero (nonce : List Byte) (slow : Bool) :
    let body := spdmMessage 11 0 (digest Config.certChain)
    execSpdmChallenge t ⟨p, 0⟩ nonce slow s =
      .next ((((s.atTime t).notMeasuring p).modPort p fun x => { x with certs := [] }).respond p slow
        (body ++ s.signed ((s.port p).transcript ++ (s.port p).certs ++ spdmMessage 10 0 nonce ++ body))) :=
  State.spdm_agreed t reached idle agreed serves _

theorem execSpdmChallenge_otherSlot {k : Fin 16} (other : k ≠ 0) (nonce : List Byte) (slow : Bool) :
    execSpdmChallenge t ⟨p, k⟩ nonce slow s =
      .next (((s.atTime t).notMeasuring p).modPort p fun x => { x with doe := .error errInvalid }) :=
  (State.spdm_agreed t reached idle agreed serves _).trans (congrArg _ (if_pos other))

/-- No measurement has an index from 10 up, but for the one that asks for all. -/
theorem execSpdmGetMeasurements_unknown {i : BitVec 8} (high : 10 ≤ i.toNat) (one : i.toNat ≠ 255) (k : Fin 16) (sign : Bool)
    (nonce : List Byte) (slow : Bool) : execSpdmGetMeasurements t ⟨p, k⟩ i sign nonce slow s =
      .next ((s.atTime t).modPort p fun x => { x with doe := .error errInvalid }) :=
  (State.spdm_agreed t reached idle agreed serves _).trans (congrArg _ (if_pos (.inl ⟨high, one⟩)))

/-- Index 0 asks how many measurements there are. -/
theorem execSpdmGetMeasurements_count (k : Fin 16) (nonce : List Byte) :
    execSpdmGetMeasurements t ⟨p, k⟩ 0 false nonce false s = .next (((s.atTime t).modPort p fun x => { x with
      measures := (s.port p).measures ++ spdmMessage 6 0 [] ++ spdmMessage 7 0 [9] }).respond p false (spdmMessage 7 0 [9])) := by
  refine (State.spdm_agreed t reached idle agreed serves _).trans (congrArg _ ?_)
  have zero : (0 : BitVec 8).toNat = 0 := rfl
  simp only [zero, Nat.reduceLeDiff, false_and, Bool.false_eq_true, or_self, if_false, if_true, List.flatMap_nil,
    List.append_nil]
  rfl

/-- A signed measurement ends the run of measurements that it signs. -/
theorem execSpdmGetMeasurements_signed {i : BitVec 8} (low : 1 ≤ i.toNat) (known : i.toNat ≤ 9) (nonce : List Byte) :
    let body := spdmMessage 7 i.toNat ([1, BitVec.ofNat 8 i.toNat] ++ digest (s.measured i.toNat))
    execSpdmGetMeasurements t ⟨p, 0⟩ i true nonce false s =
      .next (((s.atTime t).modPort p fun x => { x with measures := [] }).respond p false (body ++ s.signed
        ((s.port p).transcript ++ ((s.port p).measures ++ spdmMessage 6 i.toNat nonce ++ body)))) := by
  refine (State.spdm_agreed t reached idle agreed serves _).trans (congrArg _ ?_)
  have asked : ¬ ((10 ≤ i.toNat ∧ i.toNat ≠ 0xFF) ∨ (true = true ∧ (0 : Fin 16) ≠ 0)) := by
    rintro (⟨high, -⟩ | ⟨-, other⟩)
    · omega
    · exact other rfl
  have counted : i.toNat ≠ 0 := by omega
  have notAll : i.toNat ≠ 0xFF := by omega
  refine (if_neg asked).trans ?_
  simp only [counted, notAll, if_false, if_true, List.flatMap_singleton, State.atTime_measured, State.atTime_signed]
  rfl

/-- The answer that was not ready is handed out, once. -/
theorem execSpdmRespondIfReady_deferred {d : DoeAnswer} (held : (s.port p).deferred = some d) :
    execSpdmRespondIfReady t ⟨p, 0xFF⟩ s =
      .next (((s.atTime t).notMeasuring p).modPort p fun x => { x with doe := d, deferred := none }) := by
  rw [execSpdmRespondIfReady, if_pos rfl, State.spdm_agreed t reached idle agreed serves]
  refine congrArg Host.Outcome.next (State.modPort_congr ?_)
  simp only [State.notMeasuring_port_of_agreed t agreed, held]

theorem execSpdmRespondIfReady_none (nothing : (s.port p).deferred = none) :
    execSpdmRespondIfReady t ⟨p, 0xFF⟩ s =
      .next (((s.atTime t).notMeasuring p).modPort p fun x => { x with doe := .error errUnexpected }) := by
  rw [execSpdmRespondIfReady, if_pos rfl, State.spdm_agreed t reached idle agreed serves]
  refine congrArg Host.Outcome.next (State.modPort_congr ?_)
  simp only [State.notMeasuring_port_of_agreed t agreed, nothing]

end

end

/-- Settles O54: each command of Keep by what it asks for, each SPDM request by whether the security state serves it, whether it
comes in its turn, and its own rule. What the signed transcripts hold, the error for a certificate slot other than 0, and that
another request discards the run of measurements are the model's choices (notes/assumptions, row 108); the error codes are SPDM's
(row 21). -/
theorem keepCommands : Obligations.KeepCommands := by
  intro t id p s
  refine ⟨fun u a ready => execAttest_ready ready, ?unlock, ?update, fun x => execUpdateSessionTimeout_due t,
    execUpdateSessionTimeout_none t, ?resetting, ?reached, ?closed⟩
  case unlock =>
    intro u a ready
    have acts := State.keepAct_of_ready ready fun a s => s.debugUnlock a
    exact ⟨fun asks => acts.trans (congrArg _ (State.debugUnlock_challenge asks)),
      fun answers wrong => acts.trans (congrArg _ (State.debugUnlock_unverified answers wrong)),
      fun answers observe locked => acts.trans (congrArg _ (State.debugUnlock_observe answers observe locked)),
      fun locks control => acts.trans (congrArg _ (State.debugUnlock_leaveControl locks control))⟩
  case update =>
    intro u a ready
    have acts := State.keepAct_of_ready ready fun a s => s.fwUpdate a
    refine ⟨fun free => acts.trans (congrArg _ (State.fwUpdate_opens free)),
      fun x opened sends good => acts.trans (congrArg _ (State.fwUpdate_chunk opened sends good)),
      fun x opened ends good => ⟨?_, State.markSlot_nextSlot _⟩, fun x opened ends bad => ?_⟩
    · exact acts.trans (congrArg _ ((State.fwUpdate_verifies opened ends).trans (if_pos good)))
    · exact acts.trans (congrArg _ ((State.fwUpdate_verifies opened ends).trans (if_neg (Bool.eq_false_iff.1 bad))))
  case resetting =>
    exact fun reached busy => ⟨State.spdm_resetting t reached busy _ _ _, execDoeDiscovery_resetting t reached busy⟩
  case closed =>
    exact fun closed => ⟨State.spdm_unreached t closed _ _ _, execDoeDiscovery_unreached t closed⟩
  case reached =>
    intro reached idle u put quiet served
    refine ⟨execSpdmGetVersion_reached t reached idle, execSpdmGetCapabilities_inTurn t reached idle,
      execSpdmGetCapabilities_early t reached idle, execSpdmNegotiateAlgorithms_inTurn t reached idle,
      execSpdmNegotiateAlgorithms_terminated t reached idle, fun code => execSpdmRespondIfReady_other t reached idle, ?agreed,
      execDoeDiscovery_idle t reached idle 0, execDoeDiscovery_idle t reached idle 1⟩
    intro agreed serves
    exact ⟨execSpdmGetDigests_served t reached idle agreed serves, execSpdmGetDigests_unserved t reached idle agreed serves,
      fun off len chain => execSpdmGetCertificate_slotZero t reached idle agreed serves chain off len,
      fun k off len other chain => execSpdmGetCertificate_otherSlot t reached idle agreed serves chain other off len,
      fun nonce => ⟨execSpdmChallenge_slotZero t reached idle agreed serves nonce false,
        execSpdmChallenge_slotZero t reached idle agreed serves nonce true⟩,
      fun k nonce slow other => execSpdmChallenge_otherSlot t reached idle agreed serves other nonce slow,
      fun k i sign nonce slow high one =>
        execSpdmGetMeasurements_unknown t reached idle agreed serves high one k sign nonce slow,
      execSpdmGetMeasurements_count t reached idle agreed serves,
      fun i nonce low known => execSpdmGetMeasurements_signed t reached idle agreed serves low known nonce,
      fun d => execSpdmRespondIfReady_deferred t reached idle agreed serves,
      execSpdmRespondIfReady_none t reached idle agreed serves⟩

end Sys2Proof.Machine
end

section
/-! PROOFS. Replies: their bytes, the interrupt and what they leave unchanged (R223, R242, R243, R245). -/

namespace Sys2Proof.Machine

/-! ### Message interrupts (R223) -/

theorem length_leBytes (n v : Nat) : (leBytes n v).length = n := by simp [leBytes]

section

variable (s : State) (p : Fin 4) (v : Nat)

/-- Of the ports an interrupt touches at most the pending bits of its own. -/
theorem State.msi_ports : (s.msi p v).ports = s.ports ∨ ∃ f, (s.msi p v).ports = tmod Port.init s.ports p.val f := by
  unfold State.msi
  dsimp only
  split
  case isTrue => exact .inl rfl
  case isFalse =>
    split
    case isTrue => exact .inr ⟨fun x => { x with pba := x.pba ||| 2 ^ v }, rfl⟩
    case isFalse => exact .inl rfl

/-- Of host memory an interrupt writes at most the four bytes of its vector's data word. -/
theorem State.msi_hmem : (s.msi p v).hmem = s.hmem ∨ (s.msi p v).hmem = writeBytes 0 s.hmem
    (hostKey p (tget MsixVec.init (s.port p).msix v).addr) (leBytes 4 (tget MsixVec.init (s.port p).msix v).data) := by
  unfold State.msi
  dsimp only
  split
  case isTrue => exact .inl rfl
  case isFalse =>
    split
    case isTrue => exact .inl rfl
    case isFalse => exact .inr rfl

/-- The bytes of host memory beside the vector's four are as before. -/
theorem State.tget_msi_hmem {k : Nat} (form : twf 0 s.hmem = true)
    (beside : k < hostKey p (tget MsixVec.init (s.port p).msix v).addr ∨
      hostKey p (tget MsixVec.init (s.port p).msix v).addr + 4 ≤ k) : tget 0 (s.msi p v).hmem k = tget 0 s.hmem k := by
  rcases s.msi_hmem p v with same | written
  · rw [same]
  · rw [written]
    exact tget_writeBytes_ne 0 _ _ _ k form (by rwa [length_leBytes])

end

/-! ### What one update leaves unchanged -/

section

variable (s : State) (p : Fin 4)

theorem State.hostWrite_qp (a : Nat) (bs : List Byte) (p' : Fin 4) (q : Fin 16) :
    (s.hostWrite p a bs).qp p' q = s.qp p' q := rfl

theorem State.hostWrite_keepsBut (a : Nat) (bs : List Byte) : s.KeepsBut [.hmem] (s.hostWrite p a bs) := by
  intro f other
  cases f with
  | hmem => exact absurd (List.mem_singleton_self _) other
  | _ => rfl

theorem State.modQp_keepsBut (q : Fin 16) (g : QPair → QPair) : s.KeepsBut [.qps] (s.modQp p q g) := by
  intro f other
  cases f with
  | qps => exact absurd (List.mem_singleton_self _) other
  | _ => rfl

/-- Changes that agree on the queue pair as it stands are one change. -/
theorem State.modQp_congr {q : Fin 16} {f g : QPair → QPair} (agree : f (s.qp p q) = g (s.qp p q)) :
    s.modQp p q f = s.modQp p q g :=
  congrArg (fun x => { s with qps := tset QPair.init s.qps (16 * p.val + q.val) x }) agree

end

/-! ### Replies (R242, R243, R245) -/

theorem length_replyBytes (a : Acc) (q : QPair) (now st d0 d1 d2 : Nat) :
    (replyBytes a q now st d0 d1 d2).length = 32 := by
  simp [replyBytes, length_leBytes]

/-- A queue pair after a reply: the tail on by one entry, PHASE inverted at a wrap, one command fewer outstanding. -/
def QPair.replied (q : QPair) : QPair :=
  { q with
    cqTail := if q.cqTail + 1 = q.size then 0 else q.cqTail + 1,
    phase := if q.cqTail + 1 = q.size then !q.phase else q.phase,
    outstanding := q.outstanding - 1, armed := q.armed && !q.irqEn }

/-- The bytes of a reply written and its queue pair gone on, before the interrupt. -/
def State.putReply (s : State) (a : Acc) (st d0 d1 d2 : Nat) : State :=
  let q := s.qp a.part a.qp
  (s.hostWrite a.part (q.cqBase + 32 * q.cqTail) (replyBytes a q s.now st d0 d1 d2)).modQp a.part a.qp QPair.replied

section

variable (s : State) (a : Acc) (st d0 d1 d2 : Nat)

/-- Nothing is written for a command that a partition reset has ended. -/
theorem State.reply_ended (ended : a.dead = true ∨ (s.part a.part).resetting = true) : s.reply a st d0 d1 d2 = s :=
  if_pos (Bool.or_eq_true_iff.2 ended)

/-- Any other reply is written, and signalled when the host asked for it and has answered the last signal. -/
theorem State.reply_live (live : a.dead = false) (serving : (s.part a.part).resetting = false) : s.reply a st d0 d1 d2 =
    if (s.qp a.part a.qp).irqEn = true ∧ (s.qp a.part a.qp).armed = true
      then (s.putReply a st d0 d1 d2).msi a.part a.qp.val else s.putReply a st d0 d1 d2 := by
  simp only [State.reply, live, serving, Bool.or_self, Bool.false_eq_true, if_false, Bool.and_eq_true, beq_iff_eq]
  rw [State.putReply, State.modQp_congr _ _ (g := QPair.replied)]
  by_cases wraps : (s.qp a.part a.qp).cqTail + 1 = (s.qp a.part a.qp).size <;>
    simp [QPair.replied, State.hostWrite_qp, wraps]

/-- All that a reply can do: nothing, its bytes, or its bytes and the interrupt. -/
theorem State.reply_cases : s.reply a st d0 d1 d2 = s ∨ s.reply a st d0 d1 d2 = s.putReply a st d0 d1 d2 ∨
    s.reply a st d0 d1 d2 = (s.putReply a st d0 d1 d2).msi a.part a.qp.val := by
  by_cases ended : a.dead = true ∨ (s.part a.part).resetting = true
  · exact .inl (s.reply_ended a st d0 d1 d2 ended)
  · simp only [not_or, Bool.not_eq_true] at ended
    rw [s.reply_live a st d0 d1 d2 ended.1 ended.2]
    split
    · exact .inr (.inr rfl)
    · exact .inr (.inl rfl)

theorem State.putReply_keepsBut : s.KeepsBut [.hmem, .qps] (s.putReply a st d0 d1 d2) :=
  State.keepsBut_trans (s.hostWrite_keepsBut _ _ _) (State.modQp_keepsBut _ _ _ _) (by decide) (by decide)

theorem State.putReply_hmem : (s.putReply a st d0 d1 d2).hmem = writeBytes 0 s.hmem
    (hostKey a.part ((s.qp a.part a.qp).cqBase + 32 * (s.qp a.part a.qp).cqTail))
    (replyBytes a (s.qp a.part a.qp) s.now st d0 d1 d2) := by
  simp only [State.putReply, State.modQp_hmem, State.hostWrite]

theorem State.putReply_ports : (s.putReply a st d0 d1 d2).ports = s.ports :=
  s.putReply_keepsBut a st d0 d1 d2 .ports (by decide)

/-- A reply touches host memory, the queue pairs and the ports alone. -/
theorem State.reply_keepsBut : s.KeepsBut [.hmem, .qps, .ports] (s.reply a st d0 d1 d2) := by
  have put := s.putReply_keepsBut a st d0 d1 d2
  have fewer : [StateField.hmem, .qps] ⊆ [.hmem, .qps, .ports] := by decide
  rcases s.reply_cases a st d0 d1 d2 with r | r | r <;> rw [r]
  · exact fun f _ => by cases f <;> rfl
  · exact fun f other => put f fun listed => other (fewer listed)
  · exact State.keepsBut_trans put (State.msi_keepsBut _ _ _) (by decide) (by decide)

/-- Of the ports a reply touches at most the pending bits of its own. -/
theorem State.reply_ports : (s.reply a st d0 d1 d2).ports = s.ports ∨
    ∃ f, (s.reply a st d0 d1 d2).ports = tmod Port.init s.ports a.part.val f := by
  rcases s.reply_cases a st d0 d1 d2 with r | r | r <;> rw [r]
  · exact .inl rfl
  · exact .inl (s.putReply_ports a st d0 d1 d2)
  · rw [← s.putReply_ports a st d0 d1 d2]
    exact (s.putReply a st d0 d1 d2).msi_ports a.part a.qp.val

variable {k : Nat} (form : twf 0 s.hmem = true)
  (besideReply : k < hostKey a.part ((s.qp a.part a.qp).cqBase + 32 * (s.qp a.part a.qp).cqTail) ∨
    hostKey a.part ((s.qp a.part a.qp).cqBase + 32 * (s.qp a.part a.qp).cqTail) + 32 ≤ k)
include form besideReply

theorem State.tget_putReply_hmem : tget 0 (s.putReply a st d0 d1 d2).hmem k = tget 0 s.hmem k := by
  rw [State.putReply_hmem]
  exact tget_writeBytes_ne 0 _ _ _ k form (by rwa [length_replyBytes])

/-- The bytes of host memory beside the reply's 32 and its vector's four are as before. -/
theorem State.tget_reply_hmem
    (besideVector : k < hostKey a.part (tget MsixVec.init (s.port a.part).msix a.qp.val).addr ∨
      hostKey a.part (tget MsixVec.init (s.port a.part).msix a.qp.val).addr + 4 ≤ k) :
    tget 0 (s.reply a st d0 d1 d2).hmem k = tget 0 s.hmem k := by
  have put := s.tget_putReply_hmem a st d0 d1 d2 form besideReply
  rcases s.reply_cases a st d0 d1 d2 with r | r | r <;> rw [r]
  · exact put
  · have putForm : twf 0 (s.putReply a st d0 d1 d2).hmem = true := by
      rw [State.putReply_hmem]
      exact twf_writeBytes 0 _ _ form
    refine (State.tget_msi_hmem _ a.part a.qp.val putForm ?_).trans put
    rwa [State.port, s.putReply_ports a st d0 d1 d2, ← State.port]

end

/-- Settles O8: a reply is ended or written, and its frame follows from the three things that it can do. -/
theorem replyIsWritten : Obligations.ReplyIsWritten :=
  ⟨fun s a st d0 d1 d2 => ⟨s.reply_ended a st d0 d1 d2, s.reply_live a st d0 d1 d2⟩,
    fun s a st d0 d1 d2 => ⟨s.reply_keepsBut a st d0 d1 d2, s.reply_ports a st d0 d1 d2,
      fun _ form besideReply besideVector => s.tget_reply_hmem a st d0 d1 d2 form besideReply besideVector⟩⟩

end Sys2Proof.Machine
end

section
/-! PROOFS. Doorbells, the queue control register and the fetch of a command (R238, R240, R241, R245, R250, R256). -/

namespace Sys2Proof.Machine

/-! ### Doorbells (R238, R245) -/

/-- Host memory as the host has written it by its doorbell at time `t`, with the lines that read in error. -/
def State.hostWrote (s : State) (t : Nat) (p : Fin 4) (ws : List (Nat × Byte)) (bad : List Nat) : State :=
  { s.atTime t with
    hmem := ws.foldl (fun (m : Tbl Byte) (w : Nat × Byte) => tset 0 m (hostKey p w.1) w.2) s.hmem,
    hbad := bad.foldl (fun (m : Tbl Bool) (a : Nat) => tset false m (hostKey p a / 64) true)
      (tclear s.hbad (hostKey p 0 / 64) (hostKey p (2 ^ 64) / 64)) }

theorem execHstSqTail_eq (t : Nat) (p : Fin 4) (q : Fin 16) (v : Word) (ws : List (Nat × Byte)) (bad : List Nat)
    (s : State) : execHstSqTail t p q v ws bad s = .next ((s.hostWrote t p ws bad).writeTail p q v.toNat) := rfl

/-- The size and the urgency written as they are leave IRQ_EN alone to change. -/
theorem State.modQp_same_size_urgent (s : State) (p : Fin 4) (q : Fin 16) (irq : Bool) :
    (s.modQp p q fun y => { y with sizeLog2 := (s.qp p q).sizeLog2, urgent := (s.qp p q).urgent, irqEn := irq }) =
      s.modQp p q fun y => { y with irqEn := irq } :=
  State.modQp_congr s p rfl

section

variable {s : State} {p : Fin 4} {q : Fin 16} {v : Nat} (opened : s.pagesOpen p = true)
include opened

section

variable (enabled : (s.qp p q).enable = true)
include enabled

theorem State.writeTail_inside (inside : v % 4096 < (s.qp p q).size) :
    s.writeTail p q v = s.modQp p q fun y => { y with sqTail := v % 4096 } := by
  simp only [State.writeTail, opened, enabled, Nat.not_le.2 inside, Bool.not_true, Bool.or_self, Bool.false_eq_true, if_false]

theorem State.writeTail_outside (outside : (s.qp p q).size ≤ v % 4096) : s.writeTail p q v = s.badValue 0 := by
  simp only [State.writeTail, opened, enabled, outside, Bool.not_true, Bool.or_self, Bool.false_eq_true, if_false, if_true]

end

/-- A head within the replies written frees them, arms the queue pair, and is signalled at once when replies are left. -/
theorem State.writeHead_inside (active : (s.qp p q).active = true) (inside : v % 4096 < (s.qp p q).size)
    (written : (v % 4096 + (s.qp p q).size - (s.qp p q).cqHead) % (s.qp p q).size ≤ (s.qp p q).unconsumed) :
    s.writeHead p q v =
      let u := s.modQp p q fun y => { y with cqHead := v % 4096, armed := true }
      if (u.qp p q).irqEn = true ∧ 0 < (u.qp p q).unconsumed
        then (u.modQp p q fun y => { y with armed := false }).msi p q.val else u := by
  have valid : ¬ ((s.qp p q).size ≤ v % 4096 ∨
      (s.qp p q).unconsumed < (v % 4096 + (s.qp p q).size - (s.qp p q).cqHead) % (s.qp p q).size) := by omega
  simp only [State.writeHead, opened, active, valid, Bool.not_true, Bool.or_self, Bool.false_eq_true, if_false,
    Bool.and_eq_true, decide_eq_true_eq]

/-! ### The queue control register (R256) -/

variable (size : bitsOf v 11 8 = (s.qp p q).sizeLog2) (urgent : bitOf v 1 = (s.qp p q).urgent)
include size urgent

/-- With ENABLE 0 and the size and urgency as they are, IRQ_EN is taken over and the queue pair disabled. -/
theorem State.writeQCtrl_disables (off : bitOf v 0 = false) :
    s.writeQCtrl p q v =
      (s.modQp p q fun y => { y with irqEn := bitOf v 2 }).modQp p q fun y => { y with enable := false } := by
  simp only [State.writeQCtrl, opened, size, urgent, off, ne_eq, not_true_eq_false, decide_false, bne_self_eq_false,
    Bool.false_and, Bool.not_true, Bool.not_false, Bool.or_self, Bool.false_eq_true, if_false, if_true,
    State.modQp_same_size_urgent]

/-- With ENABLE 1 on an idle queue pair both rings are cleared; ENABLE is set unless a base is zero, which is BAD_VALUE. -/
theorem State.writeQCtrl_enables (on : bitOf v 0 = true) (idle : (s.qp p q).active = false) :
    s.writeQCtrl p q v =
      let based := (s.qp p q).sqBase != 0 && (s.qp p q).cqBase != 0
      let u := s.modQp p q fun y => { y with irqEn := bitOf v 2 }
      (if based then u else u.badValue 0).modQp p q fun y => { y with
        enable := based, sqHead := 0, sqTail := 0, cqTail := 0, cqHead := 0, phase := true, error := false,
        armed := true } := by
  have disabled : (s.qp p q).enable = false := by
    simp only [QPair.active, Bool.or_eq_false_iff] at idle
    obtain ⟨⟨disabled, _⟩, _⟩ := idle
    exact disabled
  simp only [State.writeQCtrl, opened, size, urgent, on, idle, disabled, ne_eq, not_true_eq_false, decide_false,
    bne_self_eq_false, Bool.false_and, Bool.not_true, Bool.or_self, Bool.false_eq_true, if_false,
    State.modQp_same_size_urgent]

end

/-! ### The bits of a control word above ENABLE -/

section

variable {v w : Nat} (above : w / 2 = v / 2)
include above

theorem bitOf_succ_of_half (i : Nat) : bitOf w (i + 1) = bitOf v (i + 1) := by
  simp only [bitOf, Nat.testBit_succ, above]

theorem bitsOf_succ_of_half (hi lo : Nat) : bitsOf w hi (lo + 1) = bitsOf v hi (lo + 1) := by
  simp only [bitsOf, Nat.shiftRight_succ_inside, above]

end

/-- The bit that QUEUE_ENABLE sets is ENABLE alone. -/
theorem or_one_half (v : Nat) : (v ||| 1) / 2 = v / 2 := by simp [Nat.or_div_two]

/-- The bit that QUEUE_DISABLE clears is ENABLE alone. -/
theorem half_doubled_half (v : Nat) : v / 2 * 2 / 2 = v / 2 := Nat.mul_div_cancel _ Nat.two_pos

section

variable {s : State} {p : Fin 4} {q : Fin 16} {v : Word} (t : Nat) (opened : s.pagesOpen p = true)
include opened

section

variable (size : bitsOf v.toNat 11 8 = (s.qp p q).sizeLog2) (urgent : bitOf v.toNat 1 = (s.qp p q).urgent)
include size urgent

theorem execQueueDisable_next : execQueueDisable t p q v s =
    .next (((s.atTime t).modQp p q fun y => { y with irqEn := bitOf v.toNat 2 }).modQp p q
      fun y => { y with enable := false }) := by
  have above := half_doubled_half v.toNat
  have off : bitOf (v.toNat / 2 * 2) 0 = false := by simp [bitOf]
  rw [execQueueDisable, State.writeQCtrl_disables (s := s.atTime t) opened ((bitsOf_succ_of_half above 11 7).trans size)
    ((bitOf_succ_of_half above 0).trans urgent) off, bitOf_succ_of_half above 1]

variable (idle : (s.qp p q).active = false)
include idle

theorem execQueueEnable_next : execQueueEnable t p q v s =
    .next (
      let based := (s.qp p q).sqBase != 0 && (s.qp p q).cqBase != 0
      let u := (s.atTime t).modQp p q fun y => { y with irqEn := bitOf v.toNat 2 }
      (if based then u else u.badValue 0).modQp p q fun y => { y with
        enable := based, sqHead := 0, sqTail := 0, cqTail := 0, cqHead := 0, phase := true, error := false,
        armed := true }) := by
  have above := or_one_half v.toNat
  have on : bitOf (v.toNat ||| 1) 0 = true := by simp [bitOf]
  rw [execQueueEnable, State.writeQCtrl_enables (s := s.atTime t) opened ((bitsOf_succ_of_half above 11 7).trans size)
    ((bitOf_succ_of_half above 0).trans urgent) on idle, bitOf_succ_of_half above 1]
  rfl

/-- With both bases set the queue pair is enabled. -/
theorem execQueueEnable_based (sq : (s.qp p q).sqBase ≠ 0) (cq : (s.qp p q).cqBase ≠ 0) : execQueueEnable t p q v s =
    .next (((s.atTime t).modQp p q fun y => { y with irqEn := bitOf v.toNat 2 }).modQp p q fun y => { y with
      enable := true, sqHead := 0, sqTail := 0, cqTail := 0, cqHead := 0, phase := true, error := false,
      armed := true }) := by
  have based : ((s.qp p q).sqBase != 0 && (s.qp p q).cqBase != 0) = true := by simp [sq, cq]
  simp only [execQueueEnable_next t opened size urgent idle, based, if_true]

/-- With a base of zero it stays disabled, and the write is a BAD_VALUE. -/
theorem execQueueEnable_unbased (zero : (s.qp p q).sqBase = 0 ∨ (s.qp p q).cqBase = 0) : execQueueEnable t p q v s =
    .next ((((s.atTime t).modQp p q fun y => { y with irqEn := bitOf v.toNat 2 }).badValue 0).modQp p q fun y => { y with
      enable := false, sqHead := 0, sqTail := 0, cqTail := 0, cqHead := 0, phase := true, error := false,
      armed := true }) := by
  have unbased : ((s.qp p q).sqBase != 0 && (s.qp p q).cqBase != 0) = false := by
    rcases zero with sq | cq
    · simp only [sq, bne_self_eq_false, Bool.false_and]
    · simp only [cq, bne_self_eq_false, Bool.and_false]
  simp only [execQueueEnable_next t opened size urgent idle, unbased, Bool.false_eq_true, if_false]

end

end

/-! ### The fetch of a command (R240, R241, R250) -/

/-- The turn passed on from a partition that one of its queue pairs is served for. -/
def State.passTurn (s : State) (p : Fin 4) (urgent : Bool) (i : Fin 16) : State :=
  ({ s with gal := { s.gal with turn := p + 1 } } : State).modPart p fun x =>
    if urgent then { x with turnUrgent := true, ptrUrgent := (i.val + 1) % 16 }
    else { x with turnUrgent := false, ptrNormal := (i.val + 1) % 16 }

/-- An entry taken off a submission queue with the `n` entries of its extension; `stop` when the queue stops at it. -/
def State.takeEntry (s : State) (p : Fin 4) (i : Fin 16) (n : Nat) (stop : Bool) : State :=
  ({ s with gal := { s.gal with nextId := s.gal.nextId + 1 } } : State).modQp p i fun y =>
    { y with sqHead := (y.sqHead + 1 + n) % y.size, outstanding := y.outstanding + 1, error := stop }

/-- The packet at the head of a submission queue. -/
def State.headPacket (s : State) (p : Fin 4) (i : Fin 16) : List Byte := s.hostRead p ((s.qp p i).entryAt 0) 64

/-- The command that Gallery makes of the packet at a queue's head and of the `n` entries behind it. -/
def State.fetched (s : State) (p : Fin 4) (i : Fin 16) (n : Nat) (keep : Bool) : Acc :=
  { id := s.gal.nextId, part := p, qp := i, keep := keep, pkt := s.headPacket p i,
    ext := (List.range n).flatMap fun j => s.hostRead p ((s.qp p i).entryAt (j + 1)) 64,
    mark := (s.slot (le (s.headPacket p i) 10 2)).commits, dead := false }

section

variable {s : State} {p : Fin 4} {i : Fin 16}

theorem execCommandFetch_picked (t : Nat) {urgent : Bool} (running : s.start.phase = .running)
    (fetches : s.start.safeNoFetch = false) (picked : (s.atTime t).pick = some (p, urgent, i)) :
    execCommandFetch t s = .next (((s.atTime t).passTurn p urgent i).fetch1 p i) := by
  simp only [execCommandFetch, State.atTime_start, running, fetches, picked, ne_eq, not_true_eq_false, decide_false,
    Bool.or_self, Bool.false_eq_true, if_false]
  rfl

/-- An entry that is read whole, its extension no longer than may be, is judged as acceptance says. -/
theorem State.fetch1_whole
    (clean : ∀ j ≤ ceilDiv (le (s.headPacket p i) 14 2) 64, s.hostBad p ((s.qp p i).entryAt j) 64 = false)
    (short : le (s.headPacket p i) 14 2 ≤ 4096) :
    s.fetch1 p i =
      let n := ceilDiv (le (s.headPacket p i) 14 2) 64
      (s.takeEntry p i n false).accept (s.fetched p i n (decide (le (s.headPacket p i) 1 1 = 0x09))) := by
  have packet : s.hostBad p ((s.qp p i).entryAt 0) 64 = false := clean 0 (Nat.zero_le _)
  have extension : ((List.range (ceilDiv (le (s.headPacket p i) 14 2) 64)).any fun j =>
      s.hostBad p ((s.qp p i).entryAt (j + 1)) 64) = false :=
    List.any_eq_false.2 fun j listed => Bool.eq_false_iff.1 (clean (j + 1) (List.mem_range.1 listed))
  simp only [State.headPacket] at extension short ⊢
  simp only [State.fetch1, State.takeEntry, State.fetched, State.headPacket, packet, extension, Nat.not_lt.2 short,
    Bool.false_eq_true, or_self, Bool.or_self, if_false, decide_false]
  -- What is left differs only in how the comparison of the packet's class is decided.
  congr

/-- An entry whose EXT_LEN is too long is replied to with BAD_PARAM and stops its queue. -/
theorem State.fetch1_long (clean : s.hostBad p ((s.qp p i).entryAt 0) 64 = false)
    (long : 4096 < le (s.headPacket p i) 14 2) :
    s.fetch1 p i = (s.takeEntry p i 0 true).reply (s.fetched p i 0 false) stBadParam (10 + 14 * 2 ^ 16) 0 0 := by
  rw [State.headPacket] at long
  simp only [State.fetch1, State.takeEntry, State.fetched, State.headPacket, clean, long, List.range_zero, List.any_nil,
    Bool.false_eq_true, or_true, if_true, if_false, decide_true, Bool.or_true]

end

/-- Settles O14: each write of a queue register by its rule, the fetch by the turn and what the entry is. -/
theorem queuesAndFetch : Obligations.QueuesAndFetch := by
  refine ⟨fun t p q v s opened => ⟨?tail, ?head, ?enable, ?unbased, ?disable⟩, ?fetch⟩
  case tail =>
    intro ws bad enabled
    have rung := execHstSqTail_eq t p q v ws bad s
    have opened' : (s.hostWrote t p ws bad).pagesOpen p = true := opened
    exact ⟨fun inside => rung.trans (congrArg _ (State.writeTail_inside opened' enabled inside)),
      fun outside => rung.trans (congrArg _ (State.writeTail_outside opened' enabled outside))⟩
  case head =>
    exact fun active inside written => congrArg _ (State.writeHead_inside (s := s.atTime t) opened active inside written)
  case enable =>
    exact fun idle sq cq size urgent => execQueueEnable_based t opened size urgent idle sq cq
  case unbased =>
    exact fun idle _ zero size urgent => execQueueEnable_unbased t opened size urgent idle zero
  case disable => exact execQueueDisable_next t opened
  case fetch =>
    intro t s p urgent i running fetches picked
    have turn := execCommandFetch_picked t running fetches picked
    exact ⟨fun clean short => turn.trans (congrArg _ (State.fetch1_whole clean short)),
      fun clean long => turn.trans (congrArg _ (State.fetch1_long clean long))⟩

end Sys2Proof.Machine
end

section
/-! PROOFS. The block as a whole: the command at the front of the queue, what every step keeps, the reset state and what a
reset keeps (R261, R463, R483, R486, R511, R515). -/

namespace Sys2Proof.Machine

/-! ### Every command answers -/

theorem execSpdmRespondIfReady_answers (t : Nat) (ask : OtherAsk) (s : State) : Safe (execSpdmRespondIfReady t ask s) := by
  unfold execSpdmRespondIfReady
  by_cases ready : ask.code = 0xFF
  · exact ⟨_, if_pos ready⟩
  · exact ⟨_, if_neg ready⟩

/-- The meaning of every other command is a next state outright. -/
theorem exec_safe (c : Instr) (s : State) (h : ∀ t id, c ≠ .factoryCommand t id) : Safe (exec c s) := by
  cases c
  case factoryCommand t id => exact absurd rfl (h t id)
  case spdmRespondIfReady t ask => exact execSpdmRespondIfReady_answers t ask s
  all_goals exact ⟨_, rfl⟩

section

variable {t id : Nat} {s : State}

theorem execFactoryCommand_accepted (h : ∃ a ∈ s.gal.accepted, a.id = id ∧ 0xF000 ≤ a.opcode) :
    execFactoryCommand t id s = .refused .factoryProcedure := by
  have found : (s.gal.accepted.find? fun a => a.id == id && decide (0xF000 ≤ a.opcode)).isSome = true := by
    simpa [List.find?_isSome] using h
  obtain ⟨a, ha⟩ := Option.isSome_iff_exists.1 found
  simp [execFactoryCommand, ha]

theorem execFactoryCommand_none (h : ∀ a ∈ s.gal.accepted, a.id = id → a.opcode < 0xF000) :
    execFactoryCommand t id s = .next (s.atTime t) := by
  have missing : (s.gal.accepted.find? fun a => a.id == id && decide (0xF000 ≤ a.opcode)) = none := by
    simpa [List.find?_eq_none] using h
  simp [execFactoryCommand, missing]

end

/-- Settles O2. -/
theorem onlyFactoryCommandStops : Obligations.OnlyFactoryCommandStops :=
  ⟨exec_safe, fun _ _ _ => ⟨execFactoryCommand_accepted, execFactoryCommand_none⟩⟩

/-! ### What every command keeps -/

/-- Every command but the two that start the time base anew: the lemmas of each meaning, put together. -/
theorem exec_follows {s0 s x : State} (h : s0.Follows s) :
    ∀ c : Instr, (∀ t, c ≠ .powerOn t) → (∀ t, c ≠ .powerOff t) → exec c s = .next x → s0.Follows x
  | .commandFetch t, _, _ => execCommandFetch_follows h t x
  | .getOculus t id, _, _ => execGetOculus_follows h t id x
  | .setPowerState t id, _, _ => execSetPowerState_follows h t id x
  | .memAlloc t id, _, _ => execMemAlloc_follows h t id x
  | .memFree t id, _, _ => execMemFree_follows h t id x
  | .memCopy t id, _, _ => execMemCopy_follows h t id x
  | .memFill t id, _, _ => execMemFill_follows h t id x
  | .seqOpen t id, _, _ => execSeqOpen_follows h t id x
  | .seqClose t id, _, _ => execSeqClose_follows h t id x
  | .seqStep t id, _, _ => execSeqStep_follows h t id x
  | .seqCancel t id, _, _ => execSeqCancel_follows h t id x
  | .seqSave t id, _, _ => execSeqSave_follows h t id x
  | .seqRestore t id, _, _ => execSeqRestore_follows h t id x
  | .oplistLoad t id, _, _ => execOplistLoad_follows h t id x
  | .oplistRun t id, _, _ => execOplistRun_follows h t id x
  | .digestRead t id, _, _ => execDigestRead_follows h t id x
  | .fabRouteSet t id, _, _ => execFabRouteSet_follows h t id x
  | .fabPortState t id, _, _ => execFabPortState_follows h t id x
  | .lanternStatus t id, _, _ => execLanternStatus_follows h t id x
  | .laserSwap t id, _, _ => execLaserSwap_follows h t id x
  | .calGapPolicy t id, _, _ => execCalGapPolicy_follows h t id x
  | .serviceDrain t id, _, _ => execServiceDrain_follows h t id x
  | .pwrCapSet t id, _, _ => execPwrCapSet_follows h t id x
  | .thermStatus t id, _, _ => execThermStatus_follows h t id x
  | .marginReport t id, _, _ => execMarginReport_follows h t id x
  | .faultRead t id, _, _ => execFaultRead_follows h t id x
  | .faultAck t id, _, _ => execFaultAck_follows h t id x
  | .faultClear t id, _, _ => execFaultClear_follows h t id x
  | .attest t id, _, _ => execAttest_follows h t id x
  | .debugUnlock t id, _, _ => execDebugUnlock_follows h t id x
  | .fwUpdate t id, _, _ => execFwUpdate_follows h t id x
  | .laneBitslip t id, _, _ => execLaneBitslip_follows h t id x
  | .laneFomRead t id, _, _ => execLaneFomRead_follows h t id x
  | .faultInject t id, _, _ => execFaultInject_follows h t id x
  | .factoryCommand t id, _, _ => execFactoryCommand_follows h t id x
  | .hstSqTail t port qp value writes bad, _, _ => execHstSqTail_follows h t port qp value writes bad x
  | .hstCqHead t port qp value, _, _ => execHstCqHead_follows h t port qp value x
  | .queueEnable t port qp value, _, _ => execQueueEnable_follows h t port qp value x
  | .queueDisable t port qp value, _, _ => execQueueDisable_follows h t port qp value x
  | .ocuGenOffer t port value, _, _ => execOcuGenOffer_follows h t port value x
  | .drmMbxSel t w wide, _, _ => execDrmMbxSel_follows h t w wide x
  | .drmMbxD3Read t w, _, _ => execDrmMbxD3Read_follows h t w x
  | .cfgOpen t w domain, _, _ => execCfgOpen_follows h t w domain x
  | .cfgCommit t w domain, _, _ => execCfgCommit_follows h t w domain x
  | .cfgCommitComplete t domain, _, _ => execCfgCommitComplete_follows h t domain x
  | .cfgScan t upset, _, _ => execCfgScan_follows h t upset x
  | .registerWrite t w target width value cross, _, _ => execRegisterWrite_follows h t w target width value cross x
  | .goardBurst t port unmapped, _, _ => execGoardBurst_follows h t port unmapped x
  | .hstPartReset t w partition value, _, _ => execHstPartReset_follows h t w partition value x
  | .drmSteward t w value, _, _ => execDrmSteward_follows h t w value x
  | .orderlyHalfReset t w half key, _, _ => execOrderlyHalfReset_follows h t w half key x
  | .declareHalfLost t w half key, _, _ => execDeclareHalfLost_follows h t w half key x
  | .singleHalfOperation t w key, _, _ => execSingleHalfOperation_follows h t w key x
  | .deviceReset t w key, _, _ => execDeviceReset_follows h t w key x
  | .deviceResetCold t w key, _, _ => execDeviceResetCold_follows h t w key x
  | .requestColdStart t w key, _, _ => execRequestColdStart_follows h t w key x
  | .withdrawColdRequest t w key, _, _ => execWithdrawColdRequest_follows h t w key x
  | .fltEntryAck t w, _, _ => execFltEntryAck_follows h t w x
  | .fltEntryClear t w, _, _ => execFltEntryClear_follows h t w x
  | .bar2Read t port offset len upsets, _, _ => execBar2Read_follows h t port offset len upsets x
  | .bar2Write t port offset bytes, _, _ => execBar2Write_follows h t port offset bytes x
  | .hostLinkUp t port width rate, _, _ => execHostLinkUp_follows h t port width rate x
  | .functionLevelReset t port, _, _ => execFunctionLevelReset_follows h t port x
  | .hotReset t port, _, _ => execHotReset_follows h t port x
  | .perstNAssert t port, _, _ => execPerstNAssert_follows h t port x
  | .d3hotEntry t port, _, _ => execD3hotEntry_follows h t port x
  | .frameZeroingDone t half, _, _ => execFrameZeroingDone_follows h t half x
  | .runForm t, _, _ => execRunForm_follows h t x
  | .matmul t peers upsets, _, _ => execMatmul_follows h t peers upsets x
  | .attend t upsets, _, _ => execAttend_follows h t upsets x
  | .norm t upsets, _, _ => execNorm_follows h t upsets x
  | .act t upsets, _, _ => execAct_follows h t upsets x
  | .rope t upsets, _, _ => execRope_follows h t upsets x
  | .sample t upsets, _, _ => execSample_follows h t upsets x
  | .draft t upsets, _, _ => execDraft_follows h t upsets x
  | .verify t upsets, _, _ => execVerify_follows h t upsets x
  | .gather t upsets, _, _ => execGather_follows h t upsets x
  | .scatter t order upsets, _, _ => execScatter_follows h t order upsets x
  | .copy t upsets, _, _ => execCopy_follows h t upsets x
  | .xsend t upsets, _, _ => execXsend_follows h t upsets x
  | .xrecv t, _, _ => execXrecv_follows h t x
  | .xreduce t peers order upsets, _, _ => execXreduce_follows h t peers order upsets x
  | .exactReduce t peers upsets, _, _ => execExactReduce_follows h t peers upsets x
  | .digestMark t, _, _ => execDigestMark_follows h t x
  | .fence t, _, _ => execFence_follows h t x
  | .fenceSatisfied t, _, _ => execFenceSatisfied_follows h t x
  | .fenceTimeout t, _, _ => execFenceTimeout_follows h t x
  | .loop t, _, _ => execLoop_follows h t x
  | .drafterIteration t, _, _ => execDrafterIteration_follows h t x
  | .draftEarlyStart t, _, _ => execDraftEarlyStart_follows h t x
  | .operationBoundary t, _, _ => execOperationBoundary_follows h t x
  | .tileWrite t k tst, _, _ => execTileWrite_follows h t k tst x
  | .slabCheckFail t half column row code k, _, _ => execSlabCheckFail_follows h t half column row code k x
  | .slabStallWatchdog t half column row k, _, _ => execSlabStallWatchdog_follows h t half column row k x
  | .sentinelSample t half read, _, _ => execSentinelSample_follows h t half read x
  | .proactiveReserve t half column, _, _ => execProactiveReserve_follows h t half column x
  | .arrRateUpdate t half measured, _, _ => execArrRateUpdate_follows h t half measured x
  | .scrubPass t half upsets badTags parity, _, _ => execScrubPass_follows h t half upsets badTags parity x
  | .retirePendingResolve t half, _, _ => execRetirePendingResolve_follows h t half x
  | .pcRelocationDone t half, _, _ => execPcRelocationDone_follows h t half x
  | .fencePendingResolve t half, _, _ => execFencePendingResolve_follows h t half x
  | .hbmTempSample t stack temp limits, _, _ => execHbmTempSample_follows h t stack temp limits x
  | .laneFomMeasure t bundle eyes, _, _ => execLaneFomMeasure_follows h t bundle eyes x
  | .laneFailure t bundle lane cause, _, _ => execLaneFailure_follows h t bundle lane cause x
  | .spareEqSweep t bundle lane eyes, _, _ => execSpareEqSweep_follows h t bundle lane eyes x
  | .bundleSleep t bundle, _, _ => execBundleSleep_follows h t bundle x
  | .bundleWake t bundle, _, _ => execBundleWake_follows h t bundle x
  | .timeBlock t half arrived, _, _ => execTimeBlock_follows h t half arrived x
  | .ucieModuleLoss t lantern module, _, _ => execUcieModuleLoss_follows h t lantern module x
  | .flitTransmit t link, _, _ => execFlitTransmit_follows h t link x
  | .flitReceive t link flit, _, _ => execFlitReceive_follows h t link flit x
  | .ackCoalesceTimer t link, _, _ => execAckCoalesceTimer_follows h t link x
  | .ackReceive t link seq, _, _ => execAckReceive_follows h t link seq x
  | .nakReceive t link seq, _, _ => execNakReceive_follows h t link seq x
  | .creditReport t link vc taken, _, _ => execCreditReport_follows h t link vc taken x
  | .creditReceive t link vc freed, _, _ => execCreditReceive_follows h t link vc freed x
  | .replayTimeout t link, _, _ => execReplayTimeout_follows h t link x
  | .retrainComplete t link, _, _ => execRetrainComplete_follows h t link x
  | .replayRateFault t link, _, _ => execReplayRateFault_follows h t link x
  | .downRetry t link train, _, _ => execDownRetry_follows h t link train x
  | .helloReceive t link fresh nextRx gen, _, _ => execHelloReceive_follows h t link fresh nextRx gen x
  | .initReceive t link vc credits, _, _ => execInitReceive_follows h t link vc credits x
  | .fenceNoteReceive t bundle nextRx, _, _ => execFenceNoteReceive_follows h t bundle nextRx x
  | .widthReq t link cmd action lane spare, _, _ => execWidthReq_follows h t link cmd action lane spare x
  | .widthSwitch t link cmd action lane seen, _, _ => execWidthSwitch_follows h t link cmd action lane seen x
  | .widthDone t link cmd, _, _ => execWidthDone_follows h t link cmd x
  | .ringLockUpdate t lantern ring code, _, _ => execRingLockUpdate_follows h t lantern ring code x
  | .laserCheck t lantern laser bias delta freq offGrid, _, _ => execLaserCheck_follows h t lantern laser bias delta freq offGrid x
  | .spareLocked t lantern spare, _, _ => execSpareLocked_follows h t lantern spare x
  | .spareLockFail t lantern spare, _, _ => execSpareLockFail_follows h t lantern spare x
  | .calGapStart t lantern, _, _ => execCalGapStart_follows h t lantern x
  | .calGapTimeout t lantern port, _, _ => execCalGapTimeout_follows h t lantern port x
  | .lambdaFail t lantern port loss, _, _ => execLambdaFail_follows h t lantern port loss x
  | .modRingLockLoss t lantern port wave, _, _ => execModRingLockLoss_follows h t lantern port wave x
  | .lambdaRelockAttempt t lantern port wave tx found, _, _ => execLambdaRelockAttempt_follows h t lantern port wave tx found x
  | .lambdaDropTimeout t lantern port wave tx, _, _ => execLambdaDropTimeout_follows h t lantern port wave tx x
  | .serCheck t lantern port wave errors symbols, _, _ => execSerCheck_follows h t lantern port wave errors symbols x
  | .shellOpen t lantern, _, _ => execShellOpen_follows h t lantern x
  | .shellClosed t lantern, _, _ => execShellClosed_follows h t lantern x
  | .rxLightLoss t lantern port, _, _ => execRxLightLoss_follows h t lantern port x
  | .beaconReceive t lantern port frame, _, _ => execBeaconReceive_follows h t lantern port frame x
  | .rampTimeout t lantern port, _, _ => execRampTimeout_follows h t lantern port x
  | .beaconTimeout t lantern port, _, _ => execBeaconTimeout_follows h t lantern port x
  | .readyRetry t lantern port, _, _ => execReadyRetry_follows h t lantern port x
  | .portRampComplete t lantern port locked, _, _ => execPortRampComplete_follows h t lantern port locked x
  | .svcButtonPress t lantern, _, _ => execSvcButtonPress_follows h t lantern x
  | .drainPortsEmpty t lantern, _, _ => execDrainPortsEmpty_follows h t lantern x
  | .drainTimeout t lantern, _, _ => execDrainTimeout_follows h t lantern x
  | .autoRestore t lantern, _, _ => execAutoRestore_follows h t lantern x
  | .lanternPllUnlock t lantern, _, _ => execLanternPllUnlock_follows h t lantern x
  | .lanternReturn t lantern badModules badShutter, _, _ => execLanternReturn_follows h t lantern badModules badShutter x
  | .lanternReturnTimeout t lantern, _, _ => execLanternReturnTimeout_follows h t lantern x
  | .lanternStopExit t lantern, _, _ => execLanternStopExit_follows h t lantern x
  | .fabricMessageReceive t lantern port msg, _, _ => execFabricMessageReceive_follows h t lantern port msg x
  | .routerRelease t k, _, _ => execRouterRelease_follows h t k x
  | .roleNotice t dev partition gen, _, _ => execRoleNotice_follows h t dev partition gen x
  | .powerSample t milliwatts voltages currents average, _, _ => execPowerSample_follows h t milliwatts voltages currents average x
  | .voltageAdjust t half measured temp, _, _ => execVoltageAdjust_follows h t half measured temp x
  | .telemetryTimeout t die back, _, _ => execTelemetryTimeout_follows h t die back x
  | .idleEntry t, _, _ => execIdleEntry_follows h t x
  | .p2Suspend t, _, _ => execP2Suspend_follows h t x
  | .railBelowWarning t rail millivolts, _, _ => execRailBelowWarning_follows h t rail millivolts x
  | .droopHoldRelease t, _, _ => execDroopHoldRelease_follows h t x
  | .droopRate t rail, _, _ => execDroopRate_follows h t rail x
  | .railBelowReset t rail millivolts, _, _ => execRailBelowReset_follows h t rail millivolts x
  | .halfPllUnlock t half, _, _ => execHalfPllUnlock_follows h t half x
  | .orderlyResetTimeout t half, _, _ => execOrderlyResetTimeout_follows h t half x
  | .halfReturn t half report, _, _ => execHalfReturn_follows h t half report x
  | .halfStartFailure t half, _, _ => execHalfStartFailure_follows h t half x
  | .thermalSample t die temps, _, _ => execThermalSample_follows h t die temps x
  | .throttleAdjust t half, _, _ => execThrottleAdjust_follows h t half x
  | .hardTrip t die temp, _, _ => execHardTrip_follows h t die temp x
  | .ledgerRecord t plan, _, _ => execLedgerRecord_follows h t plan x
  | .belfryMessageArrival t msg stamp, _, _ => execBelfryMessageArrival_follows h t msg stamp x
  | .belfryLog t, _, _ => execBelfryLog_follows h t x
  | .belfryParity t location, _, _ => execBelfryParity_follows h t location x
  | .updateSessionTimeout t, _, _ => execUpdateSessionTimeout_follows h t x
  | .spdmGetVersion t port, _, _ => execSpdmGetVersion_follows h t port x
  | .spdmGetCapabilities t port, _, _ => execSpdmGetCapabilities_follows h t port x
  | .spdmNegotiateAlgorithms t port, _, _ => execSpdmNegotiateAlgorithms_follows h t port x
  | .spdmGetDigests t port, _, _ => execSpdmGetDigests_follows h t port x
  | .spdmGetCertificate t port offset len, _, _ => execSpdmGetCertificate_follows h t port offset len x
  | .spdmChallenge t port nonce slow, _, _ => execSpdmChallenge_follows h t port nonce slow x
  | .spdmGetMeasurements t port index sign nonce slow, _, _ => execSpdmGetMeasurements_follows h t port index sign nonce slow x
  | .spdmRespondIfReady t port, _, _ => execSpdmRespondIfReady_follows h t port x
  | .pldmGetTid t, _, _ => execPldmGetTid_follows h t x
  | .pldmGetVersion t type, _, _ => execPldmGetVersion_follows h t type x
  | .pldmGetTypes t, _, _ => execPldmGetTypes_follows h t x
  | .pldmGetCommands t type, _, _ => execPldmGetCommands_follows h t type x
  | .pldmReadSensor t sensor, _, _ => execPldmReadSensor_follows h t sensor x
  | .pldmSetPowerCap t watts, _, _ => execPldmSetPowerCap_follows h t watts x
  | .pldmSetPowerState t target, _, _ => execPldmSetPowerState_follows h t target x
  | .pldmSetSteward t partition, _, _ => execPldmSetSteward_follows h t partition x
  | .pldmPartitionReset t partition, _, _ => execPldmPartitionReset_follows h t partition x
  | .pldmSetQuota t partition which value, _, _ => execPldmSetQuota_follows h t partition which value x
  | .pldmLanternService t value, _, _ => execPldmLanternService_follows h t value x
  | .pldmPollEvent t ack, _, _ => execPldmPollEvent_follows h t ack x
  | .pldmFaultClear t index, _, _ => execPldmFaultClear_follows h t index x
  | .pldmRequestUpdate t imageLen, _, _ => execPldmRequestUpdate_follows h t imageLen x
  | .pldmPassComponentTable t components, _, _ => execPldmPassComponentTable_follows h t components x
  | .pldmUpdateComponent t, _, _ => execPldmUpdateComponent_follows h t x
  | .pldmRequestFirmwareData t offset chunk, _, _ => execPldmRequestFirmwareData_follows h t offset chunk x
  | .pldmTransferComplete t, _, _ => execPldmTransferComplete_follows h t x
  | .pldmVerifyComplete t, _, _ => execPldmVerifyComplete_follows h t x
  | .pldmApplyComplete t, _, _ => execPldmApplyComplete_follows h t x
  | .pldmActivateFirmware t, _, _ => execPldmActivateFirmware_follows h t x
  | .pldmGetStatus t, _, _ => execPldmGetStatus_follows h t x
  | .pldmCancelUpdate t, _, _ => execPldmCancelUpdate_follows h t x
  | .jtagBypass scan, _, _ => execJtagBypass_follows h scan x
  | .jtagIdcode t, _, _ => execJtagIdcode_follows h t x
  | .jtagSamplePreload t load balls, _, _ => execJtagSamplePreload_follows h t load balls x
  | .jtagExtest t, _, _ => execJtagExtest_follows h t x
  | .jtagClamp t, _, _ => execJtagClamp_follows h t x
  | .jtagHighz t, _, _ => execJtagHighz_follows h t x
  | .jtagDieSelect t, _, _ => execJtagDieSelect_follows h t x
  | .tapLeaveTestInstruction t, _, _ => execTapLeaveTestInstruction_follows h t x
  | .packageReset t cause, _, _ => execPackageReset_follows h t cause x
  | .packageResetRelease t tbref mgmtAddr, _, _ => execPackageResetRelease_follows h t tbref mgmtAddr x
  | .tbrefLoss t, _, _ => execTbrefLoss_follows h t x
  | .coldStart t report, _, _ => execColdStart_follows h t report x
  | .warmStart t report, _, _ => execWarmStart_follows h t report x
  | .startFailure t core, _, _ => execStartFailure_follows h t core x
  | .autoDeviceReset t, _, _ => execAutoDeviceReset_follows h t x
  | .trainingParamsWrite t, _, _ => execTrainingParamsWrite_follows h t x
  | .calGapHoldEnd t lantern, _, _ => execCalGapHoldEnd_follows h t lantern x
  | .retrainTimeout t link, _, _ => execRetrainTimeout_follows h t link x
  | .d3hotExit t port, _, _ => execD3hotExit_follows h t port x
  | .laserSuddenFade t lantern laser, _, _ => execLaserSuddenFade_follows h t lantern laser x
  | .registerRead t port target width cross, _, _ => execRegisterRead_follows h t port target width cross x
  | .endpointIdAssignment t eid, _, _ => execEndpointIdAssignment_follows h t eid x
  | .dynamicAddressAssignment t address, _, _ => execDynamicAddressAssignment_follows h t address x
  | .doeDiscovery t port index, _, _ => execDoeDiscovery_follows h t port index x
  | .powerOn t, on, _ => absurd rfl (on t)
  | .powerOff t, _, off => absurd rfl (off t)

/-- What an operation keeps of the state before it where the time base may start anew: all that `State.Follows` says but for
the time. -/
structure State.Keeps (before after : State) : Prop where
  queue : after.pending = before.pending
  svn : before.sec.svnMin ≤ after.sec.svnMin
  terminated : before.sec.terminated = true → after.sec.terminated = true
  production : before.sec.production = true → after.sec.production = true
  ok : before.Ok → after.Ok

theorem State.Follows.keeps {s t : State} (h : s.Follows t) : s.Keeps t :=
  ⟨h.queue, h.svn, h.terminated, h.production, h.ok⟩

theorem State.reset_ok : State.reset.Ok := by constructor <;> decide

theorem execPowerOn_keeps {t : Nat} {s x : State} (hx : execPowerOn t s = .next x) : s.Keeps x := by
  obtain rfl := Host.Outcome.next.inj hx
  split
  · exact (State.atTime_follows (.refl s) t).keeps
  · exact ⟨rfl, Nat.le_refl _, id, id, fun h => ⟨h.mem, h.west, h.east, h.hmem, h.power⟩⟩

theorem execPowerOff_keeps {t : Nat} {s x : State} (hx : execPowerOff t s = .next x) : s.Keeps x := by
  obtain rfl := Host.Outcome.next.inj hx
  have atTime := State.atTime_follows (.refl s) t
  have reset := State.resetTo_follows atTime 0 .off
  dsimp only
  split
  · exact atTime.keeps
  · exact ⟨reset.queue, reset.svn, reset.terminated, reset.production, fun h =>
      ⟨(reset.ok h).mem, (reset.ok h).west, (reset.ok h).east, (reset.ok h).hmem, State.reset_ok.power⟩⟩

theorem exec_keeps {c : Instr} {s x : State} (hx : exec c s = .next x) : s.Keeps x := by
  by_cases on : ∃ t, c = .powerOn t
  · obtain ⟨t, rfl⟩ := on
    exact execPowerOn_keeps hx
  by_cases off : ∃ t, c = .powerOff t
  · obtain ⟨t, rfl⟩ := off
    exact execPowerOff_keeps hx
  · exact (exec_follows (.refl s) c (fun t h => on ⟨t, h⟩) (fun t h => off ⟨t, h⟩) hx).keeps

/-! ### Steps -/

section

variable {c : Instr} {rest : List Instr} {s t : State}

theorem step_front (h : s.pending = c :: rest) : step s = exec c { s with pending := rest } := by simp [step, h]

theorem step_idle (h : s.pending = []) : step s = .next s := by simp [step, h]

/-- A step is the command at the front of the queue, or idles. -/
theorem step_cases (h : step s = .next t) :
    (∃ c rest, s.pending = c :: rest ∧ exec c { s with pending := rest } = .next t) ∨ (s.pending = [] ∧ t = s) := by
  cases queue : s.pending with
  | nil => exact .inr ⟨rfl, (Host.Outcome.next.inj ((step_idle queue).symm.trans h)).symm⟩
  | cons c rest => exact .inl ⟨c, rest, rfl, (step_front queue).symm.trans h⟩

theorem State.Ok.setPending (h : s.Ok) (q : List Instr) : ({ s with pending := q } : State).Ok :=
  ⟨h.mem, h.west, h.east, h.hmem, h.power⟩

end

/-- Settles O1. -/
theorem stepRunsFrontCommand : Obligations.StepRunsFrontCommand := ⟨fun _ _ _ => step_front, fun _ => step_idle⟩

/-- Settles O3: every meaning keeps the canonical forms, and taking a command off the queue does. -/
theorem stepKeepsOk : Obligations.StepKeepsOk := fun _ _ ok h => by
  obtain ⟨c, rest, -, hx⟩ | ⟨-, rfl⟩ := step_cases h
  · exact (exec_keeps hx).ok (ok.setPending rest)
  · exact ok

/-- Settles O4. -/
theorem resetIsOk : Obligations.ResetIsOk := State.reset_ok

/-- Settles O5. -/
theorem fusesArePermanent : Obligations.FusesArePermanent := fun _ _ h => by
  obtain ⟨c, rest, -, hx⟩ | ⟨-, rfl⟩ := step_cases h
  · exact ⟨(exec_keeps hx).svn, (exec_keeps hx).terminated, (exec_keeps hx).production⟩
  · exact ⟨Nat.le_refl _, id, id⟩

/-- Settles O6. -/
theorem queueAndTimeGoOn : Obligations.QueueAndTimeGoOn := fun c rest s t queue h => by
  have hx : exec c { s with pending := rest } = .next t := (step_front queue).symm.trans h
  exact ⟨(exec_keeps hx).queue, fun on off => (exec_follows (.refl _) c on off hx).time⟩

/-! ### The reset state and what a reset keeps -/

theorem State.dpaOf_of_none_mapped {s : State} {p : Fin 4} {a : Nat} (h : s.mem.fmap = []) : s.dpaOf p a = none := by
  simp [State.dpaOf, h]

/-- Settles O7. -/
theorem resetValues : Obligations.ResetValues :=
  ⟨rfl, rfl, rfl, rfl, rfl, rfl, rfl, rfl, rfl, rfl, fun _ => rfl, fun _ _ => ⟨rfl, rfl, rfl⟩, fun _ => rfl,
    fun _ _ => State.dpaOf_of_none_mapped rfl⟩

/-- Settles O58. -/
theorem resetKeepsTheLog : Obligations.ResetKeepsTheLog := fun s c ph => by
  have follows := State.resetTo_follows (.refl s) c ph
  exact ⟨follows.queue, rfl, rfl, rfl, rfl, rfl, rfl, rfl, rfl, rfl, follows.svn, follows.terminated⟩

/-- Settles O59. -/
theorem noWordSpellsACommand : Obligations.NoWordSpellsACommand := fun _ _ _ => ⟨rfl, rfl⟩

end Sys2Proof.Machine
end

section
/-! PROOFS. Frames of updates in sequence; the order in which tiles are written (R178-R180). -/

namespace Sys2Proof.Machine

/-! ### Updates in sequence keep what each keeps -/

theorem State.keepsBut_refl (l : List StateField) (s : State) : s.KeepsBut l s := fun f _ => by cases f <;> rfl

theorem State.foldl_keepsBut {β : Type} {fields : List StateField} {f : State → β → State}
    (hf : ∀ (s : State) (b : β), s.KeepsBut fields (f s b)) (l : List β) : ∀ s : State, s.KeepsBut fields (l.foldl f s) := by
  induction l with
  | nil => exact State.keepsBut_refl fields
  | cons b l ih => exact fun s => State.keepsBut_trans (hf s b) (ih (f s b)) (List.Subset.refl _) (List.Subset.refl _)

theorem State.setMem_keepsBut (s : State) (m : Memory) : s.KeepsBut [.mem] { s with mem := m } := fun f other => by
  cases f with
  | mem => exact absurd (List.mem_singleton_self _) other
  | _ => rfl

/-! ### A tile written touches device memory alone -/

theorem State.partWrite_keepsBut (s : State) (p : Fin 4) (a : Nat) (bs : List Byte) : s.KeepsBut [.mem] (s.partWrite p a bs) :=
  State.foldl_keepsBut (fun s q => by
    split
    · exact s.setMem_keepsBut _
    · exact s.keepsBut_refl _) _ s

theorem State.kvWrite_keepsBut (s : State) (i : Nat) (h : Half) (off : Nat) (bs : List Byte) :
    s.KeepsBut [.mem] (s.kvWrite i h off bs) :=
  State.foldl_keepsBut (fun s _ => s.setMem_keepsBut _) _ s

theorem State.writeTile_keepsBut (s : State) (p : Fin 4) (tile : Tile) : s.KeepsBut [.mem] (s.writeTile p tile) :=
  State.foldl_keepsBut (fun s w => by
    split
    · exact s.partWrite_keepsBut _ _ _
    · exact s.kvWrite_keepsBut _ _ _ _
    · exact s.keepsBut_refl _) _ s

/-! ### The operation after one of its tiles -/

/-- A tile that names no slot stays unwritten when its row of the row map is of a cancelled slot. -/
def Run.drops (r : Run) (d : Desc) (tile : Tile) : Bool := (tile.mapRow d r.rows).any fun x => r.dead.contains x.slot

/-- The operation once tile `k` is written, or dropped with its slot. -/
def OpFlight.past (o : OpFlight) (r : Run) (k : Nat) (tile : Tile) : OpFlight :=
  if r.drops o.desc tile then { o with tiles := o.tiles.eraseIdx k } else o.written k tile

theorem State.liveTile_of_no_slot {s : State} {r : Run} {o : OpFlight} {tile : Tile} (plain : o.desc.kind ≠ kScatter)
    (noSlot : tile.slot = none) : s.liveTile r o tile = if r.drops o.desc tile then none else some tile := by
  simp only [State.liveTile, noSlot, Run.drops, plain, false_and, if_false]
  rfl

section

variable {t k : Nat} {s : State} {r : Run} {l : OpList} {o : OpFlight} {tile : Tile}

/-- What a further tile's write needs of the state after this one. -/
structure State.Resumes (s u : State) (r : Run) (o : OpFlight) : Prop where
  up : u.runHalves.all u.halfUp = s.runHalves.all s.halfUp
  lists : u.list = s.list
  run : u.eng.run = some { r with cur := some o }

theorem State.putTile_resumes : s.Resumes (s.putTile r o k tile) r (o.written k tile) := by
  have kept := s.writeTile_keepsBut r.part tile
  have start : (s.writeTile r.part tile).start = s.start := kept .start (by decide)
  have arr : (s.writeTile r.part tile).arr = s.arr := kept .arr (by decide)
  have eng : (s.writeTile r.part tile).eng = s.eng := kept .eng (by decide)
  have halfUp : (s.putTile r o k tile).halfUp = s.halfUp := by
    funext h
    exact congrArg (fun a : Both Arr => decide ((a.get h).half = .inService)) arr
  have halves : (s.putTile r o k tile).runHalves = s.runHalves := by
    simp only [State.runHalves, halfUp]
    exact congrArg (fun x : Start => if x.singleHalf then allHalves.filter s.halfUp else allHalves) start
  refine ⟨by rw [halves, halfUp], ?_, rfl⟩
  funext p i
  change tget none (s.writeTile r.part tile).eng.lists (listKey p i) = _
  rw [eng]
  rfl

theorem execTileWrite_past (up : s.runHalves.all s.halfUp = true) (hr : s.eng.run = some r) (hc : r.cur = some o)
    (hl : s.list r.part r.list = some l) (plain : o.desc.kind ≠ kScatter) (hk : o.tiles[k]? = some tile)
    (noSlot : tile.slot = none) : ∃ u, execTileWrite t k .clean s = .next u ∧ s.Resumes u r (o.past r k tile) := by
  have live := State.liveTile_of_no_slot (s := s.atTime t) (r := r) plain noSlot
  cases drops : r.drops o.desc tile with
  | true =>
    refine ⟨_, execTileWrite_dead t up hr hc hl hk (live.trans (if_pos drops)) .clean, ?_⟩
    exact ⟨rfl, rfl, by simp only [OpFlight.past, drops, if_true]; rfl⟩
  | false =>
    refine ⟨_, execTileWrite_live t up hr hc hl hk (live.trans (if_neg (Bool.eq_false_iff.1 drops))) .clean, ?_⟩
    obtain ⟨halves, lists, run⟩ := State.putTile_resumes (s := s.atTime t) (r := r) (o := o) (k := k) (tile := tile)
    exact ⟨halves, lists, run.trans (by simp only [OpFlight.past, drops, Bool.false_eq_true, if_false])⟩

end

/-! ### Two tiles in either order -/

theorem eraseIdx_eraseIdx_of_lt {α : Type} {j k : Nat} (h : j < k) (l : List α) :
    (l.eraseIdx k).eraseIdx j = (l.eraseIdx j).eraseIdx (k - 1) := by
  refine List.ext_getElem? fun i => ?_
  simp only [List.getElem?_eraseIdx]
  by_cases below : i < j
  · simp only [below, if_true, Nat.lt_trans below h, show i < k - 1 by omega]
  · by_cases between : i + 1 < k
    · simp only [below, if_false, between, if_true, show i < k - 1 by omega]
    · simp only [below, if_false, between, show ¬ i < k - 1 by omega, show ¬ i + 1 < j by omega]

section

variable {r : Run} {o : OpFlight} {j k : Nat} {x y : Tile}

@[simp] theorem OpFlight.past_desc : (o.past r k x).desc = o.desc := by unfold OpFlight.past; split <;> rfl

@[simp] theorem OpFlight.past_tiles : (o.past r k x).tiles = o.tiles.eraseIdx k := by unfold OpFlight.past; split <;> rfl

/-- Digests add up, and the tiles left are those of neither place. -/
theorem OpFlight.past_comm (h : j < k) (hx : x.slot = none) (hy : y.slot = none) :
    (o.past r k x).past r j y = (o.past r j y).past r (k - 1) x := by
  have tiles := eraseIdx_eraseIdx_of_lt h o.tiles
  have sums : o.digest + x.crc + y.crc = o.digest + y.crc + x.crc := add_right_comm _ _ _
  cases dx : r.drops o.desc x <;> cases dy : r.drops o.desc y <;>
    simp only [OpFlight.past, OpFlight.written, dx, dy, hx, hy, tiles, sums, if_true, if_false, Bool.false_eq_true]

end

/-- Settles O28: each write leaves the operation past its tile, and being past two tiles is the same in either order. -/
theorem digestIgnoresTileOrder : Obligations.DigestIgnoresTileOrder := by
  intro t j k s r l o up hr hc hl plain noSlot hjk hk
  have hj : j < o.tiles.length := Nat.lt_trans hjk hk
  have tileK : o.tiles[k]? = some o.tiles[k] := List.getElem?_eq_getElem hk
  have tileJ : o.tiles[j]? = some o.tiles[j] := List.getElem?_eq_getElem hj
  have slotK := noSlot _ (List.getElem_mem hk)
  have slotJ := noSlot _ (List.getElem_mem hj)
  obtain ⟨u, hu, uUp, uList, uRun⟩ := execTileWrite_past (t := t) up hr hc hl plain tileK slotK
  obtain ⟨u', hu', uUp', uList', uRun'⟩ := execTileWrite_past (t := t) up hr hc hl plain tileJ slotJ
  have leftJ : (o.past r k o.tiles[k]).tiles[j]? = some o.tiles[j] := by
    rw [OpFlight.past_tiles, List.getElem?_eraseIdx_of_lt hjk, tileJ]
  have leftK : (o.past r j o.tiles[j]).tiles[k - 1]? = some o.tiles[k] := by
    rw [OpFlight.past_tiles, List.getElem?_eraseIdx_of_ge (by omega), Nat.sub_add_cancel (by omega), tileK]
  obtain ⟨v, hv, -, -, vRun⟩ := execTileWrite_past (t := t) (l := l) (uUp.trans up) uRun rfl (by rw [uList]; exact hl)
    (by rwa [OpFlight.past_desc]) leftJ slotJ
  obtain ⟨v', hv', -, -, vRun'⟩ := execTileWrite_past (t := t) (l := l) (uUp'.trans up) uRun' rfl (by rw [uList']; exact hl)
    (by rwa [OpFlight.past_desc]) leftK slotK
  have kThenJ : v.eng.run = some { r with cur := some ((o.past r k o.tiles[k]).past r j o.tiles[j]) } := vRun
  have jThenK : v'.eng.run = some { r with cur := some ((o.past r j o.tiles[j]).past r (k - 1) o.tiles[k]) } := vRun'
  exact ⟨u, v, u', v', hu, hv, hu', hv', by rw [kThenJ, jThenK, OpFlight.past_comm hjk slotK slotJ]⟩

end Sys2Proof.Machine
end

section
/-! PROOFS. The Belfry's window: where a message enters it and what else changes (R315, R448, R449). -/

namespace Sys2Proof.Machine

/-! ### A message takes its place in the window (R448, R449) -/

/-- One die's messages of one stamp. -/
def Held.together (h x : Held) : Bool := x.stamp == h.stamp && stampDie x.msg.src == stampDie h.msg.src

/-- A message goes behind `x`, the rest of the window being `r`. -/
def Held.behind (h x : Held) (r : List Held) : Prop :=
  x.stamp < h.stamp ∨ x.stamp = h.stamp ∧ x.msg.src ≤ h.msg.src ∨ h.together x = true ∨ ∃ y ∈ r, h.together y = true

section

variable {h x : Held} {r l : List Held}

theorem Held.stamp_of_together (t : h.together x = true) : x.stamp = h.stamp := by
  simp only [Held.together, Bool.and_eq_true, beq_iff_eq] at t
  exact t.1

theorem insertHeld_behind (b : h.behind x r) : insertHeld h (x :: r) = x :: insertHeld h r := by
  have taken : (decide (x.stamp < h.stamp) || (x.stamp == h.stamp && decide (x.msg.src ≤ h.msg.src)) || h.together x ||
      r.any h.together) = true := by
    simpa only [Held.behind, Bool.or_eq_true, Bool.and_eq_true, decide_eq_true_eq, beq_iff_eq, List.any_eq_true, or_assoc] using b
  exact if_pos taken

theorem insertHeld_before (b : ¬ h.behind x r) : insertHeld h (x :: r) = h :: x :: r := by
  have kept : ¬ (decide (x.stamp < h.stamp) || (x.stamp == h.stamp && decide (x.msg.src ≤ h.msg.src)) || h.together x ||
      r.any h.together) = true := by
    simpa only [Held.behind, Bool.or_eq_true, Bool.and_eq_true, decide_eq_true_eq, beq_iff_eq, List.any_eq_true, or_assoc] using b
  exact if_neg kept

theorem insertHeld_perm (h : Held) (l : List Held) : (insertHeld h l).Perm (h :: l) := by
  induction l with
  | nil => exact .refl _
  | cons x r ih =>
    by_cases b : h.behind x r
    · rw [insertHeld_behind b]
      exact (ih.cons x).trans (.swap h x r)
    · rw [insertHeld_before b]

theorem mem_insertHeld {y : Held} : y ∈ insertHeld h l ↔ y = h ∨ y ∈ l := by
  rw [(insertHeld_perm h l).mem_iff, List.mem_cons]

/-- In a window of rising stamps what a message goes behind is no later than it. -/
theorem Held.stamp_le_of_behind (b : h.behind x r) (rising : ∀ y ∈ r, x.stamp ≤ y.stamp) : x.stamp ≤ h.stamp := by
  obtain earlier | ⟨same, -⟩ | t | ⟨y, hy, t⟩ := b
  · exact earlier.le
  · exact same.le
  · exact (Held.stamp_of_together t).le
  · exact (rising y hy).trans (Held.stamp_of_together t).le

theorem insertHeld_rising (h : Held) (l : List Held) (rising : l.Pairwise fun x y => x.stamp ≤ y.stamp) :
    (insertHeld h l).Pairwise fun x y => x.stamp ≤ y.stamp := by
  induction l with
  | nil => exact List.pairwise_singleton _ _
  | cons x r ih =>
    obtain ⟨first, rest⟩ := List.pairwise_cons.1 rising
    by_cases b : h.behind x r
    · rw [insertHeld_behind b]
      refine List.pairwise_cons.2 ⟨fun y hy => ?_, ih rest⟩
      obtain rfl | hy := mem_insertHeld.1 hy
      · exact Held.stamp_le_of_behind b first
      · exact first y hy
    · rw [insertHeld_before b]
      have later : h.stamp ≤ x.stamp := Nat.le_of_not_lt fun lt => b (.inl lt)
      exact List.pairwise_cons.2 ⟨List.forall_mem_cons.2 ⟨later, fun y hy => later.trans (first y hy)⟩, rising⟩

/-- The order of R448: by stamp, then by source. -/
def Held.upTo (x y : Held) : Prop := x.stamp < y.stamp ∨ x.stamp = y.stamp ∧ x.msg.src ≤ y.msg.src

theorem Held.upTo_trans {x y z : Held} (a : x.upTo y) (b : y.upTo z) : x.upTo z := by
  unfold Held.upTo at *
  omega

theorem Held.upTo_total (x y : Held) : x.upTo y ∨ y.upTo x := by
  unfold Held.upTo
  omega

theorem insertHeld_ordered (h : Held) (l : List Held) (alone : ∀ x ∈ l, h.together x = false) (ordered : l.Pairwise Held.upTo) :
    (insertHeld h l).Pairwise Held.upTo := by
  induction l with
  | nil => exact List.pairwise_singleton _ _
  | cons x r ih =>
    obtain ⟨first, rest⟩ := List.pairwise_cons.1 ordered
    obtain ⟨aloneX, aloneR⟩ := List.forall_mem_cons.1 alone
    by_cases b : h.behind x r
    · rw [insertHeld_behind b]
      refine List.pairwise_cons.2 ⟨fun y hy => ?_, ih aloneR rest⟩
      obtain rfl | hy := mem_insertHeld.1 hy
      · obtain earlier | same | t | ⟨z, hz, t⟩ := b
        · exact .inl earlier
        · exact .inr same
        · exact absurd t (Bool.eq_false_iff.1 aloneX)
        · exact absurd t (Bool.eq_false_iff.1 (aloneR z hz))
      · exact first y hy
    · rw [insertHeld_before b]
      have before : h.upTo x := (Held.upTo_total h x).resolve_right fun c => b (c.elim .inl fun c => .inr (.inl c))
      exact List.pairwise_cons.2 ⟨List.forall_mem_cons.2 ⟨before, fun y hy => Held.upTo_trans before (first y hy)⟩, ordered⟩

theorem Held.together_self (h : Held) : h.together h = true := by simp [Held.together]

/-- A message goes behind every other of its die and stamp. -/
theorem filter_insertHeld (h : Held) (l : List Held) :
    (insertHeld h l).filter h.together = l.filter h.together ++ [h] := by
  induction l with
  | nil => exact List.filter_cons_of_pos h.together_self
  | cons x r ih =>
    by_cases b : h.behind x r
    · rw [insertHeld_behind b, List.filter_cons, List.filter_cons, ih]
      split <;> rfl
    · rw [insertHeld_before b, List.filter_cons_of_pos h.together_self]
      have none_together : (x :: r).filter h.together = [] := List.filter_eq_nil_iff.2 <| List.forall_mem_cons.2
        ⟨fun t => b (.inr (.inr (.inl t))), fun y hy t => b (.inr (.inr (.inr ⟨y, hy, t⟩)))⟩
      rw [none_together, List.nil_append]

end

/-! ### What a message leaves unchanged -/

section

variable (s : State) (src : Nat) (cls : FClass) (kind addr : Nat)

theorem State.issue_keepsBut : s.KeepsBut [.bel] (s.issue src cls kind addr) := fun f other => by
  cases f with
  | bel => exact absurd (List.mem_singleton_self _) other
  | _ => rfl

theorem State.modArr_keepsBut (h : Half) (f : Arr → Arr) : s.KeepsBut [.arr] (s.modArr h f) := fun f other => by
  cases f with
  | arr => exact absurd (List.mem_singleton_self _) other
  | _ => rfl

theorem State.noteUnsync_keepsBut : s.KeepsBut [.bel, .arr] (s.noteUnsync src) := by
  unfold State.noteUnsync
  split
  · exact s.keepsBut_refl _
  · dsimp only
    split
    · exact State.keepsBut_trans (s.modArr_keepsBut _ _) (State.issue_keepsBut _ _ _ _ _) (by decide) (by decide)
    · exact s.keepsBut_refl _

/-- A fault message touches the window and, of a die without the time, the note of that alone. -/
theorem State.report_keepsBut : s.KeepsBut [.bel, .arr] (s.report src cls kind addr) :=
  State.keepsBut_trans (s.noteUnsync_keepsBut src) ((s.noteUnsync src).issue_keepsBut src cls kind addr) (List.Subset.refl _)
    (by decide)

end

theorem State.ownStamp_none {s : State} {src : Nat} (drum : halfOfSource src = none) : s.ownStamp src = none := by
  simp only [State.ownStamp, drum]

theorem State.ownStamp_half {s : State} {src : Nat} {h : Half} (of : halfOfSource src = some h) : s.ownStamp src =
    if (s.arr.get h).unsync = true then some (s.now + (s.arr.get h).ownCount) else none := by
  simp only [State.ownStamp, of]

/-- Settles O10. -/
theorem faultMessageEntersWindow : Obligations.FaultMessageEntersWindow := by
  intro s src cls kind addr ordered rising together new
  exact ⟨insertHeld_rising new s.bel.waiting, insertHeld_ordered new s.bel.waiting, filter_insertHeld new s.bel.waiting,
    insertHeld_perm new s.bel.waiting, rfl, s.issue_keepsBut src cls kind addr, s.report_keepsBut src cls kind addr,
    State.ownStamp_none, fun _ => State.ownStamp_half⟩

end Sys2Proof.Machine
end

section
/-! PROOFS. The Belfry's log and the commands over it (R287, R288, R294, R439, R446-R455). -/

namespace Sys2Proof.Machine

theorem satTo_eq_min (limit v : Nat) : satTo limit v = min limit v := by
  unfold satTo
  split <;> omega

/-! ### Messages that arrive, the window that closes, the log's parity (R439, R446-R450) -/

section

variable {s : State} {m : Msg} {stamp : Nat}

theorem Msg.sent_issued {v : Nat} (zero : bitsOf v 49 48 = 0) (spelt : Msg.ofCode v = some m) (issued : m.issued = true) :
    Msg.sent v = some m := by
  simp only [Msg.sent, zero, spelt, if_true, Option.filter_some, issued]

theorem Msg.sent_none {v : Nat} (other : bitsOf v 49 48 ≠ 0 ∨ Msg.ofCode v = none ∨
    ∃ m, Msg.ofCode v = some m ∧ m.issued = false) : Msg.sent v = none := by
  obtain high | unspelt | ⟨m, spelt, unissued⟩ := other
  · exact if_neg high
  · simp only [Msg.sent, unspelt, Option.filter_none, ite_self]
  · simp only [Msg.sent, spelt, Option.filter_some, unissued, Bool.false_eq_true, if_false, ite_self]

theorem State.noteUnsync_drum (drum : halfOfSource m.src = none) : s.noteUnsync m.src = s := by
  simp only [State.noteUnsync, drum]

theorem State.arrive_drum (drum : halfOfSource m.src = none) (other : ¬ (m.src = 0 ∧ m.kind = 1)) : s.arrive m stamp =
    if stamp + 50000 < s.now then s.logOne ⟨m, stamp, false, true, none⟩ true
    else s.modBel fun b => { b with waiting := insertHeld ⟨m, stamp, false, true, none⟩ b.waiting } := by
  simp only [State.arrive, drum, State.noteUnsync_drum drum, Bool.false_eq_true, if_false, if_neg other]

theorem execBelfryMessageArrival_sent (t : Nat) {code : BitVec 64} (sent : Msg.sent code.toNat = some m) :
    execBelfryMessageArrival t code stamp s = .next ((s.atTime t).arrive m stamp) := by
  simp only [execBelfryMessageArrival, sent]

theorem execBelfryMessageArrival_none (t : Nat) {code : BitVec 64} (none_sent : Msg.sent code.toNat = none) :
    execBelfryMessageArrival t code stamp s = .next (s.atTime t) := by
  simp only [execBelfryMessageArrival, none_sent]

theorem State.logDue_none (early : ∀ x ∈ s.bel.waiting, s.now < x.stamp + 50000) : s.logDue = s := by
  have due : (s.bel.waiting.filter fun h => decide (h.stamp + 50000 ≤ s.now)) = [] :=
    List.filter_eq_nil_iff.2 fun x hx => by simpa using early x hx
  have left : (s.bel.waiting.filter fun h => !decide (h.stamp + 50000 ≤ s.now)) = s.bel.waiting :=
    List.filter_eq_self.2 fun x hx => by simpa using early x hx
  simp only [State.logDue, due, List.foldl_nil, State.modBel, left]

theorem State.logDue_one {x : Held} (one : s.bel.waiting = [x]) (due : x.stamp + 50000 ≤ s.now) :
    s.logDue = (s.modBel fun b => { b with waiting := [] }).logOne x true := by
  simp only [State.logDue, one, List.filter_cons, due, decide_true, Bool.not_true, Bool.false_eq_true, if_true, if_false,
    List.filter_nil, List.foldl_cons, List.foldl_nil, State.modBel]

/-- The message of a parity error of the log at a place. -/
def parityMsg (loc : BitVec 16) : Msg := ⟨0x000, .fatal, 1, loc.toNat⟩

theorem parityMsg_eq (loc : BitVec 16) : (⟨0x000, .fatal, 1, loc.toNat % 2 ^ 16⟩ : Msg) = parityMsg loc := by
  rw [Nat.mod_eq_of_lt loc.isLt, parityMsg]

theorem State.repeatEntry_eq (e : LogEntry) : s.repeatEntry e = s.modBel fun b => { b with log := b.log.map fun x =>
    if x.index = e.index then { x with repeats := min 0x7FFFFFFF (x.repeats + 1) } else x } := by
  simp only [State.repeatEntry, State.modEntry, satTo_eq_min]

theorem execBelfryParity_new (t : Nat) {loc : BitVec 16} (new : (s.atTime t).repeated (parityMsg loc) = none) :
    execBelfryParity t loc s =
      .next (((s.atTime t).putEntry (parityMsg loc) (s.atTime t).now false false).safeState false) := by
  simp only [execBelfryParity, State.belfryParity, parityMsg_eq, new]

theorem execBelfryParity_repeats (t : Nat) {loc : BitVec 16} {e : LogEntry}
    (repeats : (s.atTime t).repeated (parityMsg loc) = some e) :
    execBelfryParity t loc s = .next (((s.atTime t).modBel fun b => { b with log := b.log.map fun x =>
      if x.index = e.index then { x with repeats := min 0x7FFFFFFF (x.repeats + 1) } else x }).safeState false) := by
  simp only [execBelfryParity, State.belfryParity, parityMsg_eq, repeats, State.repeatEntry_eq]

end

/-! ### Commands over the log (R287, R288, R294) -/

section

variable {s u : State} {t id : Nat} {a : Acc} {e : LogEntry}

theorem execFaultAck_named (taken : s.Taken t id 0x0802 a u) (named : u.namedEntry a = .ok e) :
    execFaultAck t id s = .next ((u.ackEntry e.index).reply a stOK 0 0 0) := by
  refine (State.actOn_of_taken taken _).trans ?_
  simp only [State.faultAck, named]

theorem execFaultAck_refused {c : Nat} (taken : s.Taken t id 0x0802 a u) (refused : u.namedEntry a = .error c) :
    execFaultAck t id s = .next (u.reply a c 0 0 0) := by
  refine (State.actOn_of_taken taken _).trans ?_
  simp only [State.faultAck, refused]

theorem execFaultClear_named (taken : s.Taken t id 0x0803 a u) (named : u.namedEntry a = .ok e) : execFaultClear t id s =
    .next (if u.persists e then u.reply a stBusy 0 0 0 else (u.clearEntry e.index).reply a stOK 0 0 0) := by
  refine (State.actOn_of_taken taken _).trans ?_
  simp only [State.faultClear, named]

theorem execFaultInject_spelt {m : Msg} (taken : s.Taken t id 0x0A30 a u) (spelt : Msg.ofCode (a.par 16 8) = some m) :
    execFaultInject t id s = .next ((u.modBel fun b => { b with
      waiting := insertHeld ⟨m, a.mark, true, bitOf (a.par 40 1) 0, none⟩ b.waiting }).reply a stOK 0 0 0) := by
  refine (State.actOn_of_taken taken _).trans ?_
  simp only [State.inject, spelt]

end

/-! ### The register path (R455) -/

section

variable {s : State} {q : Fin 4} {e : LogEntry} (served : s.pagesOpen q = true)
include served

theorem State.writeFltEntry_dropped (plain : s.isSteward q = false) (v : Nat) :
    s.writeFltEntry (.host q) v = s.goard q false := by
  simp only [State.writeFltEntry, State.writerOpen, State.stewardWriter, State.dropWrite, served, plain, Bool.not_true,
    Bool.not_false, Bool.false_eq_true, if_false, if_true]

section

variable (steward : s.isSteward q = true) (held : s.entryAt s.bel.sel = some e)
include steward held

theorem State.writeFltEntry_ack : s.writeFltEntry (.host q) 1 = s.ackEntry s.bel.sel := by
  have bit0 : bitOf 1 0 = true := by decide
  have bit1 : bitOf 1 1 = false := by decide
  simp only [State.writeFltEntry, State.writerOpen, State.stewardWriter, served, steward, bit0, bit1, State.regAck, held,
    Option.isSome_some, Bool.not_true, Bool.false_eq_true, if_false, if_true]

theorem State.writeFltEntry_clear :
    s.writeFltEntry (.host q) 2 = if s.persists e then s else s.clearEntry s.bel.sel := by
  have bit0 : bitOf 2 0 = false := by decide
  have bit1 : bitOf 2 1 = true := by decide
  simp only [State.writeFltEntry, State.writerOpen, State.stewardWriter, served, steward, bit0, bit1, State.regClear, held,
    Bool.not_true, Bool.false_eq_true, if_false, if_true]

end

end

/-- Settles O51: the window and the log by their rules, each command by the entry it names. -/
theorem belfryLogs : Obligations.BelfryLogs := by
  intro t id s v
  refine ⟨fun code m stamp zero spelt issued drum other => ?_, fun code stamp none_sent =>
    execBelfryMessageArrival_none t (Msg.sent_none none_sent), fun early => congrArg _ (State.logDue_none early),
    fun x one due => congrArg _ (State.logDue_one (s := v) one due),
    fun loc => ⟨execBelfryParity_new t, fun e => execBelfryParity_repeats t⟩,
    fun u a taken => State.actOn_of_taken taken _, fun u a e => execFaultAck_named, fun u a c => execFaultAck_refused,
    fun u a e taken named => ?_, fun u a m => execFaultInject_spelt, fun q e served held => ?_⟩
  · have arrives := execBelfryMessageArrival_sent (s := s) (stamp := stamp) t (Msg.sent_issued zero spelt issued)
    rw [State.arrive_drum drum other] at arrives
    exact ⟨fun early => arrives.trans (congrArg _ (if_neg (Nat.not_lt.2 early))),
      fun late => arrives.trans (congrArg _ (if_pos late))⟩
  · have clears := execFaultClear_named taken named
    exact ⟨fun persists => clears.trans (congrArg _ (if_pos persists)),
      fun ended => clears.trans (congrArg _ (if_neg (Bool.eq_false_iff.1 ended)))⟩
  · have persists_eq : v.persists e = s.persists e := rfl
    refine ⟨fun steward => congrArg _ (State.writeFltEntry_ack (s := v) served steward held),
      fun steward ended => congrArg _ ((State.writeFltEntry_clear (s := v) served steward held).trans (if_neg ?_)),
      fun steward persists => congrArg _ ((State.writeFltEntry_clear (s := v) served steward held).trans (if_pos ?_)),
      fun plain => ⟨congrArg _ (State.writeFltEntry_dropped (s := v) served plain 1),
        congrArg _ (State.writeFltEntry_dropped (s := v) served plain 2)⟩⟩
    · exact Bool.eq_false_iff.1 ended
    · exact persists

end Sys2Proof.Machine
end

section
/-! PROOFS. The fabric's router, its routes and ports, and the count of hops (R100, R278, R279, R386-R393, R399, R407). -/

namespace Sys2Proof.Machine

/-! ### What the pool's retries leave of the fabric -/

theorem State.setLink_keepsBut (s : State) (k : Nat) (x : Link) : s.KeepsBut [.links] (s.setLink k x) := fun f other => by
  cases f with
  | links => exact absurd (List.mem_singleton_self _) other
  | _ => rfl

theorem State.modLink_keepsBut (s : State) (k : Nat) (f : Link → Link) : s.KeepsBut [.links] (s.modLink k f) :=
  s.setLink_keepsBut k _

/-- The receive buffers of every link without the messages for which a test holds. -/
def State.dropHeld (s : State) (gone : FMsg → Bool) : State :=
  s.links.foldl (fun s e => if (s.link e.1).rxHeld.any gone then
    s.modLink e.1 fun x => { x with rxHeld := x.rxHeld.filter fun m => !gone m } else s) s

theorem State.dropHeld_keepsBut (s : State) (gone : FMsg → Bool) : s.KeepsBut [.links] (s.dropHeld gone) :=
  State.foldl_keepsBut (fun s e => by
    split
    · exact s.modLink_keepsBut _ _
    · exact s.keepsBut_refl _) _ s

/-- The messages of an ended role for this device. -/
def State.ofRole (s : State) (dev part gen : Nat) (m : FMsg) : Bool :=
  m.srcDev == dev && m.srcPart == part && m.srcGen == gen && s.fab.devId == some m.dstDev

theorem State.endRole_fab (s : State) (dev part gen : Nat) : ∃ n, (s.endRole dev part gen).fab = { s.fab with
    pool := s.fab.pool.filter fun m => !s.ofRole dev part gen m,
    held := s.fab.held.filter fun m => !s.ofRole dev part gen m,
    ended := if s.fab.ended.contains (dev, part, gen) then s.fab.ended else s.fab.ended ++ [(dev, part, gen)],
    counts := tmod 0 s.fab.counts 3 (· + n) } := by
  have fab : (s.dropHeld (s.ofRole dev part gen)).fab = s.fab := s.dropHeld_keepsBut _ .fab (by decide)
  refine ⟨(s.fab.pool.filter (s.ofRole dev part gen)).length + (s.fab.held.filter (s.ofRole dev part gen)).length +
    (s.links.map fun e => ((s.link e.1).rxHeld.filter (s.ofRole dev part gen)).length).foldl (· + ·) 0, ?_⟩
  refine (congrArg (fun x : Fabric => ({ x with
    pool := x.pool.filter fun m => !s.ofRole dev part gen m,
    held := x.held.filter fun m => !s.ofRole dev part gen m,
    ended := if x.ended.contains (dev, part, gen) then x.ended else x.ended ++ [(dev, part, gen)],
    counts := tmod 0 x.counts 3 _ } : Fabric)) fab)

theorem State.endRole_devId (s : State) (dev part gen : Nat) : (s.endRole dev part gen).fab.devId = s.fab.devId := by
  obtain ⟨n, fab⟩ := s.endRole_fab dev part gen
  rw [fab]

/-- However a message for this device ends, the device keeps its number. -/
theorem State.deliver_devId {s u : State} {m : FMsg} (h : s.deliver m = some u) : u.fab.devId = s.fab.devId := by
  unfold State.deliver at h
  dsimp only at h
  split at h
  · obtain rfl := Option.some.inj h
    rfl
  split at h
  · obtain rfl := Option.some.inj h
    exact s.endRole_devId _ _ _
  iterate 4
    split at h
    · obtain rfl := Option.some.inj h
      rfl
  split at h
  · obtain rfl := Option.some.inj h
    rfl
  · exact absurd h nofun

/-- One held message offered again: what `State.retryLink` does with each. -/
def State.offerAgain (a : State × List FMsg) (m : FMsg) : State × List FMsg :=
  if a.2.any fun n => vcOf n.type == vcOf m.type then (a.1, a.2 ++ [m])
  else match a.1.deliver m with
    | some s => (s, a.2)
    | none => (a.1, a.2 ++ [m])

theorem State.offerAgain_devId (a : State × List FMsg) (m : FMsg) : (State.offerAgain a m).1.fab.devId = a.1.fab.devId := by
  unfold State.offerAgain
  split
  · rfl
  · split
    next u hu => exact State.deliver_devId hu
    next => rfl

theorem State.retryLink_devId (s : State) (k : Nat) : (s.retryLink k).fab.devId = s.fab.devId := by
  have offers (l : List FMsg) : ∀ a : State × List FMsg, (l.foldl State.offerAgain a).1.fab.devId = a.1.fab.devId := by
    induction l with
    | nil => exact fun _ => rfl
    | cons m l ih => exact fun a => (ih _).trans (State.offerAgain_devId a m)
  unfold State.retryLink
  dsimp only
  split
  · rfl
  · exact offers (s.link k).rxHeld (s, [])

theorem State.retryPool_devId (s : State) : s.retryPool.fab.devId = s.fab.devId := by
  have links (l : List (Nat × Option Link)) : ∀ u : State,
      (l.foldl (fun s e => if 16 ≤ e.1 then s.retryLink e.1 else s) u).fab.devId = u.fab.devId := by
    induction l with
    | nil => exact fun _ => rfl
    | cons e l ih =>
      refine fun u => (ih _).trans ?_
      dsimp only
      split
      · exact u.retryLink_devId e.1
      · rfl
  exact links s.links s

/-! ### Messages received from a port (R386-R393, R399) -/

section

variable {s : State} {m : FMsg} {k own : Nat}

theorem State.deliverFrom_behind (behind : ((s.link k).rxHeld.any fun n => vcOf n.type == vcOf m.type) = true) :
    s.deliverFrom k m = s.modLink k fun x => { x with rxHeld := x.rxHeld ++ [m] } := if_pos behind

theorem State.deliverFrom_full (full : s.deliver m = none) :
    s.deliverFrom k m = s.modLink k fun x => { x with rxHeld := x.rxHeld ++ [m] } := by
  simp only [State.deliverFrom, full, ite_self]

theorem State.deliverFrom_taken {v : State} (first : ((s.link k).rxHeld.any fun n => vcOf n.type == vcOf m.type) = false)
    (taken : s.deliver m = some v) : s.deliverFrom k m = if m.type = 6 then v.retryPool else v := by
  simp only [State.deliverFrom, first, taken, Bool.false_eq_true, if_false]

theorem State.deliver_oldRole (least : 1 ≤ m.type) (most : m.type ≤ 5)
    (old : (s.part (Fin.ofNat 4 m.dstPart)).gen.toNat ≠ m.dstGen) : s.deliver m = some (s.countFab 3 1) := by
  have known : ¬ (m.type = 0 ∨ 6 < m.type) := by omega
  have other : m.type ≠ 6 := by omega
  simp only [State.deliver, known, other, old, if_false, ne_eq, not_false_iff, or_true, if_true]

theorem State.transit_loop (h : Half) (loop : 31 ≤ m.hops) : s.transit h m = s.countFab 5 1 := if_pos loop

theorem State.transit_onward (h : Half) (near : m.hops < 31) (route : bitOf (tget 0 s.fab.routes m.dstDev) 7 = true) :
    s.transit h m = (s.countFab 2 1).onward h { m with hops := m.hops + 1 } := by
  simp only [State.transit, Nat.not_le.2 near, route, Bool.not_true, Bool.false_eq_true, if_false]

theorem State.transit_unroutable (h : Half) (near : m.hops < 31)
    (noRoute : bitOf (tget 0 s.fab.routes m.dstDev) 7 = false) : s.transit h m = s.unroutable m := by
  simp only [State.transit, Nat.not_le.2 near, noRoute, Bool.not_false, if_false, if_true]

/-- The first unroutable message of another device is logged (R392). -/
theorem State.unroutable_logged (number : s.fab.devId = some own) (foreign : m.srcDev ≠ own)
    (first : s.fab.lastUnroutable = none) : s.unroutable m = (({ s.countFab 4 1 with
      fab := { (s.countFab 4 1).fab with lastUnroutable := some s.now } } : State).report 0x008 .contained 1 m.dstDev) := by
  have due : (s.countFab 4 1).fab.devId ≠ some m.srcDev ∧
      (s.fab.lastUnroutable.all fun t => decide (t + 60 * 10 ^ 9 ≤ s.now)) = true := by
    refine ⟨fun same => foreign (Option.some.inj (same.symm.trans number)), ?_⟩
    simp only [first, Option.all_none]
  exact if_pos due

end

section

variable {t : Nat} {l : Fin 8} {p : Fin 16} {bytes : List Byte} {s : State} {own : Nat}

/-- The block once a message has been taken from its port. -/
def State.tookMessage (s : State) (t l p : Nat) (bytes : List Byte) : State :=
  (s.atTime t).modLink (16 + 16 * l + p) fun x => { x with
    rxDone := x.rxDone.erase (vcOf (FMsg.ofBytes bytes).type, bytes) }

theorem execFabricMessageReceive_unnumbered (none_set : s.fab.devId = none) :
    execFabricMessageReceive t l p bytes s = .next (s.tookMessage t l.val p.val bytes) := by
  have off : (s.tookMessage t l.val p.val bytes).fab.devId.isNone = true := by
    rw [show (s.tookMessage t l.val p.val bytes).fab.devId = none from none_set]
    rfl
  exact congrArg _ (if_pos (by rw [Bool.or_eq_true]; exact .inl off))

section

variable (number : s.fab.devId = some own) (trained : ((s.tookMessage t l.val p.val bytes).link (16 + 16 * l.val + p.val)).gen ≠ 0)
include number trained

theorem execFabricMessageReceive_numbered : execFabricMessageReceive t l p bytes s =
    .next (if (FMsg.ofBytes bytes).dstDev = own
      then (s.tookMessage t l.val p.val bytes).deliverFrom (16 + 16 * l.val + p.val) (FMsg.ofBytes bytes)
      else (s.tookMessage t l.val p.val bytes).transit (halfOf (l.val / 4)) (FMsg.ofBytes bytes)) := by
  have same : (s.tookMessage t l.val p.val bytes).fab.devId = some own := number
  have on : ((s.tookMessage t l.val p.val bytes).fab.devId.isNone ||
      ((s.tookMessage t l.val p.val bytes).link (16 + 16 * l.val + p.val)).gen == 0) = false := by
    simp only [same, Option.isNone_some, Bool.false_or, beq_eq_false_iff_ne, ne_eq, trained, not_false_iff]
  have here : ((s.tookMessage t l.val p.val bytes).fab.devId = some (FMsg.ofBytes bytes).dstDev) =
      ((FMsg.ofBytes bytes).dstDev = own) := by
    rw [same, Option.some.injEq]
    exact propext eq_comm
  refine congrArg _ ((if_neg (Bool.eq_false_iff.1 on)).trans ?_)
  simp only [← here]
  rfl

theorem execFabricMessageReceive_here (here : (FMsg.ofBytes bytes).dstDev = own) : execFabricMessageReceive t l p bytes s =
    .next ((s.tookMessage t l.val p.val bytes).deliverFrom (16 + 16 * l.val + p.val) (FMsg.ofBytes bytes)) :=
  (execFabricMessageReceive_numbered number trained).trans (congrArg _ (if_pos here))

theorem execFabricMessageReceive_crosses (other : (FMsg.ofBytes bytes).dstDev ≠ own) :
    execFabricMessageReceive t l p bytes s =
      .next ((s.tookMessage t l.val p.val bytes).transit (halfOf (l.val / 4)) (FMsg.ofBytes bytes)) :=
  (execFabricMessageReceive_numbered number trained).trans (congrArg _ (if_neg other))

end

end

/-! ### Messages held, routes and ports (R278, R279, R391) -/

section

variable {s u : State} {t id : Nat} {a : Acc}

theorem execRouterRelease_held {k : Nat} {m : FMsg} (held : s.fab.held[k]? = some m) : execRouterRelease t k s =
    .next (({ s.atTime t with fab := { s.fab with held := s.fab.held.eraseIdx k } } : State).route m) := by
  simp only [execRouterRelease, State.atTime_fab, held]

theorem execRouterRelease_none {k : Nat} (short : s.fab.held.length ≤ k) : execRouterRelease t k s = .next (s.atTime t) := by
  simp only [execRouterRelease, State.atTime_fab, List.getElem?_eq_none short]

theorem execFabRouteSet_number (ready : s.Ready t id 0x0501 a u) (number : a.par 16 1 = 1) : execFabRouteSet t id s =
    .next (((u.modFab fun x => { x with devId := some (a.par 18 2) }).oculusUpdate).reply a stOK 0 0 0) :=
  (State.act_of_ready ready _).trans (congrArg _ (if_pos number))

theorem execFabRouteSet_routes (ready : s.Ready t id 0x0501 a u) (routes : a.par 16 1 ≠ 1) : execFabRouteSet t id s =
    .next ((u.modFab fun x => { x with
      routes := (List.range (a.par 22 2)).foldl (fun (m : Tbl Nat) i => tset 0 m (a.par 20 2 + i) (le a.ext (4 * i) 2))
        x.routes }).reply a stOK (a.par 22 2) 0 0) :=
  (State.act_of_ready ready _).trans (congrArg _ (if_neg routes))

theorem execFabPortState_queries (ready : s.Ready t id 0x0510 a u) (query : a.par 18 1 = 0) : execFabPortState t id s =
    .next (u.reply a stOK (u.portEntry (a.par 16 1) (a.par 17 1)) 0 0) := by
  refine (State.act_of_ready ready _).trans ?_
  simp only [State.portState, query, Nat.zero_ne_one, OfNat.zero_ne_ofNat, if_false]

theorem execFabPortState_down (ready : s.Ready t id 0x0510 a u) (down : a.par 18 1 = 2) : execFabPortState t id s =
    .next ((u.portDown (a.par 16 1) (a.par 17 1)).reply a stOK
      ((u.portDown (a.par 16 1) (a.par 17 1)).portEntry (a.par 16 1) (a.par 17 1)) 0 0) := by
  refine (State.act_of_ready ready _).trans ?_
  simp only [State.portState, down, OfNat.ofNat_ne_one, if_false, if_true]

/-- A port brought up is waited for while its link trains. -/
theorem execFabPortState_up (ready : s.Ready t id 0x0510 a u) (up : a.par 18 1 = 1)
    (trains : ((u.portRole (a.par 16 1) (a.par 17 1)).link (portKey (a.par 16 1) (a.par 17 1))).st ≠ 1) :
    execFabPortState t id s =
      .next ((u.portRole (a.par 16 1) (a.par 17 1)).wait a (.portUp (a.par 16 1) (a.par 17 1))) := by
  refine (State.act_of_ready ready _).trans ?_
  simp only [State.portState, up, trains, if_false, if_true]

end

/-- Settles O46. That a message behind another of its channel stays in the receive buffers is the model's choice
(notes/assumptions, row 95). -/
theorem fabricRoutes : Obligations.FabricRoutes := by
  intro t id l p bytes s m k u blocked
  refine ⟨fun own number trained => ⟨fun here first v taken => ?_, fun here stays => ?_, fun other loop => ?_,
    fun other near route => ?_, fun other near noRoute first foreign => ?_⟩, execFabricMessageReceive_unnumbered,
    fun least most old => State.deliver_oldRole least most old, fun k x => execRouterRelease_held,
    fun k => execRouterRelease_none, fun dev q g new => ⟨rfl, ?_⟩,
    fun v a ready => ⟨execFabRouteSet_number ready, execFabRouteSet_routes ready⟩,
    fun v a ready => ⟨execFabPortState_queries ready, execFabPortState_up ready, execFabPortState_down ready⟩⟩
  · exact (execFabricMessageReceive_here number trained here).trans (congrArg _ (State.deliverFrom_taken first taken))
  · refine (execFabricMessageReceive_here number trained here).trans (congrArg _ ?_)
    exact stays.elim State.deliverFrom_behind State.deliverFrom_full
  · exact (execFabricMessageReceive_crosses number trained other).trans (congrArg _ (State.transit_loop _ loop))
  · exact (execFabricMessageReceive_crosses number trained other).trans (congrArg _ (State.transit_onward _ near route))
  · exact (execFabricMessageReceive_crosses number trained other).trans (congrArg _
      ((State.transit_unroutable (s := u) _ near noRoute).trans (State.unroutable_logged number foreign first)))
  · obtain ⟨n, fab⟩ := (s.atTime t).endRole_fab dev q.val g.toNat
    refine ⟨congrArg Fabric.pool fab, congrArg Fabric.held fab, (congrArg Fabric.ended fab).trans ?_⟩
    exact if_neg (Bool.eq_false_iff.1 new)

/-! ### Hops (R393) -/

/-- The message that carries one piece of what a member sends to a rank (R398). -/
def State.piece (s : State) (p : Fin 4) (g : GroupSnap) (dest : Nat × Nat × Nat) (own type tag seq : Nat) (bad : List Nat)
    (x : Nat × List Byte) : FMsg :=
  { type := type, hops := 0, dstDev := dest.1, srcDev := own, dstPart := dest.2.1, srcPart := p.val, dstGen := dest.2.2,
    srcGen := (s.part p).gen.toNat, group := g.group, epoch := g.epoch, srcRank := g.rank, tag := tag, seq := seq,
    offset := 65536 * x.1, payload := x.2,
    bad := (bad.filter fun o => decide (65536 * x.1 ≤ o) && decide (o < 65536 * (x.1 + 1))).map (· - 65536 * x.1) }

/-- What is sent to a rank is a list of new messages, each sent on from the run's half. -/
theorem State.sendTo_sends (s : State) (p : Fin 4) (g : GroupSnap) (rank type tag seq : Nat) (bytes : List Byte)
    (bad : List Nat) : ∃ sent : List FMsg, (∀ m ∈ sent, m.hops = 0) ∧
      s.sendTo p g rank type tag seq bytes bad = sent.foldl (fun v m => v.onward s.runHalf m) s := by
  unfold State.sendTo
  dsimp only
  split
  next dev part gen own _ _ =>
    generalize List.zip _ _ = pieces
    refine ⟨pieces.map (s.piece p g (dev, part, gen) own type tag seq bad), fun m hm => ?_, List.foldl_map.symm⟩
    obtain ⟨x, -, rfl⟩ := List.mem_map.1 hm
    rfl
  next => exact ⟨[], nofun, rfl⟩

theorem State.killTraffic_numbered {s : State} {own : Nat} (p : Fin 4) (gen : Nat) (number : s.fab.devId = some own) :
    let u := ((s.modFab fun x => { x with
      held := x.held.filter fun m => !(s.fab.devId == some m.srcDev && m.srcPart == p.val),
      pool := x.pool.filter fun m => m.dstPart != p.val,
      groups := tclear x.groups (256 * p.val) (256 * p.val + 256) }).countFab 3
        (s.fab.pool.filter fun m => m.dstPart == p.val).length).retryPool
    s.killTraffic p gen = ((s.partners p).map fun d => roleNotice own d p.val gen).foldl State.route u := by
  intro u
  have same : u.fab.devId = some own := (State.retryPool_devId _).trans number
  rw [List.foldl_map]
  unfold State.killTraffic
  dsimp only
  split
  next none_set => exact absurd (same.symm.trans none_set) nofun
  next own' number' => rw [Option.some.inj (number'.symm.trans same)]

theorem FMsg.hops_ofBytes_lt (bytes : List Byte) : (FMsg.ofBytes bytes).hops < 32 := Nat.mod_lt _ (by decide)

/-- Settles O60. What a reset partition's traffic comes to beside its notices is that of R407 (notes/assumptions, row 27). -/
theorem hopsBoundLoops : Obligations.HopsBoundLoops := by
  refine ⟨State.sendTo_sends, fun s p gen own number => ⟨State.killTraffic_numbered p gen number, fun d => rfl⟩, ?_⟩
  intro t l p bytes s own m k u number trained other
  have crosses := execFabricMessageReceive_crosses (l := l) (p := p) number trained other
  have most : m.hops < 32 := FMsg.hops_ofBytes_lt bytes
  refine ⟨fun loop => crosses.trans (congrArg _ ((State.transit_loop _ loop.ge).trans rfl)), fun near route => ?_⟩
  have below : m.hops < 31 := by omega
  exact crosses.trans (congrArg _ (State.transit_onward _ below route))

end Sys2Proof.Machine
end

section
/-! PROOFS. The test access port; supply rails, their droops and their resets (R318-R320, R419-R422, R520). -/

namespace Sys2Proof.Machine

/-! ### Instructions selected (R318, R319, R520) -/

section

variable {s : State} {n : Nat} {f : Jtag → Jtag}

/-- The port with an instruction selected. -/
def State.tapAt (s : State) (n : Nat) (f : Jtag → Jtag) : State :=
  { s with jtag := f { s.jtag with instr := n, path := false, testMode := decide (n = 0 ∨ n = 3 ∨ n = 4) } }

theorem State.selectInstr_off (off : s.start.phase = .off) : s.selectInstr n f = s := if_pos off

theorem State.selectInstr_stays (on : s.start.phase ≠ .off) (plain : s.jtag.testMode = false) :
    s.selectInstr n f = s.tapAt n f := by
  simp only [State.selectInstr, on, plain, Bool.false_and, Bool.false_eq_true, if_false, State.tapAt]

theorem State.selectInstr_leaves (on : s.start.phase ≠ .off) (test : s.jtag.testMode = true) (other : s.jtag.instr ≠ n) :
    s.selectInstr n f = (s.tapAt n f).deviceReset 6 := by
  have leaves : (s.jtag.testMode && s.jtag.instr != n) = true := by
    rw [test, Bool.true_and, bne_iff_ne]
    exact other
  simp only [State.selectInstr, on, leaves, if_false, if_true, State.tapAt]

theorem execJtagDieSelect_shut (t : Nat) (shut : s.sec.st = .locked ∨ s.sec.st = .terminated) :
    execJtagDieSelect t s = .next ((s.atTime t).selectInstr 0xFF fun x => { x with captured := 0 }) :=
  congrArg _ (if_pos shut)

theorem execJtagDieSelect_open (t : Nat) (opened : s.sec.st = .factory ∨ s.sec.st = .observe ∨ s.sec.st = .control) :
    execJtagDieSelect t s = .next ((s.atTime t).selectInstr 0x20 fun x => { x with path := true }) := by
  have notShut : ¬ (s.sec.st = .locked ∨ s.sec.st = .terminated) := by
    obtain h | h | h := opened <;> simp [h]
  exact congrArg _ (if_neg notShut)

theorem execTapLeaveTestInstruction_test (t : Nat) (test : s.jtag.testMode = true) : execTapLeaveTestInstruction t s =
    .next ((s.atTime t).selectInstr 0x01 fun x => { x with captured := BitVec.ofNat 46 s.idcode }) :=
  congrArg _ (if_pos test)

theorem execTapLeaveTestInstruction_plain (t : Nat) (plain : s.jtag.testMode = false) :
    execTapLeaveTestInstruction t s = .next (s.atTime t) := congrArg _ (if_neg (Bool.eq_false_iff.1 plain))

end

/-- Settles O56. -/
theorem testAccessPort : Obligations.TestAccessPort := by
  intro t s u sel
  have selects (n : Nat) (f : Jtag → Jtag) : u.tapAt n f = sel n (decide (n = 0 ∨ n = 3 ∨ n = 4)) f := rfl
  refine ⟨fun on plain => ?_, fun on test other => ?_, fun off => ?_⟩
  · have stays (n : Nat) (f : Jtag → Jtag) : u.selectInstr n f = sel n (decide (n = 0 ∨ n = 3 ∨ n = 4)) f :=
      State.selectInstr_stays (s := u) on plain
    refine ⟨fun op high unlisted => ?_, congrArg _ (stays 1 _), fun l b => congrArg _ (stays 2 _), congrArg _ (stays 0 id),
      congrArg _ (stays 3 _), congrArg _ (stays 4 id), fun shut => ?_, fun opened => ?_,
      execTapLeaveTestInstruction_plain t plain⟩
    · have noTest : decide (op.toNat = 0 ∨ op.toNat = 3 ∨ op.toNat = 4) = false := decide_eq_false (by omega)
      exact congrArg _ ((stays op.toNat _).trans (by rw [noTest]))
    · exact (execJtagDieSelect_shut t shut).trans (congrArg _ (stays 0xFF _))
    · exact (execJtagDieSelect_open t opened).trans (congrArg _ (stays 0x20 _))
  · have leave := execTapLeaveTestInstruction_test t test
    exact ⟨leave.trans (congrArg _ (State.selectInstr_leaves (s := u) on test other)), leave.symm⟩
  · exact ⟨fun op => congrArg _ (State.selectInstr_off (s := u) off), congrArg _ (State.selectInstr_off (s := u) off),
      congrArg _ (State.selectInstr_off (s := u) off)⟩

/-! ### Rails (R419-R422) -/

section

variable {s : State} {r k : Nat}

theorem State.rail_modRail (wf : twf Rail.init s.pwr.rails = true) (f : Rail → Rail) : (s.modRail r f).rail r = f (s.rail r) :=
  tget_tmod Rail.init s.pwr.rails r f wf

theorem State.rail_modRail_ne (wf : twf Rail.init s.pwr.rails = true) (f : Rail → Rail) (other : k ≠ r) :
    (s.modRail r f).rail k = s.rail k := tget_tmod_ne Rail.init s.pwr.rails r k f wf other

theorem State.modRail_wf (wf : twf Rail.init s.pwr.rails = true) (f : Rail → Rail) :
    twf Rail.init (s.modRail r f).pwr.rails = true := twf_tmod Rail.init r f wf

/-- The rails below `n` changed, each in its own way. -/
theorem State.rail_foldl_range (g : Nat → Rail → Rail) (wf : twf Rail.init s.pwr.rails = true) (n : Nat) :
    twf Rail.init ((List.range n).foldl (fun v i => v.modRail i (g i)) s).pwr.rails = true ∧
      ((List.range n).foldl (fun v i => v.modRail i (g i)) s).rail k = if k < n then g k (s.rail k) else s.rail k := by
  induction n with
  | zero => exact ⟨wf, rfl⟩
  | succ n ih =>
    obtain ⟨form, rail⟩ := ih
    rw [List.range_succ, List.foldl_append, List.foldl_cons, List.foldl_nil]
    refine ⟨State.modRail_wf form _, ?_⟩
    obtain below | rfl | above := Nat.lt_trichotomy k n
    · rw [State.rail_modRail_ne form _ below.ne, rail, if_pos below, if_pos (Nat.lt_succ_of_lt below)]
    · rw [State.rail_modRail form, rail, if_neg (Nat.lt_irrefl k), if_pos (Nat.lt_succ_self k)]
    · rw [State.rail_modRail_ne form _ above.ne', rail, if_neg (Nat.not_lt_of_gt above), if_neg (by omega)]

/-- The rails that comparators tell of. -/
def State.railsRisen (s : State) (risen : List (Fin 14 × Nat)) : State :=
  risen.foldl (fun s e => s.modRail e.1.val fun x => x.risen (min s.now e.2)) s

theorem State.railsRisen_spec (risen : List (Fin 14 × Nat)) : ∀ {s : State}, twf Rail.init s.pwr.rails = true →
    twf Rail.init (s.railsRisen risen).pwr.rails = true ∧
      ((∀ e ∈ risen, e.1.val ≠ r) → (s.railsRisen risen).rail r = s.rail r) := by
  induction risen with
  | nil => exact fun wf => ⟨wf, fun _ => rfl⟩
  | cons e l ih =>
    intro s wf
    obtain ⟨form, rail⟩ := ih (State.modRail_wf (r := e.1.val) wf fun x => x.risen (min s.now e.2))
    refine ⟨form, fun untold => ?_⟩
    obtain ⟨first, rest⟩ := List.forall_mem_cons.1 untold
    exact (rail rest).trans (State.rail_modRail_ne wf _ first.symm)

/-- What a sample makes of a rail: what it shows, and that it has risen when it is at its warning level. -/
def Rail.sampled (x : Rail) (r now mv amps : Nat) : Rail :=
  let x := { x with mv := min 4095 mv, deciAmps := min 65535 amps }
  if railWarn r ≤ mv then x.risen now else x

theorem Rail.risen_mv (x : Rail) (now : Nat) : (x.risen now).mv = x.mv := by unfold Rail.risen; split <;> rfl

theorem Rail.risen_deciAmps (x : Rail) (now : Nat) : (x.risen now).deciAmps = x.deciAmps := by unfold Rail.risen; split <;> rfl

theorem Rail.risen_below (x : Rail) (now : Nat) : (x.risen now).below = false := by
  unfold Rail.risen
  split
  · rfl
  · exact Bool.eq_false_iff.2 ‹_›

theorem Rail.sampled_spec (x : Rail) (r now mv amps : Nat) : (x.sampled r now mv amps).mv = min 4095 mv ∧
    (x.sampled r now mv amps).deciAmps = min 65535 amps ∧ (railWarn r ≤ mv → (x.sampled r now mv amps).below = false) ∧
    (mv < railWarn r → (x.sampled r now mv amps).below = x.below) := by
  unfold Rail.sampled
  dsimp only
  split
  next risen => exact ⟨Rail.risen_mv _ _, Rail.risen_deciAmps _ _, fun _ => Rail.risen_below _ _, fun low => absurd low (by omega)⟩
  next low => exact ⟨rfl, rfl, fun risen => absurd risen low, fun _ => rfl⟩

theorem State.sampleRails_rail (wf : twf Rail.init s.pwr.rails = true) (volts amps : List Nat) (risen : List (Fin 14 × Nat))
    (inside : r < min 14 volts.length) : ∃ now, (s.sampleRails volts amps risen).rail r =
      ((s.railsRisen risen).rail r).sampled r now (volts.getD r 0) (amps.getD r 0) := by
  have same_now : ∀ (n : Nat) (u : State), ((List.range n).foldl (fun s r => s.modRail r fun x =>
      x.sampled r s.now (volts.getD r 0) (amps.getD r 0)) u) = (List.range n).foldl (fun s r => s.modRail r fun x =>
      x.sampled r u.now (volts.getD r 0) (amps.getD r 0)) u ∧ ((List.range n).foldl (fun s r => s.modRail r fun x =>
      x.sampled r s.now (volts.getD r 0) (amps.getD r 0)) u).now = u.now := by
    intro n u
    induction n with
    | zero => exact ⟨rfl, rfl⟩
    | succ n ih =>
      obtain ⟨fold, now⟩ := ih
      simp only [List.range_succ, List.foldl_append, List.foldl_cons, List.foldl_nil]
      exact ⟨by rw [← fold, now], now⟩
  obtain ⟨form, -⟩ := State.railsRisen_spec (r := r) risen wf
  refine ⟨(s.railsRisen risen).now, (congrArg (fun u : State => u.rail r) (same_now _ (s.railsRisen risen)).1).trans ?_⟩
  exact (State.rail_foldl_range (fun r x => x.sampled r _ (volts.getD r 0) (amps.getD r 0)) form _).2.trans (if_pos inside)

end

section

variable {t mv : Nat} {r : Fin 14} {s : State}

theorem execRailBelowWarning_unseen (unseen : s.watched r.val = false ∨ railWarn r.val ≤ mv) :
    execRailBelowWarning t r mv s = .next (s.atTime t) := by
  refine congrArg _ (if_pos ?_)
  rw [Bool.or_eq_true, decide_eq_true_eq, Bool.not_eq_true']
  exact unseen

/-- The block once a rail has fallen below its warning level. -/
def State.drooped (s : State) (r mv : Nat) : State := s.modRail r fun x => { x with
  mv := min 4095 mv, below := true, aboveSince := none, droops := x.droops + 1, window := s.now / 10 ^ 9,
  inWindow := if x.window = s.now / 10 ^ 9 then x.inWindow + 1 else 1 }

theorem execRailBelowWarning_droops (watched : s.watched r.val = true) (low : mv < railWarn r.val) :
    execRailBelowWarning t r mv s = .next (if r.val < 8
      then ((s.atTime t).drooped r.val mv).modEng fun e => { e with hold := true } else (s.atTime t).drooped r.val mv) := by
  refine congrArg _ (if_neg ?_)
  rw [Bool.or_eq_true, decide_eq_true_eq, Bool.not_eq_true']
  exact not_or.2 ⟨fun unwatched => Bool.false_ne_true (unwatched.symm.trans watched), Nat.not_le.2 low⟩

theorem execRailBelowReset_unseen (unseen : s.watched r.val = false ∨ railReset r.val ≤ mv) :
    execRailBelowReset t r mv s = .next (s.atTime t) := by
  refine congrArg _ (if_pos ?_)
  simp only [Bool.or_eq_true, decide_eq_true_eq, Bool.not_eq_true', or_assoc]
  exact unseen.imp id .inl

/-- The block once a rail has fallen below its reset level. -/
def State.sagged (s : State) (r mv : Nat) : State :=
  let v := s.modRail r fun x => { x with mv := min 4095 mv, below := true, aboveSince := none }
  if r < 8 then v.modEng fun e => { e with hold := true } else v

theorem execRailBelowReset_resets (watched : s.watched r.val = true) (low : mv < railReset r.val)
    (running : s.start.phase = .running) : execRailBelowReset t r mv s =
      .next ((((s.atTime t).sagged r.val mv).report (0x0C0 + r.val) .contained 2 (mv % 2 ^ 12)).railReset r.val) := by
  have watchedAt : (s.atTime t).watched r.val = true := watched
  refine congrArg _ (if_neg ?_)
  simp only [watchedAt, State.atTime_start, running, Nat.not_le.2 low, Bool.not_true, decide_false, Bool.or_false, reduceCtorEq,
    Bool.false_eq_true, not_false_iff]

theorem execDroopHoldRelease_kept (kept : s.eng.hold = false ∨ (s.atTime t).railsClear = false) :
    execDroopHoldRelease t s = .next (s.atTime t) := by
  refine congrArg _ (if_neg ?_)
  rw [Bool.and_eq_true, not_and_or, Bool.not_eq_true, Bool.not_eq_true]
  exact kept

theorem State.railsClear_iff : s.railsClear = true ↔ ∀ k < 8, s.watched k = true → (s.rail k).below = false ∧
    ∀ a, (s.rail k).aboveSince = some a → a + 50000 ≤ s.now := by
  simp only [State.railsClear, List.all_eq_true, List.mem_range, Bool.or_eq_true, Bool.not_eq_true', Bool.and_eq_true]
  refine forall₂_congr fun k _ => ?_
  rw [← Bool.not_eq_true, ← imp_iff_not_or]
  refine imp_congr_right fun _ => and_congr_right fun _ => ?_
  cases (s.rail k).aboveSince <;> simp

theorem execDroopHoldRelease_clear (held : s.eng.hold = true) (clear : (s.atTime t).railsClear = true) :
    execDroopHoldRelease t s = .next (((List.range 8).foldl (fun v k => v.modRail k fun x => { x with
      aboveSince := none }) (s.atTime t)).modEng fun e => { e with hold := false }) := by
  refine congrArg _ (if_pos ?_)
  rw [Bool.and_eq_true]
  exact ⟨held, clear⟩

theorem execDroopRate_few (few : (s.rail r.val).inWindow ≤ 16) : execDroopRate t r s = .next (s.atTime t) :=
  congrArg _ (if_neg fun h => absurd h.1 (Nat.not_lt.2 few))

theorem execDroopRate_due (many : 16 < (s.rail r.val).inWindow) (window : (s.rail r.val).window = max s.now t / 10 ^ 9)
    (due : ∀ x, (s.rail r.val).lastLogged = some x → x + 60 * 10 ^ 9 ≤ max s.now t) : execDroopRate t r s =
      .next (((s.atTime t).modRail r.val fun x => { x with lastLogged := some (max s.now t) }).report (0x0C0 + r.val) .corrected 1
        (min 65535 (s.rail r.val).inWindow)) := by
  refine congrArg _ (if_pos ⟨many, window, ?_⟩)
  simp only [State.atTime_rail_of, State.atTime_now]
  cases logged : (s.rail r.val).lastLogged with
  | none => rfl
  | some x => exact decide_eq_true (due x logged)

end

/-- Settles O48. That a sample ends the dip of a rail that has risen is the model's choice (notes/assumptions, row 110). -/
theorem supplyRails : Obligations.SupplyRails := by
  intro t r mv s sec
  refine ⟨fun unwatched => ⟨execRailBelowWarning_unseen (.inl unwatched), execRailBelowReset_unseen (.inl unwatched)⟩,
    fun high => execRailBelowWarning_unseen (.inr high), fun high => execRailBelowReset_unseen (.inr high),
    execRailBelowWarning_droops, execRailBelowReset_resets, fun volts amps risen inside wf => ?_,
    fun held clear => execDroopHoldRelease_clear held (State.railsClear_iff.2 clear), fun k hk watched below => ?_,
    fun free => execDroopHoldRelease_kept (.inl free), execDroopRate_due, execDroopRate_few⟩
  · obtain ⟨now, rail⟩ := State.sampleRails_rail wf volts amps risen (lt_min r.isLt inside)
    obtain ⟨shown, current, high, low⟩ :=
      ((s.railsRisen risen).rail r.val).sampled_spec r.val now (volts.getD r.val 0) (amps.getD r.val 0)
    rw [← rail] at shown current high low
    refine ⟨shown, current, high, fun dips untold => (low dips).trans ?_⟩
    rw [(State.railsRisen_spec risen wf).2 fun e he same => untold e he (Fin.ext same)]
  · refine execDroopHoldRelease_kept (.inr (Bool.eq_false_iff.2 fun clear => ?_))
    exact absurd below (Bool.eq_false_iff.1 (State.railsClear_iff.1 clear k hk watched).1)

end Sys2Proof.Machine
end

section
/-! PROOFS. Power states, the cap, samples, set points and silent dies (R263, R284, R410-R418, R429). -/

namespace Sys2Proof.Machine

/-! ### Requests for a power state (R263, R414, R415, R429) -/

section

variable {s : State} {target : Nat}

theorem State.requestPower_busy (busy : s.pwr.goal ≠ none) : s.requestPower target = (s, .done stBusy 0 0) := by
  have moving : (s.pwr.goal.isSome || s.start.safe) = true := by
    rw [Option.isSome_iff_ne_none.2 busy, Bool.true_or]
  exact if_pos moving

section

variable (still : s.pwr.goal = none) (safe : s.start.safe = false)
include still safe

/-- With no transition in progress and no safe state, an orderly stop is what is asked about first. -/
theorem State.requestPower_still (awake : s.pwr.stop = false ∨ 2 ≤ target) : s.requestPower target =
    let u := if target ≤ 1 then s.modPwr fun x => { x with sticky := decide (target = 1) } else s
    let up (s : State) : State := (if s.pwr.st = 3 then s.leaveP3 else s).resume
    if target = s.pwr.st then (u, .done stOK 0 0)
    else if target = 0 then (if s.pwr.st = 1 then u.wake else up u, .done stOK 0 0)
    else if target = 1 then
      let v := if 2 ≤ s.pwr.st then up u else u
      if v.quiet then (v.enterP1, .done stOK 0 0) else (v.modPwr fun x => { x with goal := some 1 }, .waits)
    else if u.eng.run.isSome then (u.modPwr fun x => { x with goal := some target }, .waits)
    else ((u.descend target).1, .done stOK (u.descend target).2.1 (u.descend target).2.2) := by
  have notBusy : (s.pwr.goal.isSome || s.start.safe) = false := by rw [still, safe]; rfl
  have notHot : (s.pwr.stop && decide (target ≤ 1) && !s.cooled) = false := by
    obtain h | h := awake
    · rw [h, Bool.false_and, Bool.false_and]
    · rw [decide_eq_false (by omega), Bool.and_false, Bool.false_and]
  have notLeaving : (s.pwr.stop && decide (target = 0)) = false := by
    obtain h | h := awake
    · rw [h, Bool.false_and]
    · rw [decide_eq_false (by omega), Bool.and_false]
  simp only [State.requestPower, notBusy, notHot, notLeaving, Bool.false_eq_true, if_false]

theorem State.requestPower_inForce (low : 2 ≤ target) (same : target = s.pwr.st) :
    s.requestPower target = (s, .done stOK 0 0) := by
  rw [State.requestPower_still still safe (.inr low)]
  simp only [if_pos same, if_neg (show ¬ target ≤ 1 by omega)]

theorem State.requestPower_runs (low : 2 ≤ target) (other : target ≠ s.pwr.st) (runs : s.eng.run ≠ none) :
    s.requestPower target = (s.modPwr fun x => { x with goal := some target }, .waits) := by
  rw [State.requestPower_still still safe (.inr low)]
  simp only [if_neg other, if_neg (show ¬ target ≤ 1 by omega), if_neg (show target ≠ 0 by omega),
    if_neg (show target ≠ 1 by omega), if_pos (Option.isSome_iff_ne_none.2 runs)]

theorem State.requestPower_descends (low : 2 ≤ target) (other : target ≠ s.pwr.st) (idle : s.eng.run = none) :
    s.requestPower target = ((s.descend target).1, .done stOK (s.descend target).2.1 (s.descend target).2.2) := by
  rw [State.requestPower_still still safe (.inr low)]
  simp only [if_neg other, if_neg (show ¬ target ≤ 1 by omega), if_neg (show target ≠ 0 by omega),
    if_neg (show target ≠ 1 by omega), idle, Option.isSome_none, Bool.false_eq_true, if_false]

theorem State.requestPower_hot (stopped : s.pwr.stop = true) (up : target ≤ 1) (hot : s.cooled = false) :
    s.requestPower target = (s, .done stBusy 0 0) := by
  have notBusy : (s.pwr.goal.isSome || s.start.safe) = false := by rw [still, safe]; rfl
  simp only [State.requestPower, notBusy, stopped, hot, decide_eq_true up, Bool.not_false, Bool.and_self, Bool.false_eq_true,
    if_false, if_true]

theorem State.requestPower_cool (stopped : s.pwr.stop = true) (zero : target = 0) (cool : s.cooled = true)
    (suspended : s.pwr.st = 2) :
    s.requestPower target = (s.resume.modPwr fun x => { x with stop := false, sticky := false }, .done stOK 0 0) := by
  have notBusy : (s.pwr.goal.isSome || s.start.safe) = false := by rw [still, safe]; rfl
  simp only [State.requestPower, notBusy, stopped, zero, cool, suspended, decide_true, Bool.not_true, Bool.and_false, Bool.and_self,
    Bool.false_eq_true, Nat.reduceEqDiff, if_false, if_true]

end

end

section

variable {s u v : State} {t id : Nat} {a : Acc}

theorem State.setPower_done {status n c : Nat} (done : s.requestPower (a.par 16 1) = (v, .done status n c)) :
    s.setPower a = v.reply a status s.pwr.st n c := by
  simp only [State.setPower, done]

theorem State.setPower_waits (waits : s.requestPower (a.par 16 1) = (v, .waits)) :
    s.setPower a = v.wait a (.power (a.par 16 1) s.pwr.st 0 0) := by
  simp only [State.setPower, waits]

theorem execSetPowerState_sets (ready : s.Ready t id 0x0110 a u) (alive : u.sec.st ≠ .terminated) :
    execSetPowerState t id s = .next (u.setPower a) :=
  (State.act_of_ready ready _).trans (congrArg _ (if_neg alive))

/-! ### The cap, the entry into P1, the end of a run (R141, R284, R414) -/

theorem execPwrCapSet_met (ready : s.Ready t id 0x0701 a u) (met : u.pwr.measured ≤ a.par 16 2) : execPwrCapSet t id s =
    .next ((u.modPwr fun x => { x with cap := a.par 16 2 }).reply a stOK u.pwr.cap u.pwr.measured 0) := by
  have enforced : (u.setCap (a.par 16 2)).2 = true := by
    change (decide (u.pwr.measured ≤ a.par 16 2) || decide (2 ≤ u.pwr.st) || u.start.safe) = true
    rw [decide_eq_true met, Bool.true_or, Bool.true_or]
  exact (State.act_of_ready ready _).trans (congrArg _ (if_pos enforced))

theorem execPwrCapSet_waits (ready : s.Ready t id 0x0701 a u) (above : a.par 16 2 < u.pwr.measured) (on : u.pwr.st ≤ 1)
    (safe : u.start.safe = false) : execPwrCapSet t id s =
      .next ((u.modPwr fun x => { x with cap := a.par 16 2 }).wait a (.cap u.pwr.cap)) := by
  have later : (u.setCap (a.par 16 2)).2 = false := by
    change (decide (u.pwr.measured ≤ a.par 16 2) || decide (2 ≤ u.pwr.st) || u.start.safe) = false
    rw [decide_eq_false (Nat.not_le.2 above), decide_eq_false (by omega), safe]
    rfl
  exact (State.act_of_ready ready _).trans (congrArg _ (if_neg (Bool.eq_false_iff.1 later)))

theorem execIdleEntry_enters (running : s.start.phase = .running) (safe : s.start.safe = false) (on : s.pwr.st = 0)
    (quiet : s.quiet = true) (sticky : s.pwr.sticky = true) (still : s.pwr.goal = none) :
    execIdleEntry t s = .next (s.atTime t).enterP1 := by
  have quietAt : (s.atTime t).quiet = true := quiet
  have stillAfter : (s.atTime t).enterP1.pwr.goal = none := still
  simp only [execIdleEntry, State.atTime_start, State.atTime_pwr, running, safe, on, quietAt, sticky, still, stillAfter,
    decide_true, Bool.not_false, Bool.true_or, Bool.and_self, Option.any_none, reduceCtorEq, if_true, if_false]

theorem execIdleEntry_restless (restless : s.quiet = false) : execIdleEntry t s = .next (s.atTime t) := by
  have restlessAt : (s.atTime t).quiet = false := restless
  simp only [execIdleEntry, restlessAt, Bool.and_false, Bool.false_and, Bool.false_eq_true, if_false]

theorem execP2Suspend_descends {g : Nat} (goal : s.pwr.goal = some g) (low : 2 ≤ g) (idle : s.eng.run = none)
    (safe : s.start.safe = false) : execP2Suspend t s = .next (((s.atTime t).descend g).1.replyPower stOK
      ((s.atTime t).descend g).2.1 ((s.atTime t).descend g).2.2) := by
  simp only [execP2Suspend, State.atTime_pwr, State.atTime_eng, State.atTime_start, goal, low, idle, safe, Option.isNone_none,
    and_self, if_true]

theorem execP2Suspend_waits (waits : s.pwr.goal = none ∨ s.eng.run ≠ none ∨ s.start.safe = true) :
    execP2Suspend t s = .next (s.atTime t) := by
  unfold execP2Suspend
  simp only [State.atTime_pwr, State.atTime_eng, State.atTime_start]
  cases goal : s.pwr.goal with
  | none => rfl
  | some g =>
    refine congrArg _ (if_neg fun h => ?_)
    obtain ⟨-, idle, safe⟩ := h
    obtain none_set | runs | isSafe := waits
    · exact absurd (goal.symm.trans none_set) nofun
    · exact runs (Option.isNone_iff_eq_none.1 idle)
    · exact Bool.false_ne_true (safe.symm.trans isSafe)

end

/-! ### Samples of the rails and of the package (R412, R416, R417) -/

section

/-- A change of the rails alone. -/
structure State.RailsOnly (s u : State) : Prop where
  frame : s.KeepsBut [.pwr] u
  cap : u.pwr.cap = s.pwr.cap
  st : u.pwr.st = s.pwr.st

theorem State.RailsOnly.trans {s u v : State} (a : s.RailsOnly u) (b : u.RailsOnly v) : s.RailsOnly v :=
  ⟨State.keepsBut_trans a.frame b.frame (List.Subset.refl _) (List.Subset.refl _), b.cap.trans a.cap, b.st.trans a.st⟩

theorem State.modRail_railsOnly (s : State) (r : Nat) (f : Rail → Rail) : s.RailsOnly (s.modRail r f) where
  frame g other := by
    cases g with
    | pwr => exact absurd (List.mem_singleton_self _) other
    | _ => rfl
  cap := rfl
  st := rfl

theorem State.foldl_modRail_railsOnly {β : Type} (rail : β → Nat) (g : State → β → Rail → Rail) (l : List β) :
    ∀ s : State, s.RailsOnly (l.foldl (fun s b => s.modRail (rail b) (g s b)) s) := by
  induction l with
  | nil => exact fun s => ⟨s.keepsBut_refl _, rfl, rfl⟩
  | cons b l ih => exact fun s => (s.modRail_railsOnly _ _).trans (ih _)

theorem State.sampleRails_railsOnly (s : State) (volts amps : List Nat) (risen : List (Fin 14 × Nat)) :
    s.RailsOnly (s.sampleRails volts amps risen) :=
  (State.foldl_modRail_railsOnly (fun e : Fin 14 × Nat => e.1.val) (fun s e x => x.risen (min s.now e.2)) risen s).trans
    (State.foldl_modRail_railsOnly id (fun s r x => x.sampled r s.now (volts.getD r 0) (amps.getD r 0)) _ _)

end

section

variable {s : State} {t losses : Nat} {volts amps : List Nat} {risen : List (Fin 14 × Nat)}

/-- The block once a sample of the package's power is taken, the cap controller not yet heard. -/
def State.sampled (s : State) (t losses : Nat) (volts amps : List Nat) (risen : List (Fin 14 × Nat)) : State :=
  let u := (s.atTime t).sampleRails volts amps risen
  let v := u.modPwr fun x => { x with
    samples := (max s.now t, packagePower losses volts amps) :: x.samples.filter fun e => decide (max s.now t < e.1 + 10 ^ 6),
    energy := x.energy + packagePower losses volts amps * 10000, lastSample := max s.now t }
  v.modPwr fun x => { x with measured := min 4095 (x.average / 1000) }

/-- 10 per cent over the cap each array loses 40 mV. -/
def State.dropVolts (s : State) : State :=
  s.modPwr fun x => { x with volts := ⟨max 550 (x.volts.west - 40), max 550 (x.volts.east - 40)⟩ }

/-- What a sample leaves of the cap and of POWER. -/
theorem State.sampled_pwr : (s.sampled t losses volts amps risen).pwr.cap = s.pwr.cap ∧
    (s.sampled t losses volts amps risen).pwr.st = s.pwr.st :=
  ⟨((s.atTime t).sampleRails_railsOnly volts amps risen).cap, ((s.atTime t).sampleRails_railsOnly volts amps risen).st⟩

/-- The set points as the power measured leaves them. -/
def State.voltsHeld (s w : State) (mw : Nat) : State := if s.pwr.cap * 1100 < mw ∧ s.pwr.st = 0 then w.dropVolts else w

theorem State.voltsHeld_st (w : State) (mw : Nat) : (s.voltsHeld w mw).pwr.st = w.pwr.st := by
  unfold State.voltsHeld
  split <;> rfl

/-- A sample's end: the cap controller's lever, and the commands that wait for the cap. -/
theorem execPowerSample_eq : execPowerSample t losses volts amps risen s =
    let low := s.voltsHeld (s.sampled t losses volts amps risen) (packagePower losses volts amps)
    let past := decide (s.pwr.cap * 1000 < (s.sampled t losses volts amps risen).pwr.average)
    let x := if past then (if s.pwr.st ≤ 1 then low.tighten else low) else low.loosen
    .next (if !past || x.pwr.capLimited then x.replyCap else x) := by
  have now : ((s.atTime t).sampleRails volts amps risen).now = max s.now t :=
    ((s.atTime t).sampleRails_railsOnly volts amps risen).frame .now (by decide)
  obtain ⟨cap, st⟩ := State.sampled_pwr (s := s) (t := t) (losses := losses) (volts := volts) (amps := amps) (risen := risen)
  have raw : execPowerSample t losses volts amps risen s =
      let w := s.sampled t losses volts amps risen
      let low := w.voltsHeld w (packagePower losses volts amps)
      let past := decide (w.pwr.cap * 1000 < w.pwr.average)
      let x := if past then (if low.pwr.st ≤ 1 then low.tighten else low) else low.loosen
      .next (if !past || x.pwr.capLimited then x.replyCap else x) := by
    simp only [execPowerSample, now]
    rfl
  have held (w : State) (mw : Nat) : (s.sampled t losses volts amps risen).voltsHeld w mw = s.voltsHeld w mw := by
    simp only [State.voltsHeld, cap, st]
  rw [raw]
  simp only [held, State.voltsHeld_st, cap, st]

theorem execPowerSample_within (avg : (s.sampled t losses volts amps risen).pwr.average ≤ s.pwr.cap * 1000)
    (power : packagePower losses volts amps ≤ s.pwr.cap * 1100) :
    execPowerSample t losses volts amps risen s = .next (s.sampled t losses volts amps risen).loosen.replyCap := by
  simp only [execPowerSample_eq, State.voltsHeld, Nat.not_lt.2 avg, Nat.not_lt.2 power, false_and, decide_false, Bool.not_false,
    Bool.true_or,
    Bool.false_eq_true, if_false, if_true]

/-- A sample over the cap: the next lever, and, once every one is at its limit, the replies. -/
def State.overCap (s w : State) : State :=
  let x := if s.pwr.st ≤ 1 then w.tighten else w
  if x.pwr.capLimited = true then x.replyCap else x

theorem execPowerSample_past (avg : s.pwr.cap * 1000 < (s.sampled t losses volts amps risen).pwr.average) :
    execPowerSample t losses volts amps risen s =
      .next (s.overCap (s.voltsHeld (s.sampled t losses volts amps risen) (packagePower losses volts amps))) := by
  simp only [execPowerSample_eq, avg, decide_true, Bool.not_true, Bool.false_or, if_true, State.overCap]

theorem State.voltsHeld_within {w : State} {mw : Nat} (power : mw ≤ s.pwr.cap * 1100) : s.voltsHeld w mw = w :=
  if_neg fun h => absurd h.1 (Nat.not_lt.2 power)

theorem State.voltsHeld_above {w : State} {mw : Nat} (power : s.pwr.cap * 1100 < mw) (on : s.pwr.st = 0) :
    s.voltsHeld w mw = w.dropVolts := if_pos ⟨power, on⟩

end

/-! ### Set points and rates (R418) -/

section

variable {s : State} {t m : Nat} {h : Half} {q : Int}

/-- The block once an array's rate target is shown. -/
def State.aimed (s : State) (t : Nat) (h : Half) (q : Int) : State := (s.atTime t).modArr h fun a => { a with
  target := if s.pwr.st = 0 ∧ s.halfUp h = true then s.targetOf h ((s.arr.get h).rateAt h 800 q) else 0 }

theorem execVoltageAdjust_safe (safe : s.start.safe = true) : execVoltageAdjust t h m q s = .next (s.aimed t h q) :=
  congrArg _ (if_pos safe)

theorem execVoltageAdjust_silent (safe : s.start.safe = false) (silent : (s.aimed t h q).silent h = true) :
    execVoltageAdjust t h m q s = .next ((s.aimed t h q).modPwr fun x => { x with volts := x.volts.set h 550 }) :=
  congrArg _ ((if_neg (Bool.eq_false_iff.1 safe)).trans (if_pos silent))

theorem execVoltageAdjust_idle (safe : s.start.safe = false) (heard : (s.aimed t h q).silent h = false)
    (idle : s.eng.run = none) : execVoltageAdjust t h m q s = .next (s.aimed t h q) := by
  have quiescent : (!(s.aimed t h q).busy || decide ((s.aimed t h q).pwr.st ≠ 0)) = true := by
    have free : (s.aimed t h q).busy = false := by
      change (match s.eng.run with
        | none => false
        | some r => r.cur.isSome) = false
      rw [idle]
    rw [free]
    rfl
  exact congrArg _ ((if_neg (Bool.eq_false_iff.1 safe)).trans ((if_neg (Bool.eq_false_iff.1 heard)).trans (if_pos quiescent)))

/-- The floor of a set point: 550 mV under a cap or a throttle, else 620 mV. -/
def State.voltFloor (s : State) (h : Half) : Nat :=
  if s.pwr.capRate < s.pwr.rateTarget ∨ (s.die (halfNo h)).limit.isSome = true ∨ (s.die (halfNo h)).rise = true then 550 else 620

/-- A set point before the range and a rise's cap. -/
def steppedVolts (old floor measured pace step : Nat) : Nat :=
  if measured < pace then min 800 (old + step) else if old < floor then min floor (old + step)
  else if pace < measured ∨ pace = 0 then max floor (old - step) else old

theorem State.nextVolts_free (pace step : Nat) (free : s.pwr.riseCap.get h = none) : s.nextVolts h m pace step =
    min 800 (max 550 (steppedVolts (s.pwr.volts.get h) (s.voltFloor h) m pace step)) := by
  simp only [State.nextVolts, free]
  rfl

theorem State.nextVolts_capped (pace step : Nat) {c : Nat} (capped : s.pwr.riseCap.get h = some c) : s.nextVolts h m pace step =
    min 800 (max 550 (min (steppedVolts (s.pwr.volts.get h) (s.voltFloor h) m pace step) c)) := by
  simp only [State.nextVolts, capped]
  rfl

theorem steppedVolts_step {old floor measured pace step : Nat} (_top : floor ≤ 800) :
    steppedVolts old floor measured pace step ≤ old + step ∧
      (old ≤ 800 → old ≤ steppedVolts old floor measured pace step + step) := by
  unfold steppedVolts
  split
  · omega
  split
  · omega
  split
  · omega
  · omega

theorem State.voltFloor_le : s.voltFloor h ≤ 800 := by
  unfold State.voltFloor
  split <;> omega

theorem State.nextVolts_bounds (pace step : Nat) :
    550 ≤ s.nextVolts h m pace step ∧ s.nextVolts h m pace step ≤ 800 ∧
      (550 ≤ s.pwr.volts.get h → s.nextVolts h m pace step ≤ s.pwr.volts.get h + step) ∧
      (s.pwr.riseCap.get h = none → s.pwr.volts.get h ≤ 800 → s.pwr.volts.get h ≤ s.nextVolts h m pace step + step) ∧
      (∀ c, s.pwr.riseCap.get h = some c → 550 ≤ c → s.nextVolts h m pace step ≤ c) := by
  obtain ⟨above, below⟩ := steppedVolts_step (old := s.pwr.volts.get h) (measured := m) (pace := pace) (step := step)
    (s.voltFloor_le (h := h))
  cases cap : s.pwr.riseCap.get h with
  | none =>
    rw [State.nextVolts_free pace step cap]
    exact ⟨by omega, by omega, by omega, fun _ range => by have := below range; omega, nofun⟩
  | some c =>
    rw [State.nextVolts_capped pace step cap]
    exact ⟨by omega, by omega, by omega, nofun, fun d same => by obtain rfl := Option.some.inj same; omega⟩

theorem State.targetOf_le (q : Nat) :
    s.targetOf h q ≤ s.pwr.rateTarget ∧ s.targetOf h q ≤ q ∧ s.targetOf h q ≤ s.pwr.capRate := by
  unfold State.targetOf
  dsimp only
  cases (s.die (halfNo h)).limit with
  | none => dsimp only; split <;> omega
  | some x => dsimp only; split <;> omega

end

/-! ### Dies that send no telemetry (R412) -/

section

variable {s : State} {t : Nat} {d : Fin 11}

theorem execTelemetryTimeout_back :
    execTelemetryTimeout t d true s = .next ((s.atTime t).modDie d.val fun x => { x with lost := false }) := rfl

theorem execTelemetryTimeout_off (off : s.reports d.val = false) : execTelemetryTimeout t d false s = .next (s.atTime t) := by
  have offAt : (s.atTime t).reports d.val = false := off
  simp only [execTelemetryTimeout, offAt, Bool.not_false, Bool.or_true, Bool.false_eq_true, if_false, if_true]

theorem execTelemetryTimeout_lost (heard : (s.die d.val).lost = false) (reports : s.reports d.val = true) :
    execTelemetryTimeout t d false s =
      .next ((match halfOfDie d.val with
        | some h => ((s.atTime t).modDie d.val fun x => { x with lost := true }).modPwr fun x => { x with
          volts := x.volts.set h 550 }
        | none => (s.atTime t).modDie d.val fun x => { x with lost := true }).report 0x004 .contained 1 (srcDieUnit d.val)) := by
  have reportsAt : (s.atTime t).reports d.val = true := reports
  simp only [execTelemetryTimeout, State.atTime_die_of, heard, reportsAt, Bool.not_true, Bool.or_self, Bool.false_eq_true,
    if_false] <;> rfl

end

/-- Settles O47. That a transition completes at once where nothing has to end first, and the order of the cap's levers, are the
model's choices (notes/assumptions, rows 10 and 86). -/
theorem powerStates : Obligations.PowerStates := by
  intro t id s
  refine ⟨fun u a ready alive => ?_, fun u a ready => ⟨execPwrCapSet_met ready, execPwrCapSet_waits ready⟩,
    execIdleEntry_enters, execIdleEntry_restless, fun g => execP2Suspend_descends, execP2Suspend_waits,
    fun losses volts amps risen => ?_, fun h m q => ⟨execVoltageAdjust_safe, execVoltageAdjust_silent, execVoltageAdjust_idle⟩,
    fun h m pace step => State.nextVolts_bounds pace step, fun h q => State.targetOf_le q, fun d => execTelemetryTimeout_back,
    execTelemetryTimeout_lost (d := 2), fun h heard reports => ?_, fun d => execTelemetryTimeout_off⟩
  · have sets := execSetPowerState_sets ready alive
    refine ⟨fun same low still safe => ?_, fun busy => ?_, fun still safe stopped up hot => ?_,
      fun still safe stopped zero cool suspended => ?_, fun low other still safe awake runs => ?_,
      fun low other still safe awake idle => ?_⟩
    · exact sets.trans (congrArg _ (State.setPower_done (State.requestPower_inForce still safe (same ▸ low) same)))
    · exact sets.trans (congrArg _ (State.setPower_done (State.requestPower_busy busy)))
    · exact sets.trans (congrArg _ (State.setPower_done (State.requestPower_hot still safe stopped up hot)))
    · exact sets.trans (congrArg _ ((State.setPower_done (State.requestPower_cool still safe stopped zero cool
        suspended)).trans (by rw [suspended])))
    · exact sets.trans (congrArg _ (State.setPower_waits (State.requestPower_runs still safe low other runs)))
    · exact sets.trans (congrArg _ (State.setPower_done (State.requestPower_descends still safe low other idle)))
  · refine ⟨execPowerSample_within, fun avg power => ?_, fun avg power on => ?_⟩
    · have same := State.voltsHeld_within (s := s) (w := s.sampled t losses volts amps risen) power
      exact (execPowerSample_past avg).trans (congrArg (fun w => Host.Outcome.next (s.overCap w)) same)
    · have low := State.voltsHeld_above (w := s.sampled t losses volts amps risen) power on
      exact (execPowerSample_past avg).trans (congrArg (fun w => Host.Outcome.next (s.overCap w)) low)
  · cases h with
    | west => exact execTelemetryTimeout_lost heard reports
    | east => exact execTelemetryTimeout_lost heard reports

end Sys2Proof.Machine
end

section
/-! PROOFS. What a link sends and what it makes of the flits that reach it (chapter 14: R321-R332, R336). -/

namespace Sys2Proof.Machine

/-! ### Sending (R324, R325, R332) -/

section

variable {x : Link} {s : State} {t i : Nat} {link : LinkId} {f : Flit}

theorem State.linkEvent_now : (s.linkEvent t link).now = max s.now t := rfl

theorem Link.waitsReset_of_replay {k : Nat} (replays : x.replayAt = some i) : x.waitsReset s k = false := by
  simp only [Link.waitsReset, replays, Option.isNone_some, Bool.false_and]

theorem execFlitTransmit_sends (carries : (s.linkEvent t link).carries (linkKey link) = true)
    (free : ((s.linkEvent t link).link (linkKey link)).waitsReset (s.linkEvent t link) (linkKey link) = false) :
    execFlitTransmit t link s =
      let v := (s.linkEvent t link).modLink (linkKey link) Link.transmit
      .next (if linkKey link < 16 ∧ (v.link (linkKey link)).wire ≠ [] then
        v.modBundle (linkKey link) fun b => { b with idleSince := max s.now t } else v) := by
  simp only [execFlitTransmit, carries, free, Bool.not_false, Bool.and_self, if_true]
  rfl

theorem execFlitTransmit_holds (holds : (s.linkEvent t link).carries (linkKey link) = false ∨
    ((s.linkEvent t link).link (linkKey link)).waitsReset (s.linkEvent t link) (linkKey link) = true) :
    execFlitTransmit t link s = .next (s.linkEvent t link) := by
  obtain idle | waits := holds
  · simp only [execFlitTransmit, idle, Bool.false_and, Bool.false_eq_true, if_false]
  · simp only [execFlitTransmit, waits, Bool.not_true, Bool.and_false, Bool.false_eq_true, if_false]

theorem Link.transmit_replays (replays : x.replayAt = some i) (held : x.unacked[i]? = some f) : x.transmit =
    (({ x with replayAt := if i + 1 < x.unacked.length then some (i + 1) else none } : Link).emit
      (.flit f true x.gen)).count 4 1 := by
  simp only [Link.transmit, replays, held]

theorem Link.transmit_full (fresh : x.replayAt = none) (full : 1536 ≤ x.unacked.length) : x.transmit = x := by
  simp only [Link.transmit, fresh, if_pos full]

theorem Link.nextVc_of_no_credit (broke : ∀ vc, tget 0 x.credits vc = 0) : x.nextVc = none := by
  simp only [Link.nextVc, broke, Nat.lt_irrefl, decide_false, Bool.and_false, Bool.false_eq_true, if_false]

theorem Link.transmit_of_no_credit (fresh : x.replayAt = none) (broke : ∀ vc, tget 0 x.credits vc = 0) : x.transmit = x := by
  simp only [Link.transmit, fresh, Link.nextVc_of_no_credit broke, ite_self]

/-- Management comes before every other channel (R325). -/
theorem Link.nextVc_management {e : QEnt} {rest : List QEnt} (queue : x.queue = e :: rest) (vc : e.vc = 3)
    (credit : 0 < tget 0 x.credits 3) : x.nextVc = some 3 := by
  simp only [Link.nextVc, queue, List.any_cons, vc, beq_self_eq_true, Bool.true_or, credit, decide_true, Bool.and_self, if_true]

theorem sendFirst_front {vc : Nat} {e : QEnt} {fs : List Flit} {rest : List QEnt} (same : e.vc = vc)
    (flits : e.flits = f :: fs) : sendFirst vc (e :: rest) =
      some (f, if fs.isEmpty then rest else { e with flits := fs, started := true } :: rest) := by
  simp only [sendFirst, if_pos same, flits]

theorem Link.transmit_management {e : QEnt} {fs : List Flit} {rest : List QEnt} (fresh : x.replayAt = none)
    (room : x.unacked.length < 1536) (queue : x.queue = e :: rest) (flits : e.flits = f :: fs) (vc : e.vc = 3)
    (credit : 0 < tget 0 x.credits 3) : x.transmit = (({ x with
      queue := (if fs.isEmpty then rest else { e with flits := fs, started := true } :: rest),
      unacked := x.unacked ++ [{ f with seq := x.nextTx }], nextTx := (x.nextTx + 1) % 4096,
      credits := tmod 0 x.credits 3 (· - 1) } : Link).emit (.flit { f with seq := x.nextTx } false x.gen)).count 3 1 := by
  have sent : sendFirst 3 x.queue = some (f, if fs.isEmpty then rest else { e with flits := fs, started := true } :: rest) := by
    rw [queue, sendFirst_front vc flits]
  simp only [Link.transmit, fresh, if_neg (Nat.not_le.2 room), Link.nextVc_management queue vc credit, sent]
  rfl

end

/-- Settles O35. That an orderly reset holds the new traffic towards its half is the model's reading of R336 (notes/assumptions,
row 93). -/
theorem flitsAreSent : Obligations.FlitsAreSent := by
  unfold Obligations.FlitsAreSent
  intro t link s k u x v
  exact ⟨execFlitTransmit_sends, execFlitTransmit_holds, fun _ => Link.waitsReset_of_replay, fun _ _ => Link.transmit_replays,
    fun _ _ _ _ => Link.transmit_management, Link.transmit_of_no_credit, Link.transmit_full⟩

/-! ### Receiving (R323, R328, R329) -/

section

variable {s : State} {t : Nat} {link : LinkId} {b : List Byte}

theorem execFlitReceive_notUp (notUp : ((s.linkEvent t link).link (linkKey link)).st ≠ 1) :
    execFlitReceive t link b s = .next (s.linkEvent t link) :=
  congrArg _ (if_neg notUp)

theorem execFlitReceive_up (up : ((s.linkEvent t link).link (linkKey link)).st = 1) :
    execFlitReceive t link b s = .next ((s.linkEvent t link).receiveFlit (linkKey link) b) :=
  congrArg _ (if_pos up)

end

section

variable {u : State} {k : Nat} {b : List Byte}

theorem State.receiveFlit_corrupt (bad : ¬ (crc32c (slice b 0 252)).toNat = le b 252 4) :
    u.receiveFlit k b = u.modLink k fun x => (x.count 5 1).nak k u.now :=
  if_pos bad

variable (good : (crc32c (slice b 0 252)).toNat = le b 252 4)
include good

theorem State.receiveFlit_badField (bad : flitFieldsOk b = false) : u.receiveFlit k b = u.violation k 3 := by
  simp only [State.receiveFlit, good, bad, ne_eq, not_true, Bool.not_false, if_true, if_false]

variable (fields : flitFieldsOk b = true)
include fields

theorem State.receiveFlit_otherGen (other : le b 6 2 ≠ (u.link k).gen) :
    u.receiveFlit k b = u.modLink k fun x => x.count 9 1 := by
  simp only [State.receiveFlit, good, fields, other, ne_eq, not_true, not_false_eq_true, Bool.not_true, Bool.false_eq_true, if_true,
    if_false]

variable (gen : le b 6 2 = (u.link k).gen)
include gen

/-- A sound flit of the link's own LINK_GEN is judged by its distance from NEXT_RX alone. -/
theorem State.receiveFlit_sound : u.receiveFlit k b =
    let d := (le b 1 2 + 4096 - (u.link k).nextRx) % 4096
    let vc := bitsOf (le b 0 1) 5 4
    if d = 0 then
      if buffersOf k vc ≤ (u.link k).inUse vc then u.violation k 0 else (u.modLink k fun x => x.deliver k b).takeCrossing k
    else if 2048 ≤ d then u.modLink k fun x => (x.count 6 1).ack k
    else u.modLink k fun x => x.nak k u.now := by
  simp only [State.receiveFlit, good, fields, gen, ne_eq, not_true, Bool.not_true, Bool.false_eq_true, if_false]

theorem State.receiveFlit_next (next : (le b 1 2 + 4096 - (u.link k).nextRx) % 4096 = 0)
    (room : (u.link k).inUse (bitsOf (le b 0 1) 5 4) < buffersOf k (bitsOf (le b 0 1) 5 4)) :
    u.receiveFlit k b = (u.modLink k fun x => x.deliver k b).takeCrossing k :=
  (State.receiveFlit_sound good fields gen).trans ((if_pos next).trans (if_neg (Nat.not_le.2 room)))

theorem State.receiveFlit_noRoom (next : (le b 1 2 + 4096 - (u.link k).nextRx) % 4096 = 0)
    (full : buffersOf k (bitsOf (le b 0 1) 5 4) ≤ (u.link k).inUse (bitsOf (le b 0 1) 5 4)) :
    u.receiveFlit k b = u.violation k 0 :=
  (State.receiveFlit_sound good fields gen).trans ((if_pos next).trans (if_pos full))

theorem State.receiveFlit_duplicate (old : 2048 ≤ (le b 1 2 + 4096 - (u.link k).nextRx) % 4096) :
    u.receiveFlit k b = u.modLink k fun x => (x.count 6 1).ack k :=
  (State.receiveFlit_sound good fields gen).trans ((if_neg (by omega)).trans (if_pos old))

theorem State.receiveFlit_beyond (ahead : 0 < (le b 1 2 + 4096 - (u.link k).nextRx) % 4096)
    (near : (le b 1 2 + 4096 - (u.link k).nextRx) % 4096 < 2048) :
    u.receiveFlit k b = u.modLink k fun x => x.nak k u.now :=
  (State.receiveFlit_sound good fields gen).trans ((if_neg (Nat.ne_of_gt ahead)).trans (if_neg (Nat.not_le.2 near)))

end

/-! ### What a delivered flit changes -/

section

variable {x : Link} {k : Nat} {b : List Byte}

@[simp] theorem Link.ack_nextRx : (x.ack k).nextRx = x.nextRx := rfl
@[simp] theorem Link.ack_unacked : (x.ack k).unacked = x.unacked := rfl
@[simp] theorem Link.ack_queue : (x.ack k).queue = x.queue := rfl
@[simp] theorem Link.ack_taken : (x.ack k).taken = x.taken := rfl
@[simp] theorem Link.ack_rxDone : (x.ack k).rxDone = x.rxDone := rfl

/-- A field that an ACK leaves alone is, after a delivery, what it is before the ACK that may follow. -/
theorem Link.deliver_field {α : Type} (field : Link → α) (kept : ∀ (y : Link) (k : Nat), field (y.ack k) = field y) (y : Link) :
    field (if y.coalesce ≤ y.toAck then y.ack k else y) = field y := by
  split
  · exact kept y k
  · rfl

theorem Link.deliver_nextRx : (x.deliver k b).nextRx = (x.nextRx + 1) % 4096 :=
  Link.deliver_field Link.nextRx (fun _ _ => Link.ack_nextRx) _

theorem Link.deliver_unacked : (x.deliver k b).unacked = x.unacked :=
  Link.deliver_field Link.unacked (fun _ _ => Link.ack_unacked) _

theorem Link.deliver_queue : (x.deliver k b).queue = x.queue :=
  Link.deliver_field Link.queue (fun _ _ => Link.ack_queue) _

theorem Link.deliver_taken : (x.deliver k b).taken = tmod 0 x.taken (bitsOf (le b 0 1) 5 4) (· + 1) :=
  Link.deliver_field Link.taken (fun _ _ => Link.ack_taken) _

theorem Link.deliver_whole (first : bitOf (le b 4 1) 0 = true) (last : bitOf (le b 4 1) 1 = true) :
    (x.deliver k b).rxDone = x.rxDone ++ [(bitsOf (le b 0 1) 5 4, slice b 12 (le b 3 1))] := by
  refine (Link.deliver_field Link.rxDone (fun _ _ => Link.ack_rxDone) _).trans ?_
  simp only [first, last, if_true]

theorem Link.deliver_part (more : bitOf (le b 4 1) 1 = false) : (x.deliver k b).rxDone = x.rxDone := by
  refine (Link.deliver_field Link.rxDone (fun _ _ => Link.ack_rxDone) _).trans ?_
  simp only [more, Bool.false_eq_true, if_false]

end

/-- Settles O36. -/
theorem flitsAreReceived : Obligations.FlitsAreReceived := by
  unfold Obligations.FlitsAreReceived
  intro t link b s k u x good d vc
  have heard {w : State} (up : x.st = 1) (received : u.receiveFlit k b = w) : exec (.flitReceive t link b) s = .next w :=
    (execFlitReceive_up up).trans (congrArg _ received)
  refine ⟨execFlitReceive_notUp, fun up bad => heard up (State.receiveFlit_corrupt bad),
    fun up sound bad => heard up (State.receiveFlit_badField sound bad),
    fun up sound fields other => heard up (State.receiveFlit_otherGen sound fields other), fun up sound fields gen => ?_,
    Link.deliver_nextRx, Link.deliver_unacked, Link.deliver_queue, Link.deliver_taken, Link.deliver_whole, Link.deliver_part⟩
  exact ⟨fun next room => heard up (State.receiveFlit_next sound fields gen next room),
    fun next full => heard up (State.receiveFlit_noRoom sound fields gen next full),
    fun old => heard up (State.receiveFlit_duplicate sound fields gen old),
    fun ahead near => heard up (State.receiveFlit_beyond sound fields gen ahead near)⟩

end Sys2Proof.Machine
end

section
/-! PROOFS. Acknowledgements, NAKs and credits (chapter 14: R326-R330, R336, R340). -/

namespace Sys2Proof.Machine

/-! ### Acknowledgements and NAKs (R328, R330) -/

section

variable {s u : State} {t k n rule : Nat} {link : LinkId} {seq : BitVec 12} {x : Link}

theorem execAckReceive_window
    (window : (seq.toNat + 4097 - ((s.linkEvent t link).link (linkKey link)).oldest) % 4096 ≤
      ((s.linkEvent t link).link (linkKey link)).unacked.length) :
    execAckReceive t link seq s = .next ((s.linkEvent t link).modLink (linkKey link) fun x =>
      x.acked ((seq.toNat + 4097 - ((s.linkEvent t link).link (linkKey link)).oldest) % 4096)).settleOrderly :=
  congrArg _ (if_pos window)

theorem execAckReceive_neverSent
    (outside : ((s.linkEvent t link).link (linkKey link)).unacked.length <
      (seq.toNat + 4097 - ((s.linkEvent t link).link (linkKey link)).oldest) % 4096)
    (ahead : (seq.toNat + 4096 - ((s.linkEvent t link).link (linkKey link)).nextTx) % 4096 < 2048) :
    execAckReceive t link seq s = .next ((s.linkEvent t link).violation (linkKey link) 2) :=
  congrArg _ ((if_neg (Nat.not_le.2 outside)).trans (if_pos ahead))

theorem execAckReceive_old
    (outside : ((s.linkEvent t link).link (linkKey link)).unacked.length <
      (seq.toNat + 4097 - ((s.linkEvent t link).link (linkKey link)).oldest) % 4096)
    (behind : 2048 ≤ (seq.toNat + 4096 - ((s.linkEvent t link).link (linkKey link)).nextTx) % 4096) :
    execAckReceive t link seq s = .next (s.linkEvent t link) :=
  congrArg _ ((if_neg (Nat.not_le.2 outside)).trans (if_neg (Nat.not_lt.2 behind)))

/-- A NAK in the window frees what is before the flit it names; whether a replay begins there is asked of the state after. -/
theorem execNakReceive_window
    (window : (seq.toNat + 4096 - ((s.linkEvent t link).link (linkKey link)).oldest) % 4096 ≤
      ((s.linkEvent t link).link (linkKey link)).unacked.length) :
    execNakReceive t link seq s =
      let v := ((s.linkEvent t link).modLink (linkKey link) fun x =>
        x.acked ((seq.toNat + 4096 - ((s.linkEvent t link).link (linkKey link)).oldest) % 4096)).settleOrderly
      .next (if (v.link (linkKey link)).st != 1 || (v.link (linkKey link)).unacked.isEmpty ||
        (v.link (linkKey link)).replayAt == some 0 then v else v.beginReplay (linkKey link) true) :=
  congrArg _ (if_pos window)

theorem execNakReceive_outside
    (outside : ((s.linkEvent t link).link (linkKey link)).unacked.length <
      (seq.toNat + 4096 - ((s.linkEvent t link).link (linkKey link)).oldest) % 4096) :
    execNakReceive t link seq s = .next (s.linkEvent t link) :=
  congrArg _ (if_neg (Nat.not_le.2 outside))

theorem State.settleOrderly_of_none_preparing (still : ∀ h, (u.arr.get h).preparing = false) : u.settleOrderly = u :=
  List.foldl_fixed' (fun h => if_neg (by rw [still h, Bool.false_and]; exact Bool.false_ne_true)) _

theorem State.violation_notUp (notUp : ((u.report (srcLink k) .contained 9 rule).link k).st ≠ 1) :
    u.violation k rule = u.report (srcLink k) .contained 9 rule :=
  if_pos notUp

theorem execAckCoalesceTimer_owed (owed : 0 < ((s.linkEvent t link).link (linkKey link)).toAck) :
    execAckCoalesceTimer t link s = .next ((s.linkEvent t link).modLink (linkKey link) fun x => x.ack (linkKey link)) :=
  congrArg (fun x => Host.Outcome.next ((s.linkEvent t link).setLink (linkKey link) x)) (if_pos owed)

theorem Link.acked_pos (some : 0 < n) : x.acked n = { x with
    unacked := x.unacked.drop n, fails := 0, afterRetrain := false,
    replayAt := match x.replayAt with
      | none => none
      | .some i => if x.unacked.length ≤ n ∨ x.unacked.length ≤ i then none else .some (i - n) } :=
  if_neg (Nat.ne_of_gt some)

end

/-! ### Credits (R326, R327) -/

section

variable {s : State} {t : Nat} {link : LinkId} {vc : Fin 4} {freed : BitVec 12}

theorem execCreditReceive_back
    (advertised : (freed.toNat + 4096 - tget 0 ((s.linkEvent t link).link (linkKey link)).lastFreed vc.val) % 4096 ≤
      tget 0 ((s.linkEvent t link).link (linkKey link)).advert vc.val) :
    execCreditReceive t link vc freed s = .next ((s.linkEvent t link).modLink (linkKey link) fun x => { x with
      credits := tmod 0 x.credits vc.val
        (· + (freed.toNat + 4096 - tget 0 ((s.linkEvent t link).link (linkKey link)).lastFreed vc.val) % 4096),
      lastFreed := tset 0 x.lastFreed vc.val freed.toNat }) :=
  congrArg _ (if_neg (Nat.not_lt.2 advertised))

theorem execCreditReceive_tooMany
    (more : tget 0 ((s.linkEvent t link).link (linkKey link)).advert vc.val <
      (freed.toNat + 4096 - tget 0 ((s.linkEvent t link).link (linkKey link)).lastFreed vc.val) % 4096) :
    execCreditReceive t link vc freed s = .next ((s.linkEvent t link).violation (linkKey link) 1) :=
  congrArg _ (if_pos more)

end

section

variable {y : Link} {k c n now : Nat}

theorem Link.free_freed (some : 0 < n) (used : n + y.stuck c ≤ y.inUse c) :
    (y.free c n now).freed = tmod 0 y.freed c (· + n) := by
  have all : min n (y.inUse c - y.stuck c) = n := Nat.min_eq_left (by omega)
  simp only [Link.free, all, if_neg (Nat.ne_of_gt some)]

theorem Link.free_taken : (y.free c n now).taken = y.taken := by
  rw [Link.free]
  split <;> rfl

theorem Link.free_unacked : (y.free c n now).unacked = y.unacked := by
  rw [Link.free]
  split <;> rfl

@[simp] theorem Link.report_freed : (y.report k c).freed = y.freed := rfl

@[simp] theorem Link.report_wire :
    (y.report k c).wire = y.wire ++ [.block 3 (targetOf k) c (tget 0 y.freed c % 4096) 0] := rfl

/-- Reports of several channels put one CREDIT block for each on the wire, in their order. -/
theorem Link.foldl_report_wire (l : List Nat) : ∀ y : Link, (l.foldl (fun x c => x.report k c) y).wire =
    y.wire ++ l.map fun c => .block 3 (targetOf k) c (tget 0 y.freed c % 4096) 0 := by
  induction l with
  | nil => exact fun y => (List.append_nil _).symm
  | cons c l ih =>
    intro y
    rw [List.foldl_cons, ih, Link.report_wire, Link.report_freed, List.append_assoc, List.map_cons, List.singleton_append]

theorem Link.reportDue_all (due : y.reportAt + 1000 ≤ now) : (y.reportDue k now).wire =
    y.wire ++ (List.range 4).map fun c => .block 3 (targetOf k) c (tget 0 y.freed c % 4096) 0 := by
  rw [Link.reportDue, if_pos due, Link.foldl_report_wire]

theorem foldl_eq_of_fixed {α β : Type} {f : α → β → α} {a : α} :
    ∀ l : List β, (∀ b ∈ l, f a b = a) → l.foldl f a = a
  | [], _ => rfl
  | b :: l, fixed => by
    rw [List.foldl_cons, fixed b (List.mem_cons_self ..)]
    exact foldl_eq_of_fixed l fun c mem => fixed c (List.mem_cons_of_mem _ mem)

theorem Link.reportDue_none (early : now < y.reportAt + 1000)
    (few : ∀ c < 4, tget 0 y.freed c < tget 0 y.reported c + 16)
    (recent : ∀ c < 4, ∀ f, tget none y.freedAt c = some f → now < f + 32) : y.reportDue k now = y := by
  rw [Link.reportDue, if_neg (Nat.not_le.2 early)]
  refine foldl_eq_of_fixed _ fun c mem => ?_
  have channel : c < 4 := List.mem_range.1 mem
  have notMany : decide (tget 0 y.reported c + 16 ≤ tget 0 y.freed c) = false := decide_eq_false (Nat.not_le.2 (few c channel))
  cases since : tget none y.freedAt c with
  | none => simp only [notMany, Bool.or_self, Bool.false_eq_true, if_false]
  | some f =>
    have notLate : decide (f + 32 ≤ now) = false := decide_eq_false (Nat.not_le.2 (recent c channel f since))
    simp only [notLate, notMany, Bool.or_self, Bool.false_eq_true, if_false]

end

/-- Settles O37. That a NAK or a violation on a link that is not up starts nothing is the model's reading (notes/assumptions, row
72). -/
theorem acksNaksAndCredits : Obligations.AcksNaksAndCredits := by
  unfold Obligations.AcksNaksAndCredits
  refine ⟨?_, ?_⟩
  · intro t link s k u x
    refine ⟨fun seq => ⟨execAckReceive_window, execAckReceive_neverSent, execAckReceive_old⟩, fun seq => ?_,
      fun _ => State.settleOrderly_of_none_preparing, fun _ => State.violation_notUp, execAckCoalesceTimer_owed,
      fun n some _ => ?_⟩
    · intro n v
      refine ⟨fun window up held elsewhere => ?_, fun window idle => ?_, execNakReceive_outside⟩
      · refine (execNakReceive_window window).trans (congrArg _ (if_neg ?_))
        simp only [Bool.or_eq_true, bne_iff_ne, List.isEmpty_iff, beq_iff_eq]
        exact fun h => h.elim (fun h => h.elim (fun h => h up) held) elsewhere
      · refine (execNakReceive_window window).trans (congrArg _ (if_pos ?_))
        simp only [Bool.or_eq_true, bne_iff_ne, List.isEmpty_iff, beq_iff_eq]
        exact .inl (idle.symm)
    · rw [Link.acked_pos some]
      exact ⟨rfl, rfl, rfl, rfl⟩
  · intro t link vc s k u x
    exact ⟨fun _ => rfl, fun _ => ⟨execCreditReceive_back, execCreditReceive_tooMany⟩, fun _ => rfl, fun y n now =>
      ⟨Link.free_freed, Link.free_taken, Link.free_unacked, Link.reportDue_all, Link.reportDue_none⟩⟩

end Sys2Proof.Machine
end

section
/-! PROOFS. Replays, retrains and links that are down (chapter 14: R330, R333-R335, R343, R344). -/

namespace Sys2Proof.Machine

/-! ### The place of a port among the links -/

section

variable (l : Fin 8) (p : Fin 16)

@[simp] theorem linkKey_port_lantern : (linkKey (.port l p) - 16) / 16 = l.val := by
  have inPort : p.val < 16 := p.isLt
  change (16 + 16 * l.val + p.val - 16) / 16 = l.val
  omega

@[simp] theorem linkKey_port_port : (linkKey (.port l p) - 16) % 16 = p.val := by
  have inPort : p.val < 16 := p.isLt
  change (16 + 16 * l.val + p.val - 16) % 16 = p.val
  omega

@[simp] theorem linkKey_port_not_bundle : ¬ linkKey (.port l p) < 16 := by
  change ¬ 16 + 16 * l.val + p.val < 16
  omega

end

/-! ### Replays (R330, R333) -/

section

variable {s u : State} {t k : Nat} {link : LinkId} {resend : Bool}

theorem execReplayTimeout_replays (up : ((s.linkEvent t link).link (linkKey link)).st = 1)
    (held : ((s.linkEvent t link).link (linkKey link)).unacked ≠ []) :
    execReplayTimeout t link s = .next ((s.linkEvent t link).beginReplay (linkKey link) true) :=
  congrArg _ (if_pos ⟨up, held⟩)

theorem execReplayTimeout_nothing (none : ((s.linkEvent t link).link (linkKey link)).unacked = []) :
    execReplayTimeout t link s = .next (s.linkEvent t link) :=
  congrArg _ (if_neg fun h => h.2 none)

theorem State.beginReplay_below (below : (u.link k).fails < (u.link k).replayLimit) :
    u.beginReplay k true = u.modLink k fun x => { x with
      fails := x.fails + 1, replayAt := some 0, window := u.dieNow (txDie k) / 10 ^ 9,
      inWindow := if x.window = u.dieNow (txDie k) / 10 ^ 9 then x.inWindow + 1 else 1 } :=
  if_pos below

theorem State.beginReplay_retrains (limit : (u.link k).replayLimit ≤ (u.link k).fails)
    (first : (u.link k).afterRetrain = false) :
    u.beginReplay k resend = (u.modLink k fun x => { x with fails := 0, afterRetrain := true }).retrain k :=
  (if_neg (Nat.not_lt.2 limit)).trans (if_neg (Bool.eq_false_iff.1 first))

theorem State.beginReplay_down (limit : (u.link k).replayLimit ≤ (u.link k).fails)
    (second : (u.link k).afterRetrain = true) : u.beginReplay k resend = u.linkDown k true :=
  (if_neg (Nat.not_lt.2 limit)).trans (if_pos second)

/-- A die's time base is the block's, or, unsynchronised, its own count beside it (R315). -/
theorem State.dieNow_cases (d : Option Half) :
    u.dieNow d = u.now ∨ ∃ h, d = some h ∧ (u.arr.get h).unsync = true ∧ u.dieNow d = u.now + (u.arr.get h).ownCount := by
  cases d with
  | none => exact .inl rfl
  | some h =>
    cases own : (u.arr.get h).unsync with
    | false => exact .inl (if_neg (Bool.eq_false_iff.1 own))
    | true => exact .inr ⟨h, rfl, own, if_pos own⟩

theorem execReplayRateFault_logs
    (window : ((s.linkEvent t link).link (linkKey link)).window =
      (s.linkEvent t link).dieNow (txDie (linkKey link)) / 10 ^ 9)
    (many : 1000 < ((s.linkEvent t link).link (linkKey link)).inWindow)
    (due : ∀ l, ((s.linkEvent t link).link (linkKey link)).rateLogged = some l → l + 60 * 10 ^ 9 ≤ (s.linkEvent t link).now) :
    execReplayRateFault t link s = .next
      (((s.linkEvent t link).modLink (linkKey link) fun x => { x with rateLogged := some (s.linkEvent t link).now }).report
        (srcLink (linkKey link)) .corrected 5 ((s.linkEvent t link).link (linkKey link)).inWindow) := by
  refine congrArg _ (if_pos ?_)
  rw [Bool.and_eq_true, Bool.and_eq_true, decide_eq_true_iff, decide_eq_true_iff]
  refine ⟨⟨window, many⟩, ?_⟩
  split
  · rfl
  · next l logged => exact decide_eq_true (due l logged)

theorem execReplayRateFault_few
    (few : ((s.linkEvent t link).link (linkKey link)).inWindow ≤ 1000 ∨
      ((s.linkEvent t link).link (linkKey link)).window ≠ (s.linkEvent t link).dieNow (txDie (linkKey link)) / 10 ^ 9) :
    execReplayRateFault t link s = .next (s.linkEvent t link) := by
  refine congrArg _ (if_neg ?_)
  rw [Bool.and_eq_true, Bool.and_eq_true, decide_eq_true_iff, decide_eq_true_iff]
  rintro ⟨⟨window, many⟩, -⟩
  exact few.elim (fun h => Nat.not_le.2 many h) fun h => h window

/-! ### Retrains (R333-R335) -/

theorem execRetrainTimeout_down (training : ((s.linkEvent t link).link (linkKey link)).st = 2) :
    execRetrainTimeout t link s = .next ((s.linkEvent t link).linkDown (linkKey link) true) :=
  congrArg _ (if_pos training)

theorem execRetrainTimeout_over (other : ((s.linkEvent t link).link (linkKey link)).st ≠ 2) :
    execRetrainTimeout t link s = .next (s.linkEvent t link) :=
  congrArg _ (if_neg other)

section

variable {found : Retrained} (is : Retrained.link found = link)
include is

theorem execRetrainComplete_greets (training : ((s.linkEvent t link).link (linkKey link)).st = 2)
    (still : ((((s.linkEvent t link).settleWidths link).checkLanes found).link (linkKey link)).st = 2) :
    let v := ((s.linkEvent t link).settleWidths link).checkLanes found
    execRetrainComplete t found s = .next ((v.modLink (linkKey link) fun x => x.sendHello (linkKey link)).report
      (srcLink (linkKey link)) .corrected 6 (v.link (linkKey link)).oldest) := by
  subst is
  exact congrArg _ ((if_pos training).trans (if_pos still))

theorem execRetrainComplete_fenced (training : ((s.linkEvent t link).link (linkKey link)).st = 2)
    (fenced : ((((s.linkEvent t link).settleWidths link).checkLanes found).link (linkKey link)).st ≠ 2) :
    execRetrainComplete t found s = .next (((s.linkEvent t link).settleWidths link).checkLanes found) := by
  subst is
  exact congrArg _ ((if_pos training).trans (if_neg fenced))

theorem execRetrainComplete_over (other : ((s.linkEvent t link).link (linkKey link)).st ≠ 2) :
    execRetrainComplete t found s = .next (s.linkEvent t link) := by
  subst is
  exact congrArg _ (if_neg other)

end

end

/-! ### The lanes that a retrain finds (R304, R309, R310) -/

theorem LaneCheck.good_iff {c : LaneCheck} :
    LaneCheck.good c = true ↔ (slipFound c.word 0).isSome = true ∧ c.skew ≤ 8 ∧ c.invalid = 0 := by
  rw [LaneCheck.good, Bool.and_eq_true, Bool.and_eq_true, decide_eq_true_iff, beq_iff_eq, and_assoc]
  rfl

theorem LaneCheck.good_eq_false_iff {c : LaneCheck} :
    LaneCheck.good c = false ↔ slipFound c.word 0 = none ∨ 8 < c.skew ∨ c.invalid ≠ 0 := by
  rw [← Bool.not_eq_true, LaneCheck.good_iff, Option.isSome_iff_ne_none]
  constructor
  · intro bad
    by_contra sound
    simp only [not_or, not_not, Nat.not_lt] at sound
    exact bad sound
  · rintro bad ⟨word, skew, invalid⟩
    exact bad.elim word fun h => h.elim (Nat.not_lt.2 skew) fun h => h invalid

theorem Bundle.mem_failing {y : Bundle} {b i : Nat} {found : List LaneCheck} : i ∈ y.failing b found ↔
    i < lanesOf b ∧ ((y.lane i).role = .service ∨ (y.lane i).role = .spare) ∧
      ∃ c ∈ found, c.lane = i ∧ (slipFound c.word 0 = none ∨ 8 < c.skew ∨ c.invalid ≠ 0) := by
  simp only [Bundle.failing, List.mem_filter, List.mem_range, Bool.and_eq_true, Bool.or_eq_true, beq_iff_eq, List.any_eq_true,
    Bool.not_eq_true', LaneCheck.good_eq_false_iff]

theorem Bundle.failing_eq_nil {y : Bundle} {b : Nat} {found : List LaneCheck}
    (good : ∀ c ∈ found, (slipFound c.word 0).isSome = true ∧ c.skew ≤ 8 ∧ c.invalid = 0) : y.failing b found = [] := by
  refine List.eq_nil_iff_forall_not_mem.2 fun i fails => ?_
  obtain ⟨-, -, c, mem, -, bad⟩ := Bundle.mem_failing.1 fails
  exact Bool.eq_false_iff.1 (LaneCheck.good_eq_false_iff.2 bad) (LaneCheck.good_iff.2 (good c mem))

theorem State.checkLanes_bundle_good {v : State} {b : Fin 16} {found : List LaneCheck}
    (good : ∀ c ∈ found, (slipFound c.word 0).isSome = true ∧ c.skew ≤ 8 ∧ c.invalid = 0) :
    v.checkLanes (.bundle b found) = v.modBundle b.val fun _ => (v.bundle b.val).slipLanes found := by
  change State.declareAll _ b.val (Bundle.failing _ b.val found) = _
  rw [Bundle.failing_eq_nil good]
  rfl

/-! ### Width commands settled by a retrain (R343) -/

section

variable {s : State} {l : Fin 8} {p : Fin 16} {a : WidthAction} {lane spare : Nat}

theorem State.settleRx_port_full (full : ((s.lan l.val).port p.val).light = lightFull) :
    s.settleRx (linkKey (.port l p)) a lane spare =
      (s.modLPort l.val p.val fun y => y.afterRx a lane spare).countDrop (linkKey (.port l p)) a := by
  simp only [State.settleRx, linkKey_port_lantern, linkKey_port_port, linkKey_port_not_bundle, full, ne_eq, not_true, or_self,
    if_false]

theorem State.settleWidths_port_asked {w : WidthCmd} (asked : (s.link (linkKey (.port l p))).rxWidth = some w)
    (alone : (s.link (linkKey (.port l p))).rxWait = []) (sending : (s.link (linkKey (.port l p))).waitWidth = [])
    (full : (((s.modLink (linkKey (.port l p)) Link.noWidths).lan l.val).port p.val).light = lightFull) :
    s.settleWidths (.port l p) = ((s.modLink (linkKey (.port l p)) Link.noWidths).modLPort l.val p.val fun y =>
      y.afterRx w.action w.lane w.spare).countDrop (linkKey (.port l p)) w.action := by
  simp only [State.settleWidths, asked, alone, sending, Option.toList_some, List.append_nil, List.foldl_cons, List.foldl_nil,
    State.settleRx_port_full full]

theorem orderAfter_of_ne_replace {m : Nat} {order : List Nat} (other : a ≠ .replace) : orderAfter a m order lane spare = [] := by
  cases a with
  | drop | add => rfl
  | replace => exact absurd rfl other

theorem orderAfter_replace {m : Nat} {order : List Nat} (bound : order ≠ []) :
    orderAfter .replace m order lane spare = order.map fun k => if k = lane then spare else k := by
  rw [orderAfter, if_neg (mt List.isEmpty_iff.1 bound)]

theorem Link.noWidths_lastCmd {x : Link} {w : WidthCmd} (switched : x.width = some w) : x.noWidths.lastCmd = some w.cmd := by
  simp only [Link.noWidths, switched]

end

/-! ### Links that are down (R335, R337) -/

section

variable {s : State} {t k : Nat} {link : LinkId}

theorem State.linkDown_unlogged (live : (s.link k).st < 3) :
    s.linkDown k false = (if k < 16 then (s.setLink k (({ s.link k with
        st := 3, replayAt := none, hello := false, width := none, waitWidth := [], rxWidth := none, rxWait := [] }
          : Link).count 8 1)).modBundle k fun b => { b with st := 0 }
      else s.setLink k (({ s.link k with
        st := 3, replayAt := none, hello := false, width := none, waitWidth := [], rxWidth := none, rxWait := [] }
          : Link).count 8 1)).oculusUpdate :=
  if_neg (by omega)

theorem execDownRetry_notDown (other : ((s.linkEvent t link).link (linkKey link)).st ≠ 3) (tr : Option BundleTrain) :
    execDownRetry t link tr s = .next (s.linkEvent t link) :=
  congrArg _ (if_pos other)

theorem execDownRetry_untried (down : ((s.linkEvent t link).link (linkKey link)).st = 3) :
    execDownRetry t link none s = .next (s.linkEvent t link) := by
  cases link with
  | bundle b | port l p => exact congrArg _ (if_neg (not_not.2 down))

theorem execDownRetry_bundle {b : Fin 16} {tr : BundleTrain}
    (down : ((s.linkEvent t (.bundle b)).link (linkKey (.bundle b))).st = 3) :
    execDownRetry t (.bundle b) (some tr) s = .next ((s.linkEvent t (.bundle b)).trainBundle b.val tr) :=
  congrArg _ (if_neg (not_not.2 down))

theorem execDownRetry_port {l : Fin 8} {p : Fin 16} {tr : BundleTrain}
    (down : ((s.linkEvent t (.port l p)).link (linkKey (.port l p))).st = 3)
    (full : (((s.linkEvent t (.port l p)).lan l.val).port p.val).light = lightFull) :
    execDownRetry t (.port l p) (some tr) s = .next ((s.linkEvent t (.port l p)).modLink (linkKey (.port l p)) fun x =>
      ({ x with st := 2 } : Link).sendHello (linkKey (.port l p))).oculusUpdate :=
  congrArg _ ((if_neg (not_not.2 down)).trans (if_pos full))

end

/-- Settles O38. That a retrain makes every change not yet switched, where the slip is searched, and that only an unplanned link
down is logged are the model's readings (notes/assumptions, rows 61, 89 and 18). -/
theorem replaysRetrainsAndDownLinks : Obligations.ReplaysRetrainsAndDownLinks := by
  unfold Obligations.ReplaysRetrainsAndDownLinks
  refine ⟨?_, ?_⟩
  · intro t link s k u x own
    refine ⟨fun up held below => (execReplayTimeout_replays up held).trans (congrArg _ (State.beginReplay_below below)),
      State.dieNow_cases _,
      fun up held limit first => (execReplayTimeout_replays up held).trans (congrArg _ (State.beginReplay_retrains limit first)),
      fun up held limit second => (execReplayTimeout_replays up held).trans (congrArg _ (State.beginReplay_down limit second)),
      execReplayTimeout_nothing, ?_, fun _ _ _ => rfl, ?_, ?_, ?_, ⟨rfl, rfl, rfl, rfl, fun _ => Link.noWidths_lastCmd⟩,
      execRetrainTimeout_down, execRetrainTimeout_over, execReplayRateFault_logs, execReplayRateFault_few⟩
    · rintro found v is rfl
      exact ⟨execRetrainComplete_greets is, execRetrainComplete_fenced is, execRetrainComplete_over is⟩
    · intro v b found y
      exact ⟨fun _ => Bundle.mem_failing, State.checkLanes_bundle_good⟩
    · rintro l p w rfl asked alone sending full
      exact State.settleWidths_port_asked asked alone sending full
    · intro y a lane spare
      refine ⟨rfl, rfl, orderAfter_of_ne_replace, ?_⟩
      rintro rfl bound
      exact orderAfter_replace bound
  · intro t link s k u
    refine ⟨State.linkDown_unlogged, execDownRetry_notDown, execDownRetry_untried, ?_, ?_⟩
    · rintro b tr rfl down
      exact execDownRetry_bundle down
    · rintro l p tr rfl down full
      exact execDownRetry_port (tr := tr) down full

end Sys2Proof.Machine
end

section
/-! PROOFS. Greetings, the note of a fenced bundle, and width changes (chapter 14: R334, R336-R338, R341, R343, R395). -/

namespace Sys2Proof.Machine

/-! ### What an Oculus update, a fault message and a link's change leave of links, bundles and Lanterns -/

section

variable (s : State)

@[simp] theorem State.oculusUpdate_links : s.oculusUpdate.links = s.links := s.oculusUpdate_keepsBut .links (by decide)
@[simp] theorem State.oculusUpdate_bundles : s.oculusUpdate.bundles = s.bundles :=
  s.oculusUpdate_keepsBut .bundles (by decide)
@[simp] theorem State.oculusUpdate_lans : s.oculusUpdate.lans = s.lans := s.oculusUpdate_keepsBut .lans (by decide)

variable (src : Nat) (cls : FClass) (kind addr : Nat)

@[simp] theorem State.report_links : (s.report src cls kind addr).links = s.links :=
  s.report_keepsBut src cls kind addr .links (by decide)
@[simp] theorem State.report_bundles : (s.report src cls kind addr).bundles = s.bundles :=
  s.report_keepsBut src cls kind addr .bundles (by decide)
@[simp] theorem State.report_lans : (s.report src cls kind addr).lans = s.lans :=
  s.report_keepsBut src cls kind addr .lans (by decide)

theorem State.link_setLink {s : State} (wf : twf none s.links = true) (k : Nat) (x : Link) : (s.setLink k x).link k = x := by
  change (tget none (tset none s.links k (if x = linkInit k then none else some x)) k).getD (linkInit k) = x
  rw [tget_tset none s.links k _ wf]
  split
  · next init => exact init.symm
  · rfl

theorem State.setLink_wf {s : State} (wf : twf none s.links = true) (k : Nat) (x : Link) :
    twf none (s.setLink k x).links = true :=
  twf_tset none k _ wf

end

/-! ### HELLO (R334, R336, R338, R395) -/

/-- A HELLO noted: the far end's LINK_GEN, and that it has come. -/
def State.noteHello (s : State) (k gen : Nat) : State := s.modLink k fun x => { x with farGen := gen, hello := true }

section

variable {s : State} {k nextRx gen : Nat} {fresh : Bool}

theorem State.hello_noted (alone : ((s.noteHello k gen).link k).gen = 0 ∨ ((s.noteHello k gen).link k).st = 1 ∨
    ((s.noteHello k gen).link k).st = 3 ∨ ((s.noteHello k gen).link k).st = 4) :
    s.hello k fresh nextRx gen = s.noteHello k gen :=
  if_pos alone

/-- An end in training with a role of its own goes on from the LINK_GEN it keeps or takes over. -/
theorem State.hello_training (role : ((s.noteHello k gen).link k).gen ≠ 0)
    (training : ((s.noteHello k gen).link k).st = 0 ∨ ((s.noteHello k gen).link k).st = 2) : s.hello k fresh nextRx gen =
    let u := s.noteHello k gen
    let v := if 16 ≤ k ∧ fresh ∧ (u.link k).fresh ∧ genLater gen (u.link k).gen then
        u.modLink k fun x => ({ x with gen := gen, adopted := true } : Link).sendHello k
      else u
    let x := v.link k
    if x.gen ≠ gen then v
    else if fresh || x.fresh then (v.freshStart k).linkUp k
    else
      let n := (nextRx + 4096 - x.oldest) % 4096
      if x.unacked.length < n ∧ (nextRx + 4096 - x.nextTx) % 4096 < 2048 then v.violation k 2
      else (v.modLink k fun x =>
        let y := if n ≤ x.unacked.length then x.acked n else x
        { y with replayAt := if y.unacked.isEmpty then none else some 0 }).linkUp k :=
  if_neg (show ¬ (((s.noteHello k gen).link k).gen = 0 ∨ ((s.noteHello k gen).link k).st = 1 ∨
    ((s.noteHello k gen).link k).st = 3 ∨ ((s.noteHello k gen).link k).st = 4) by omega)

section

variable (role : ((s.noteHello k gen).link k).gen ≠ 0)
  (training : ((s.noteHello k gen).link k).st = 0 ∨ ((s.noteHello k gen).link k).st = 2)
  (keeps : (decide (16 ≤ k) && fresh && ((s.noteHello k gen).link k).fresh && genLater gen ((s.noteHello k gen).link k).gen) =
    false)
include role training keeps

/-- An end that keeps its own LINK_GEN. -/
theorem State.hello_kept : s.hello k fresh nextRx gen =
    let u := s.noteHello k gen
    let x := u.link k
    if x.gen ≠ gen then u
    else if fresh || x.fresh then (u.freshStart k).linkUp k
    else
      let n := (nextRx + 4096 - x.oldest) % 4096
      if x.unacked.length < n ∧ (nextRx + 4096 - x.nextTx) % 4096 < 2048 then u.violation k 2
      else (u.modLink k fun x =>
        let y := if n ≤ x.unacked.length then x.acked n else x
        { y with replayAt := if y.unacked.isEmpty then none else some 0 }).linkUp k := by
  have own : ¬ (16 ≤ k ∧ fresh = true ∧ ((s.noteHello k gen).link k).fresh = true ∧
      genLater gen ((s.noteHello k gen).link k).gen = true) := by
    rintro ⟨port, far, near, later⟩
    rw [decide_eq_true port, far, near, later] at keeps
    exact Bool.noConfusion keeps
  rw [State.hello_training role training]
  simp only [if_neg own]

theorem State.hello_otherGen (other : ((s.noteHello k gen).link k).gen ≠ gen) :
    s.hello k fresh nextRx gen = s.noteHello k gen :=
  (State.hello_kept role training keeps).trans (if_pos other)

variable (same : ((s.noteHello k gen).link k).gen = gen)
include same

theorem State.hello_fresh (anew : (fresh || ((s.noteHello k gen).link k).fresh) = true) :
    s.hello k fresh nextRx gen = ((s.noteHello k gen).freshStart k).linkUp k :=
  (State.hello_kept role training keeps).trans ((if_neg (not_not.2 same)).trans (if_pos anew))

variable (known : (fresh || ((s.noteHello k gen).link k).fresh) = false)
include known

theorem State.hello_neverSent
    (past : ((s.noteHello k gen).link k).unacked.length < (nextRx + 4096 - ((s.noteHello k gen).link k).oldest) % 4096 ∧
      (nextRx + 4096 - ((s.noteHello k gen).link k).nextTx) % 4096 < 2048) :
    s.hello k fresh nextRx gen = (s.noteHello k gen).violation k 2 :=
  (State.hello_kept role training keeps).trans ((if_neg (not_not.2 same)).trans
    ((if_neg (Bool.eq_false_iff.1 known)).trans (if_pos past)))

theorem State.hello_resumes
    (sent : ¬ (((s.noteHello k gen).link k).unacked.length < (nextRx + 4096 - ((s.noteHello k gen).link k).oldest) % 4096 ∧
      (nextRx + 4096 - ((s.noteHello k gen).link k).nextTx) % 4096 < 2048)) :
    s.hello k fresh nextRx gen = ((s.noteHello k gen).modLink k fun x =>
      let y := if (nextRx + 4096 - ((s.noteHello k gen).link k).oldest) % 4096 ≤ x.unacked.length then
        x.acked ((nextRx + 4096 - ((s.noteHello k gen).link k).oldest) % 4096) else x
      { y with replayAt := if y.unacked.isEmpty then none else some 0 }).linkUp k :=
  (State.hello_kept role training keeps).trans ((if_neg (not_not.2 same)).trans
    ((if_neg (Bool.eq_false_iff.1 known)).trans (if_neg sent)))

end

@[simp] theorem Link.sendHello_gen {x : Link} : (x.sendHello k).gen = x.gen := by
  rw [Link.sendHello]
  split <;> rfl

/-- A fresh end of a port that takes over a later LINK_GEN starts afresh with it (R395). -/
theorem State.hello_adopts (role : ((s.noteHello k gen).link k).gen ≠ 0)
    (training : ((s.noteHello k gen).link k).st = 0 ∨ ((s.noteHello k gen).link k).st = 2)
    (adopts : (decide (16 ≤ k) && fresh && ((s.noteHello k gen).link k).fresh &&
      genLater gen ((s.noteHello k gen).link k).gen) = true)
    (wf : twf none (s.noteHello k gen).links = true) : s.hello k fresh nextRx gen =
      (((s.noteHello k gen).modLink k fun x => ({ x with gen := gen, adopted := true } : Link).sendHello k).freshStart k).linkUp
        k := by
  simp only [Bool.and_eq_true, decide_eq_true_iff] at adopts
  obtain ⟨⟨⟨port, far⟩, near⟩, later⟩ := adopts
  have took : (((s.noteHello k gen).modLink k fun x => ({ x with gen := gen, adopted := true } : Link).sendHello k).link k).gen =
      gen := by
    rw [State.modLink, State.link_setLink wf, Link.sendHello_gen]
  rw [State.hello_training role training]
  dsimp only
  rw [if_pos (show 16 ≤ k ∧ fresh = true ∧ ((s.noteHello k gen).link k).fresh = true ∧
    genLater gen ((s.noteHello k gen).link k).gen = true from ⟨port, far, near, later⟩), if_neg (not_not.2 took), far]
  exact if_pos (Bool.true_or _)

theorem State.linkUp_bundle {u : State} (bundle : k < 16) :
    u.linkUp k = ((u.setLink k { u.link k with st := 1, everUp := true, fresh := false, adopted := false }).modBundle k
      fun y => { y with st := 1 }).oculusUpdate :=
  congrArg State.linkChanged (if_pos bundle)

end

/-- Settles O39. That a violation on a link in training starts no replay is the model's reading (notes/assumptions, row 72). -/
theorem greetings : Obligations.Greetings := by
  unfold Obligations.Greetings
  intro t link fresh nextRx gen s k u x adopts done n past
  have heard {w : State} (said : (s.linkEvent t link).hello k fresh nextRx.toNat gen.toNat = w) :
      exec (.helloReceive t link fresh nextRx gen) s = .next (done w) := by
    subst said
    cases link with
    | bundle b | port l p => rfl
  refine ⟨fun alone => heard (State.hello_noted alone), fun role training keeps => ?_, fun role training takes wf => ?_,
    State.linkUp_bundle⟩
  · exact ⟨fun other => heard (State.hello_otherGen role training keeps other),
      fun same anew => heard (State.hello_fresh role training keeps same anew),
      fun same known beyond => heard (State.hello_neverSent role training keeps same known beyond),
      fun same known sent => heard (State.hello_resumes role training keeps same known sent)⟩
  · exact heard (State.hello_adopts role training takes (State.setLink_wf (State.setLink_wf (s := s.atTime t) wf _ _) _ _))

end Sys2Proof.Machine
end

section
/-! PROOFS. The note of a fenced bundle's receiver, and width changes (chapter 14: R337, R341, R343). -/

namespace Sys2Proof.Machine

/-! ### The note of a fenced bundle (R337) -/

section

variable {s : State} {t : Nat} {b : Fin 16} {nextRx : BitVec 12}

/-- A message not begun goes to one of the siblings, which one a free value says. -/
theorem State.moveEntry_mem (v : State) (e : QEnt) (sib : Nat) (more : List Nat) : ∃ y ∈ sib :: more,
    v.moveEntry (sib :: more) e = ({ v with free := v.free + 1 } : State).modLink y fun z => { z with queue := z.queue ++ [e] } := by
  have inside : (Config.freeValue v.free).toNat % (sib :: more).length < (sib :: more).length := Nat.mod_lt _ (Nat.succ_pos _)
  have chosen : (sib :: more).getD ((Config.freeValue v.free).toNat % (sib :: more).length) 0 ∈ sib :: more := by
    rw [List.getD_eq_getElem _ _ inside]
    exact List.getElem_mem inside
  exact ⟨_, chosen, rfl⟩

theorem execFenceNoteReceive_notFenced (other : ((s.linkEvent t (.bundle b)).link b.val).st ≠ 4) :
    execFenceNoteReceive t b nextRx s = .next (s.linkEvent t (.bundle b)) := by
  rw [execFenceNoteReceive]
  dsimp only
  split
  · rfl
  · exact congrArg _ (if_pos other)

/-- What of a message has come on a fenced bundle, by its channel. -/
def Link.begunParts (x : Link) : List (Nat × List Byte) :=
  (((List.range 4).filter fun vc => !(tget [] x.rxPart vc).isEmpty).map fun vc => (vc, tget [] x.rxPart vc)) ++ x.rxMoved

theorem execFenceNoteReceive_moves {sib : Nat} {more : List Nat}
    (up : (s.linkEvent t (.bundle b)).siblings b.val = sib :: more)
    (fenced : ((s.linkEvent t (.bundle b)).link b.val).st = 4)
    (window : (nextRx.toNat + 4096 - ((s.linkEvent t (.bundle b)).link b.val).oldest) % 4096 ≤
      ((s.linkEvent t (.bundle b)).link b.val).unacked.length) :
    execFenceNoteReceive t b nextRx s =
      let u := s.linkEvent t (.bundle b)
      let x := u.link b.val
      let moved := (x.unacked.drop ((nextRx.toNat + 4096 - x.oldest) % 4096)).map fun f =>
        ({ no := f.msg, vc := f.vc, flits := [f], started := true, msg := none } : QEnt)
      .next (((x.queue.filter (!·.started)).foldl (fun v e => v.moveEntry (sib :: more) e)
        ((u.modLink sib fun y => { y with
          queue := y.queue.filter (·.started) ++ moved ++ x.queue.filter (·.started) ++ y.queue.filter (!·.started) }).modLink sib
            fun y => { y with rxMoved := y.rxMoved ++ x.begunParts })).modLink b.val fun x => { x with
              queue := [], unacked := [], replayAt := none, fails := 0, afterRetrain := false, rxPart := [],
              rxMoved := [] }).settleOrderly := by
  simp only [execFenceNoteReceive, up, fenced, if_pos window, ne_eq, not_true, if_false, Link.begunParts]

end

/-! ### Requests and answers (R341, R343) -/

/-- What waits for a wavelength that a port adds again is settled. -/
def State.settleAdd (s : State) : LinkId → WidthAction → Nat → State
  | .port l p, .add, lane => (s.reAdded l.val p.val lane).portSettled l.val p.val lane
  | _, _, _ => s

theorem State.settleAdd_of_ne_add {s : State} {link : LinkId} {a : WidthAction} {lane : Nat} (plain : a ≠ .add) :
    s.settleAdd link a lane = s := by
  cases link with
  | bundle b => rfl
  | port l p =>
    cases a with
    | drop | replace => rfl
    | add => exact absurd rfl plain

section

variable {s : State} {t lane spare : Nat} {link : LinkId} {cmd : BitVec 8} {a : WidthAction} {v : WidthCmd}

section

variable (up : ((s.linkEvent t link).link (linkKey link)).st = 1)
include up

section

variable (new : ((s.linkEvent t link).link (linkKey link)).lastCmd ≠ some cmd.toNat)
include new

/-- A request with none in progress is switched at once; a port's ADD has what waits for it settled. -/
theorem execWidthReq_free (none : ((s.linkEvent t link).link (linkKey link)).width = none) :
    execWidthReq t link cmd a lane spare s =
      .next (((s.linkEvent t link).switchTx (linkKey link) ⟨cmd.toNat, a, lane, spare, false⟩).settleAdd link a lane) := by
  have unseen : (((s.linkEvent t link).link (linkKey link)).lastCmd == some cmd.toNat) = false := beq_eq_false_iff_ne.2 new
  simp only [execWidthReq, up, none, unseen, ne_eq, not_true, Bool.or_self, Bool.false_eq_true, or_self, if_false]
  cases link with
  | bundle b => rfl
  | port l p =>
    cases a with
    | drop | replace | add => rfl

theorem execWidthReq_switches (none : ((s.linkEvent t link).link (linkKey link)).width = none)
    (plain : a ≠ .add ∨ linkKey link < 16) : execWidthReq t link cmd a lane spare s =
      .next ((s.linkEvent t link).switchTx (linkKey link) ⟨cmd.toNat, a, lane, spare, false⟩) := by
  rw [execWidthReq_free up new none]
  cases link with
  | bundle b => rfl
  | port l p => rw [State.settleAdd_of_ne_add (plain.resolve_right (linkKey_port_not_bundle l p))]

theorem execWidthReq_waits (busy : ((s.linkEvent t link).link (linkKey link)).width = some v) (other : v.cmd ≠ cmd.toNat) :
    execWidthReq t link cmd a lane spare s = .next ((s.linkEvent t link).modLink (linkKey link) fun x => { x with
      waitWidth := x.waitWidth ++ [⟨cmd.toNat, a, lane, spare, false⟩] }) := by
  have unseen : (((s.linkEvent t link).link (linkKey link)).lastCmd == some cmd.toNat) = false := beq_eq_false_iff_ne.2 new
  have behind : (v.cmd == cmd.toNat) = false := beq_eq_false_iff_ne.2 other
  simp only [execWidthReq, up, busy, unseen, behind, ne_eq, not_true, Bool.or_self, Bool.false_eq_true, or_self, if_false]

end

theorem execWidthReq_again (seen : ((s.linkEvent t link).link (linkKey link)).lastCmd = some cmd.toNat) :
    execWidthReq t link cmd a lane spare s = .next (s.linkEvent t link) := by
  simp only [execWidthReq, up, seen, beq_self_eq_true, Bool.true_or, or_true, if_true]

theorem execWidthDone_last (busy : ((s.linkEvent t link).link (linkKey link)).width = some v) (own : v.cmd = cmd.toNat)
    (alone : ((s.linkEvent t link).link (linkKey link)).waitWidth = []) : execWidthDone t link cmd s =
      .next ((s.linkEvent t link).modLink (linkKey link) fun x => { x with width := none, lastCmd := some cmd.toNat }) := by
  simp only [execWidthDone, up, busy, own, alone, ne_eq, not_true, or_self, if_false]

theorem execWidthDone_next {y : WidthCmd} {ys : List WidthCmd}
    (busy : ((s.linkEvent t link).link (linkKey link)).width = some v) (own : v.cmd = cmd.toNat)
    (more : ((s.linkEvent t link).link (linkKey link)).waitWidth = y :: ys) : execWidthDone t link cmd s =
      .next ((((s.linkEvent t link).modLink (linkKey link) fun x => { x with
        width := none, lastCmd := some cmd.toNat }).modLink (linkKey link) fun x => { x with waitWidth := ys }).takeTx
          (linkKey link) y) := by
  simp only [execWidthDone, up, busy, own, more, ne_eq, not_true, or_self, if_false]

end

theorem execWidthDone_notUp (other : ((s.linkEvent t link).link (linkKey link)).st ≠ 1) :
    execWidthDone t link cmd s = .next (s.linkEvent t link) := by
  rw [execWidthDone]
  dsimp only
  split
  · rfl
  · exact congrArg _ (if_pos (.inr other))

theorem execWidthDone_other (busy : ((s.linkEvent t link).link (linkKey link)).width = some v) (other : v.cmd ≠ cmd.toNat) :
    execWidthDone t link cmd s = .next (s.linkEvent t link) := by
  simp only [execWidthDone, busy, if_pos (Or.inl other : v.cmd ≠ cmd.toNat ∨ _)]

theorem State.takeTx_not_add {u : State} {k : Nat} {y : WidthCmd} (plain : y.action ≠ .add) : u.takeTx k y = u.switchTx k y :=
  if_pos (.inr plain)

end

/-! ### The receiver switches (R341) -/

section

variable {s : State} {k : Nat} {a : WidthAction}

@[simp] theorem State.countDrop_links : (s.countDrop k a).links = s.links := by
  rw [State.countDrop]
  split <;> rfl

theorem State.link_congr {s t : State} (same : t.links = s.links) (k : Nat) : t.link k = s.link k := by
  rw [State.link, State.link, same]

/-- The receiver answers WIDTH_DONE and turns to the next change that it has asked for. -/
def Link.switched (x : Link) (k cmd : Nat) : Link :=
  let x := ({ x with rxLastCmd := some cmd } : Link).block k 6 cmd 0 0
  match x.rxWidth with
  | none => x
  | some w =>
    if w.cmd ≠ cmd then x
    else match x.rxWait with
      | [] => { x with rxWidth := none }
      | v :: r => ({ x with rxWidth := some v, rxWait := r } : Link).widthBlock k 4 v

theorem Link.switched_unasked {x : Link} {cmd : Nat} (unasked : x.rxWidth = none) :
    x.switched k cmd = ({ x with rxLastCmd := some cmd } : Link).block k 6 cmd 0 0 := by
  have same : (({ x with rxLastCmd := some cmd } : Link).block k 6 cmd 0 0).rxWidth = none := unasked
  simp only [Link.switched, same]

variable {t lane : Nat} {cmd : BitVec 8} {seen : SwitchSeen}

theorem execWidthSwitch_missed {link : LinkId} (missed : ((s.linkEvent t link).link (linkKey link)).st ≠ 1 ∨
    2 * seen.lanes < (s.linkEvent t link).rxWidthOf link) :
    execWidthSwitch t link cmd a lane seen s = .next (s.linkEvent t link) :=
  congrArg _ (if_pos missed)

theorem execWidthSwitch_port {l : Fin 8} {p : Fin 16}
    (up : ((s.linkEvent t (.port l p)).link (linkKey (.port l p))).st = 1)
    (half : (s.linkEvent t (.port l p)).rxWidthOf (.port l p) ≤ 2 * seen.lanes) :
    execWidthSwitch t (.port l p) cmd a lane seen s =
      .next ((((s.linkEvent t (.port l p)).modLPort l.val p.val fun y =>
        (y.afterRx a lane seen.spare).gapSeen a lane).countDrop (linkKey (.port l p)) a).oculusUpdate.modLink (linkKey (.port l p))
          fun x => x.switched (linkKey (.port l p)) cmd.toNat) := by
  rw [execWidthSwitch]
  dsimp only
  rw [if_neg (not_or.2 ⟨not_not.2 up, Nat.not_lt.2 half⟩)]
  rfl

theorem execWidthSwitch_port_unasked {l : Fin 8} {p : Fin 16}
    (up : ((s.linkEvent t (.port l p)).link (linkKey (.port l p))).st = 1)
    (half : (s.linkEvent t (.port l p)).rxWidthOf (.port l p) ≤ 2 * seen.lanes)
    (unasked : ((s.linkEvent t (.port l p)).link (linkKey (.port l p))).rxWidth = none) :
    execWidthSwitch t (.port l p) cmd a lane seen s =
      .next ((((s.linkEvent t (.port l p)).modLPort l.val p.val fun y =>
        (y.afterRx a lane seen.spare).gapSeen a lane).countDrop (linkKey (.port l p)) a).oculusUpdate.modLink (linkKey (.port l p))
          fun x => ({ x with rxLastCmd := some cmd.toNat } : Link).block (linkKey (.port l p)) 6 cmd.toNat 0 0) := by
  have links : (((s.linkEvent t (.port l p)).modLPort l.val p.val fun y =>
      (y.afterRx a lane seen.spare).gapSeen a lane).countDrop (linkKey (.port l p)) a).oculusUpdate.links =
        (s.linkEvent t (.port l p)).links :=
    (State.oculusUpdate_links _).trans State.countDrop_links
  rw [execWidthSwitch_port up half, State.modLink, State.modLink, Link.switched_unasked]
  rw [State.link_congr links, unasked]

theorem execWidthSwitch_bundle {b : Fin 16}
    (up : ((s.linkEvent t (.bundle b)).link (linkKey (.bundle b))).st = 1)
    (half : (s.linkEvent t (.bundle b)).rxWidthOf (.bundle b) ≤ 2 * seen.lanes)
    (serves : (((s.linkEvent t (.bundle b)).bundle b.val).lane lane).role = .service ∨ a = .add) :
    execWidthSwitch t (.bundle b) cmd a lane seen s =
      let v := ((s.linkEvent t (.bundle b)).laneChanged b.val a lane seen.spare).modLink (linkKey (.bundle b)) fun x =>
        x.switched (linkKey (.bundle b)) cmd.toNat
      .next (if (v.link (linkKey (.bundle b))).rxWidth.isSome then v
        else match (v.bundle b.val).wait with
          | [] => v
          | i :: r => (v.modBundle b.val fun x => { x with wait := r }).changeLane b.val i) := by
  rw [execWidthSwitch]
  dsimp only
  rw [if_neg (not_or.2 ⟨not_not.2 up, Nat.not_lt.2 half⟩), if_pos serves]
  rfl

theorem execWidthSwitch_bundle_unasked {b : Fin 16}
    (up : ((s.linkEvent t (.bundle b)).link (linkKey (.bundle b))).st = 1)
    (half : (s.linkEvent t (.bundle b)).rxWidthOf (.bundle b) ≤ 2 * seen.lanes)
    (serves : (((s.linkEvent t (.bundle b)).bundle b.val).lane lane).role = .service ∨ a = .add) :
    let w := (s.linkEvent t (.bundle b)).laneChanged b.val a lane seen.spare
    let v := w.setLink (linkKey (.bundle b)) (({ w.link (linkKey (.bundle b)) with rxLastCmd := some cmd.toNat } : Link).block
      (linkKey (.bundle b)) 6 cmd.toNat 0 0)
    (w.link (linkKey (.bundle b))).rxWidth = none → (v.link (linkKey (.bundle b))).rxWidth = none →
      (v.bundle b.val).wait = [] → execWidthSwitch t (.bundle b) cmd a lane seen s = .next v := by
  intro w v unasked done alone
  have same : (w.modLink (linkKey (.bundle b)) fun x => x.switched (linkKey (.bundle b)) cmd.toNat) = v :=
    congrArg (w.setLink _) (Link.switched_unasked unasked)
  rw [execWidthSwitch_bundle up half serves]
  dsimp only
  rw [same, done, alone]
  rfl

end

/-- Settles O40. That the flits and messages of a fenced bundle join a sibling without breaking a message apart, and that a free
value says which sibling, are model choices (notes/assumptions, rows 71 and 87). -/
theorem fencedBundlesAndWidths : Obligations.FencedBundlesAndWidths := by
  unfold Obligations.FencedBundlesAndWidths
  refine ⟨?_, ?_⟩
  · intro t b nextRx s u x
    refine ⟨fun sib more up fenced => ?_, execFenceNoteReceive_notFenced⟩
    intro n window moved begun
    exact ⟨execFenceNoteReceive_moves up fenced window, fun v e => State.moveEntry_mem v e sib more⟩
  · intro t link cmd a lane spare seen s k u x w
    refine ⟨execWidthReq_switches, ?_, fun v => execWidthReq_waits, execWidthReq_again, fun v => execWidthDone_last,
      fun v y ys up busy own more => ?_, execWidthDone_notUp, fun v => execWidthDone_other, ?_, ?_,
      execWidthSwitch_missed (seen := ⟨spare, seen⟩)⟩
    · rintro l p rfl up new none rfl
      exact execWidthReq_free (a := .add) (lane := lane) (spare := spare) up new none
    · exact ⟨execWidthDone_next up busy own more, State.takeTx_not_add⟩
    · rintro l p rfl up half unasked
      exact execWidthSwitch_port_unasked (seen := ⟨spare, seen⟩) up half unasked
    · rintro b rfl up half serves
      exact execWidthSwitch_bundle_unasked (seen := ⟨spare, seen⟩) up half serves

end Sys2Proof.Machine
end

section
/-! PROOFS. Lanes, bundles asleep, UCIe modules and the time base of a half (chapter 13: R292, R293, R301-R315). -/

namespace Sys2Proof.Machine

/-! ### Reading back a bundle, a lane and a Lantern that were changed -/

section

variable {s t : State}

theorem State.bundle_congr (same : t.bundles = s.bundles) (b : Nat) : t.bundle b = s.bundle b := by
  rw [State.bundle, State.bundle, same]

theorem State.lan_congr (same : t.lans = s.lans) (l : Nat) : t.lan l = s.lan l := by
  rw [State.lan, State.lan, same]

theorem State.bundle_modBundle (wf : twf Bundle.init s.bundles = true) (b : Nat) (f : Bundle → Bundle) :
    (s.modBundle b f).bundle b = f (s.bundle b) :=
  tget_tmod Bundle.init s.bundles b f wf

theorem State.lan_modLan (wf : twf Lantern.init s.lans = true) (l : Nat) (f : Lantern → Lantern) :
    (s.modLan l f).lan l = f (s.lan l) :=
  tget_tmod Lantern.init s.lans l f wf

theorem Bundle.lane_modLane {x : Bundle} (wf : twf Lane.init x.lanes = true) (i : Nat) (f : Lane → Lane) :
    (x.modLane i f).lane i = f (x.lane i) :=
  tget_tmod Lane.init x.lanes i f wf

theorem Bundle.lane_modLane_ne {x : Bundle} (wf : twf Lane.init x.lanes = true) {i j : Nat} (other : j ≠ i) (f : Lane → Lane) :
    (x.modLane i f).lane j = x.lane j :=
  tget_tmod_ne Lane.init x.lanes i j f wf other

end

/-! ### The time base of a half (R315) -/

section

variable {s : State} {t : Nat} {h : Half}

theorem execTimeBlock_arrives (linked : (s.link (8 + 4 * halfNo h)).st = 1 ∨ (s.link (9 + 4 * halfNo h)).st = 1) :
    execTimeBlock t h true s = .next ((s.atTime t).modArr h fun x => { x with unsync := false, unsyncLogged := [] }) := by
  have some : ([8 + 4 * halfNo h, 9 + 4 * halfNo h].any fun b => (s.link b).st == 1) = true := by
    simpa only [List.any_cons, List.any_nil, Bool.or_false, Bool.or_eq_true, beq_iff_eq] using linked
  exact congrArg _ (if_pos some)

theorem execTimeBlock_none (linked : (s.link (8 + 4 * halfNo h)).st = 1 ∨ (s.link (9 + 4 * halfNo h)).st = 1) :
    execTimeBlock t h false s = .next (s.atTime t) := by
  have some : ([8 + 4 * halfNo h, 9 + 4 * halfNo h].any fun b => (s.link b).st == 1) = true := by
    simpa only [List.any_cons, List.any_nil, Bool.or_false, Bool.or_eq_true, beq_iff_eq] using linked
  exact congrArg _ ((if_neg Bool.false_ne_true).trans (if_pos ((Bool.or_eq_true ..).mpr (.inl some))))

section

variable {arrived : Bool} (first : (s.link (8 + 4 * halfNo h)).st ≠ 1) (second : (s.link (9 + 4 * halfNo h)).st ≠ 1)
include first second

/-- With neither bundle up no block counts as arrived. -/
theorem execTimeBlock_cut : execTimeBlock t h arrived s = .next (if (s.arr.get h).unsync then s.atTime t
    else ({ s.atTime t with free := s.free + 1 } : State).modArr h fun x =>
      { x with unsync := true, ownCount := (Config.freeValue s.free).toNat }) := by
  have cut : ([8 + 4 * halfNo h, 9 + 4 * halfNo h].any fun b => (s.link b).st == 1) = false := by
    simpa only [List.any_cons, List.any_nil, Bool.or_false, Bool.or_eq_false_iff, beq_eq_false_iff_ne] using
      And.intro first second
  rw [execTimeBlock]
  simp only [State.atTime_link_of, cut, Bool.and_false, Bool.false_or, Bool.false_eq_true, if_false]
  rfl

theorem execTimeBlock_lost (heard : (s.arr.get h).unsync = false) :
    ∃ n, execTimeBlock t h arrived s = .next (({ s.atTime t with free := s.free + 1 } : State).modArr h fun x =>
      { x with unsync := true, ownCount := n }) :=
  ⟨_, (execTimeBlock_cut first second).trans (congrArg _ (if_neg (Bool.eq_false_iff.1 heard)))⟩

theorem execTimeBlock_stillLost (own : (s.arr.get h).unsync = true) : execTimeBlock t h arrived s = .next (s.atTime t) :=
  (execTimeBlock_cut first second).trans (congrArg _ (if_pos own))

end

end

/-! ### Sleep (R307, R308) -/

section

variable {s : State} {t : Nat} {b : Fin 16}

theorem State.sleepDepth_suspended (low : 2 ≤ s.pwr.st) : s.sleepDepth b.val = some (decide (b.val < 8)) := if_pos low

theorem execBundleSleep_sleeps {deep : Bool} (depth : s.sleepDepth b.val = some deep) (up : (s.link b.val).st = 1)
    (awake : (s.bundle b.val).txAsleep = false) (queue : (s.link b.val).queue = []) (acked : (s.link b.val).unacked = [])
    (reported : ∀ vc < 4, tget 0 (s.link b.val).freed vc = tget 0 (s.link b.val).reported vc)
    (idle : (s.bundle b.val).idleSince + (s.bundle b.val).idleTime ≤ max s.now t) :
    execBundleSleep t b s =
      .next ((s.atTime t).modBundle b.val fun x => { x with txAsleep := true, rxAsleep := deep }).oculusUpdate := by
  have depthAt : (s.atTime t).sleepDepth b.val = some deep := depth
  have quiet : (s.atTime t).bundleQuiet b.val = true := by
    simp only [State.bundleQuiet, State.atTime_link_of, queue, acked, List.isEmpty_nil, Bool.and_self, Bool.true_and,
      List.all_eq_true, List.mem_range, beq_iff_eq]
    exact reported
  have idleAt : (s.bundle b.val).idleSince + (s.bundle b.val).idleTime ≤ (s.atTime t).now := idle
  simp only [execBundleSleep, depthAt, quiet, State.atTime_link_of, State.atTime_bundle_of, up, awake, idleAt, beq_self_eq_true,
    Bool.not_false, decide_true, Bool.and_self, if_true]

theorem execBundleSleep_busy (queue : (s.link b.val).queue ≠ []) : execBundleSleep t b s = .next (s.atTime t) := by
  have busy : (s.atTime t).bundleQuiet b.val = false := by
    simp only [State.bundleQuiet, State.atTime_link_of, Bool.eq_false_iff.2 (mt List.isEmpty_iff.1 queue), Bool.false_and]
  rw [execBundleSleep, busy]
  split
  · simp only [Bool.and_false, Bool.false_and, Bool.false_eq_true, if_false]
  · rfl

theorem execBundleWake_wakes (asleep : (s.bundle b.val).txAsleep = true) :
    execBundleWake t b s = .next ((s.atTime t).modBundle b.val fun x => { x with
      txAsleep := false, rxAsleep := false, idleSince := max s.now t }).oculusUpdate :=
  congrArg _ (if_pos asleep)

theorem execBundleWake_awake (awake : (s.bundle b.val).txAsleep = false) : execBundleWake t b s = .next (s.atTime t) :=
  congrArg _ (if_neg (Bool.eq_false_iff.1 awake))

end

/-! ### Modules (R313) -/

section

variable {s : State} {t : Nat} {l : Fin 8} {m : Fin 5}

/-- A module of a Lantern taken out of use, with its record and its fault. -/
def State.loseModule (s : State) (l m : Nat) : State :=
  ((s.modLan l fun x => { x with modules := x.modules.filter (· ≠ m) }).oculusUpdate).report (srcLink (portKey l 0)) .contained
    0x0B m

theorem State.loseModule_modules (wf : twf Lantern.init s.lans = true) (l m : Nat) :
    ((s.loseModule l m).lan l).modules = (s.lan l).modules.filter (· ≠ m) := by
  have lans : (s.loseModule l m).lans = (s.modLan l fun x => { x with modules := x.modules.filter (· ≠ m) }).lans :=
    (State.report_lans ..).trans (State.oculusUpdate_lans _)
  rw [State.lan_congr lans, State.lan_modLan wf]

theorem execUcieModuleLoss_out (out : (s.lan l.val).modules.contains m.val = false) :
    execUcieModuleLoss t l m s = .next (s.atTime t) := by
  refine congrArg _ (if_pos ?_)
  rw [State.atTime_lan_of, out, Bool.not_false, Bool.or_true]

section

variable (lit : (s.lan l.val).fenced = false) (wf : twf Lantern.init s.lans = true)
  (serves : (s.lan l.val).modules.contains m.val = true)
include lit wf serves

theorem execUcieModuleLoss_lost : execUcieModuleLoss t l m s =
    .next (if ((s.lan l.val).modules.filter (· ≠ m.val)).length ≤ 3 then
        ((s.atTime t).loseModule l.val m.val).fenceLantern l.val 0x0B
      else (s.atTime t).loseModule l.val m.val) := by
  have left : (((s.atTime t).loseModule l.val m.val).lan l.val).modules = (s.lan l.val).modules.filter (· ≠ m.val) :=
    State.loseModule_modules (s := s.atTime t) wf l.val m.val
  rw [← left]
  refine congrArg _ (if_neg ?_)
  rw [State.atTime_lan_of, lit, serves, Bool.not_true, Bool.or_self]
  exact Bool.false_ne_true

end

end

/-- Settles O31. That a bundle's sleep and its waking are Oculus updates is the model's reading (notes/assumptions, row 23). -/
theorem bundlesModulesAndTime : Obligations.BundlesModulesAndTime := by
  unfold Obligations.BundlesModulesAndTime
  refine ⟨fun t s => ?_, fun t b s => ?_, fun t l m s lit wf => ?_⟩
  · exact ⟨execTimeBlock_arrives (h := .west), execTimeBlock_arrives (h := .east), execTimeBlock_none (h := .west),
      execTimeBlock_none (h := .east), fun arrived => execTimeBlock_lost (h := .west),
      fun arrived => execTimeBlock_lost (h := .east), fun h arrived => execTimeBlock_stillLost⟩
  · exact ⟨fun deep => execBundleSleep_sleeps, State.sleepDepth_suspended, execBundleSleep_busy, execBundleWake_wakes,
      execBundleWake_awake⟩
  · intro left u
    exact ⟨fun serves more => (execUcieModuleLoss_lost lit wf serves).trans (congrArg _ (if_neg (Nat.not_le.2 more))),
      fun serves few => (execUcieModuleLoss_lost lit wf serves).trans (congrArg _ (if_pos few)), execUcieModuleLoss_out⟩

/-! ### Lanes measured (R301, R309, R434) -/

/-- A lane measured at a figure of merit that is not low, counted for the hour. -/
def Bundle.measure (x : Bundle) (i fom : Nat) : Bundle := (x.modLane i fun y => { y with fom := fom, low := 0 }).noteFom i fom

section

variable {x : Bundle} {i j : Nat} (wf : twf Lane.init x.lanes = true)
include wf

theorem Bundle.measure_wf (fom : Nat) : twf Lane.init (x.measure i fom).lanes = true :=
  twf_tmod Lane.init i (fun y => { y with fom := fom, low := 0 }) wf

theorem Bundle.measure_low (fom : Nat) : ((x.measure i fom).lane i).low = 0 :=
  congrArg Lane.low (Bundle.lane_modLane wf i fun y => { y with fom := fom, low := 0 })

theorem Bundle.measure_lane_ne (other : j ≠ i) (fom : Nat) : (x.measure i fom).lane j = x.lane j :=
  Bundle.lane_modLane_ne wf other fun y => { y with fom := fom, low := 0 }

omit wf in
/-- After lanes are measured each of them has no low figure behind it, and a lane that had none has none. -/
theorem Bundle.foldl_measure_low (foms : Nat → Nat) (l : List Nat) : ∀ {x : Bundle}, twf Lane.init x.lanes = true →
    j ∈ l ∨ (x.lane j).low = 0 → ((l.foldl (fun x i => x.measure i (foms i)) x).lane j).low = 0 := by
  induction l with
  | nil => exact fun _ h => h.resolve_left List.not_mem_nil
  | cons i l ih =>
    intro x wf h
    refine ih (Bundle.measure_wf wf _) ?_
    by_cases same : j = i
    · subst same
      exact .inr (Bundle.measure_low wf _)
    · rw [Bundle.measure_lane_ne wf same]
      exact h.imp_left fun mem => (List.mem_cons.1 mem).resolve_left same

end

section

variable {s : State} {t lane : Nat} {b : Fin 16} {eyes : List Eye}

theorem execLaneFomMeasure_off (off : (s.bundle b.val).st ≠ 1) : execLaneFomMeasure t b eyes s = .next (s.atTime t) :=
  congrArg _ (if_neg fun on => off on.1)

/-- The lanes in service and the spares that a measurement of so many lanes reaches. -/
def Bundle.measured (x : Bundle) (b n : Nat) : List Nat :=
  (List.range (lanesOf b)).filter fun i => ((x.lane i).role == .service || (x.lane i).role == .spare) && decide (i < n)

theorem Bundle.lt_of_mem_measured {x : Bundle} {b n i : Nat} (mem : i ∈ x.measured b n) : i < n := by
  have reached := (List.mem_filter.1 mem).2
  rw [Bool.and_eq_true, decide_eq_true_iff] at reached
  exact reached.2

theorem Eye.getD_foms_ge (high : ∀ e ∈ eyes, 40 ≤ Eye.fom e) {i : Nat} (inside : i < eyes.length) :
    ¬ (eyes.map Eye.fom).getD i 0 < 40 := by
  rw [List.getD_eq_getElem _ _ (by rwa [List.length_map]), List.getElem_map]
  exact Nat.not_lt.2 (high _ (List.getElem_mem inside))

/-- Lanes measured, a figure below 40 counted against its lane. -/
def Bundle.sample (x : Bundle) (foms l : List Nat) : Bundle :=
  l.foldl (fun x i => (x.modLane i fun y => { y with
    fom := foms.getD i 0, low := if foms.getD i 0 < 40 then y.low + 1 else 0 }).noteFom i (foms.getD i 0)) x

theorem Bundle.sample_high {x : Bundle} {foms l : List Nat} (high : ∀ i ∈ l, ¬ foms.getD i 0 < 40) :
    x.sample foms l = l.foldl (fun x i => x.measure i (foms.getD i 0)) x := by
  refine List.foldl_ext _ _ _ fun x i mem => ?_
  simp only [if_neg (high i mem), Bundle.measure]

section

variable (up : (s.bundle b.val).st = 1) (awake : (s.bundle b.val).rxAsleep = false)
include up awake

/-- Every lane is sampled, then those with a hundred low figures are declared failed. -/
theorem execLaneFomMeasure_on : execLaneFomMeasure t b eyes s =
    let l := (s.bundle b.val).measured b.val (eyes.map Eye.fom).length
    let v := (s.atTime t).modBundle b.val fun x => x.sample (eyes.map Eye.fom) l
    .next ((l.filter fun i => decide (100 ≤ ((v.bundle b.val).lane i).low)).foldl (fun s i => s.declareLane b.val i) v) :=
  congrArg _ (if_pos ⟨up, awake⟩)

theorem execLaneFomMeasure_high (high : ∀ e ∈ eyes, 40 ≤ Eye.fom e) (wf : twf Bundle.init s.bundles = true)
    (lanesWf : twf Lane.init (s.bundle b.val).lanes = true) :
    execLaneFomMeasure t b eyes s = .next ((s.atTime t).modBundle b.val fun x =>
      ((s.bundle b.val).measured b.val eyes.length).foldl (fun x i => x.measure i ((eyes.map Eye.fom).getD i 0)) x) := by
  have sampled (x : Bundle) : x.sample (eyes.map Eye.fom) ((s.bundle b.val).measured b.val eyes.length) =
      ((s.bundle b.val).measured b.val eyes.length).foldl (fun x i => x.measure i ((eyes.map Eye.fom).getD i 0)) x :=
    Bundle.sample_high fun i mem => Eye.getD_foms_ge high (Bundle.lt_of_mem_measured mem)
  rw [execLaneFomMeasure_on up awake]
  simp only [List.length_map, sampled, State.bundle_modBundle (s := s.atTime t) wf]
  rw [List.filter_eq_nil_iff.2, List.foldl_nil]
  intro i mem
  rw [State.atTime_bundle_of, Bundle.foldl_measure_low (fun i => (eyes.map Eye.fom).getD i 0) _ lanesWf (.inl mem)]
  exact Bool.false_ne_true

end

/-! ### Lanes declared failed, swept and read (R292, R293, R302, R309) -/

theorem execLaneFailure_low (often : 100 ≤ ((s.bundle b.val).lane lane).low) :
    execLaneFailure t b lane .lowFom s = .next ((s.atTime t).declareLane b.val lane) :=
  congrArg _ (if_pos often)

theorem execLaneFailure_seldom (seldom : ((s.bundle b.val).lane lane).low < 100) :
    execLaneFailure t b lane .lowFom s = .next (s.atTime t) :=
  congrArg _ (if_neg (Nat.not_le.2 seldom))

theorem execLaneFailure_headers (blocks : List RawBlock) :
    execLaneFailure t b lane (.invalidHeaders blocks) s =
      .next (if 64 < ((((s.atTime t).receiveBlocks b.val lane blocks).bundle b.val).lane lane).invalid then
        ((s.atTime t).receiveBlocks b.val lane blocks).declareLane b.val lane
      else (s.atTime t).receiveBlocks b.val lane blocks) := rfl

theorem State.receiveBlocks_invalid (wf : twf Bundle.init s.bundles = true)
    (lanesWf : twf Lane.init (s.bundle b.val).lanes = true) (blocks : List RawBlock) :
    (((s.receiveBlocks b.val lane blocks).bundle b.val).lane lane).invalid =
      (if ((s.bundle b.val).lane lane).window = s.dieNow (rxDie b.val) / 10 ^ 6 then ((s.bundle b.val).lane lane).invalid else 0) +
        (LaneRx.run ((s.bundle b.val).lane lane).line blocks).invalid := by
  rw [State.receiveBlocks, State.modLink, State.bundle_congr (State.setLink_bundles ..), State.bundle_modBundle wf,
    Bundle.lane_modLane lanesWf]

theorem State.declareLane_spare (spare : ((s.bundle b.val).lane lane).role = .spare) :
    s.declareLane b.val lane = ((s.modBundle b.val fun x =>
      x.modLane lane fun y => { y with role := .failed, low := 0 }).oculusUpdate).report (srcLink b.val) .corrected 4 lane := by
  simp only [State.declareLane, spare]

theorem execSpareEqSweep_keeps {c : Nat} {cs : List Nat} (spare : ((s.bundle b.val).lane lane).role = .spare)
    (best : byFom ((eyes.take 16).map Eye.fom) = c :: cs) :
    execSpareEqSweep t b lane eyes s = .next ((s.atTime t).modBundle b.val fun x =>
      x.modLane lane fun y => { y with ctle := c, fom := ((eyes.take 16).map Eye.fom).getD c 0 }) := by
  simp only [execSpareEqSweep, fomsOf, best, State.atTime_bundle_of, spare, if_true]

end

section

variable {s u : State} {t id : Nat} {a : Acc}

theorem execLaneBitslip_reads (ready : s.Ready t id 0x0A10 a u) (read : a.par 18 1 = 0) : execLaneBitslip t id s =
    .next (u.reply a stOK ((u.bundle (a.par 16 1)).lane (a.par 17 1)).slip 0 0) := by
  refine (State.act_of_ready ready _).trans ?_
  simp only [read, Nat.zero_ne_one, if_false]

theorem execLaneBitslip_slips (ready : s.Ready t id 0x0A10 a u) (slips : a.par 18 1 = 1)
    (wf : twf Bundle.init u.bundles = true) (lanesWf : twf Lane.init (u.bundle (a.par 16 1)).lanes = true) :
    execLaneBitslip t id s = .next ((u.modBundle (a.par 16 1) fun x => x.modLane (a.par 17 1) fun y => { y with
      slip := (y.slip + a.par 19 1) % 64 }).reply a stOK
        ((((u.bundle (a.par 16 1)).lane (a.par 17 1)).slip + a.par 19 1) % 64) 0 0) := by
  refine (State.act_of_ready ready _).trans ?_
  simp only [slips, if_true, State.bundle_modBundle wf, Bundle.lane_modLane lanesWf]

theorem State.fomWords_service {b i : Nat} (serves : ((u.bundle b).lane i).role = .service) :
    u.fomWords b i = ((u.bundle b).fomOf i + ((u.bundle b).lane i).ctle * 2 ^ 8 + (u.bundle b).speed * 2 ^ 12 + 2 ^ 16 +
      (if (u.bundle b).txAsleep then 2 ^ 19 else 0) + (if (u.bundle b).rxAsleep then 2 ^ 20 else 0), 0, 0) := by
  have role : (tget Lane.init (u.bundle b).lanes i).role = .service := serves
  simp only [State.fomWords, role, packBits, Nat.shiftLeft_eq, b2n, reduceCtorEq, decide_true, decide_false, Bool.false_eq_true,
    if_true, if_false, Bundle.lane, ite_mul, Nat.one_mul, Nat.zero_mul, Nat.pow_zero, Nat.mul_one, Nat.zero_add, Nat.add_zero,
    Nat.add_assoc]

end

/-- Settles O34. -/
theorem lanesAreWatched : Obligations.LanesAreWatched := by
  unfold Obligations.LanesAreWatched
  refine ⟨fun t b s => ?_, fun t id s u a => ?_⟩
  · refine ⟨fun eyes up awake => execLaneFomMeasure_high up awake, fun _ _ _ => rfl, fun eyes => execLaneFomMeasure_off,
      fun _ => rfl,
      fun lane => execLaneFailure_low, fun lane blocks wf lanesWf => ?_, fun lane => execLaneFailure_seldom,
      fun lane => State.declareLane_spare, fun lane c cs eyes => execSpareEqSweep_keeps⟩
    intro y r w n v
    have counted : (((v.bundle b.val).lane lane).invalid) = n :=
      State.receiveBlocks_invalid (s := s.atTime t) wf lanesWf blocks
    rw [← counted]
    exact execLaneFailure_headers blocks
  · refine ⟨execLaneBitslip_reads, execLaneBitslip_slips, fun taken => ?_⟩
    intro x y b serves _ _ _
    refine (State.actOn_of_taken taken _).trans ?_
    rw [State.fomWords_service serves]

end Sys2Proof.Machine
end

section
/-! PROOFS. Calibration gaps and their policy (chapter 15: R282, R364-R366). -/

namespace Sys2Proof.Machine

section

variable {s : State} {t l : Nat}

theorem State.dueGap_starts (free : s.gapFree l = true) (due : s.gapDue l = true) :
    s.dueGap l = (s.startGap l).oculusUpdate :=
  if_pos ((Bool.and_eq_true ..).mpr ⟨free, due⟩)

theorem State.dueGap_waits (waits : (s.gapFree l && s.gapDue l) = false) : s.dueGap l = s := if_neg (Bool.eq_false_iff.1 waits)

theorem State.dueGap_notFree (busy : s.gapFree l = false) : s.dueGap l = s :=
  State.dueGap_waits (by rw [busy, Bool.false_and])

/-- A Lantern in a gap, in a drain, or without light is not free for a gap (R365). -/
theorem State.gapFree_eq_false
    (busy : (s.lan l).gap ≠ none ∨ (s.lan l).drain ≠ none ∨ (s.lan l).fenced = true ∨ 2 < s.pwr.st) :
    s.gapFree l = false := by
  obtain gap | drain | fenced | low := busy
  · simp only [State.gapFree, Option.isNone_eq_false_iff.2 (Option.isSome_iff_ne_none.2 gap), Bool.false_and]
  · simp only [State.gapFree, Option.isNone_eq_false_iff.2 (Option.isSome_iff_ne_none.2 drain), Bool.and_false, Bool.false_and]
  · simp only [State.gapFree, fenced, Bool.not_true, Bool.and_false, Bool.false_and]
  · simp only [State.gapFree, decide_eq_false (Nat.not_le.2 low), Bool.and_false, Bool.false_and]

end

section

variable {s : State} {t : Nat} {l : Fin 8} {p : Fin 16}

theorem execCalGapTimeout_late {g : Gap} (gap : (s.lan l.val).gap = some g) (waits : g.ports.contains p.val = true)
    (late : g.since + 5 * 10 ^ 6 ≤ max s.now t) : execCalGapTimeout t l p s =
      .next (((s.atTime t).modLPort l.val p.val fun y => { y with
        txDropped := tset none y.txDropped g.wave (some (max s.now t)) }).portSettled l.val p.val g.wave) := by
  have lateAt : g.since + 5 * 10 ^ 6 ≤ (s.atTime t).now := late
  simp only [execCalGapTimeout, State.atTime_lan_of, gap, waits, decide_eq_true lateAt, Bool.and_self, if_true]
  rfl

theorem execCalGapHoldEnd_holds {h : Nat} (held : (s.lan l.val).holdUntil = some h) (early : max s.now t < h) :
    execCalGapHoldEnd t l s = .next (s.atTime t) := by
  have earlyAt : (s.atTime t).now < h := early
  simp only [execCalGapHoldEnd, State.atTime_lan_of, held, if_pos earlyAt]

theorem execCalGapHoldEnd_ends {h : Nat} (held : (s.lan l.val).holdUntil = some h) (passed : h ≤ max s.now t) :
    execCalGapHoldEnd t l s =
      .next (((s.atTime t).modLan l.val fun x => { x with gapMode := 0, holdUntil := none }).dueGap l.val) := by
  have overAt : ¬ (s.atTime t).now < h := Nat.not_lt.2 passed
  simp only [execCalGapHoldEnd, State.atTime_lan_of, held, if_neg overAt]

end

/-! ### CAL_GAP_POLICY (R282) -/

section

variable {s u : State} {t id l period hold : Nat} {a : Acc}

/-- A Lantern's period as a policy sets it: 0 leaves it as it is. -/
def State.gapPeriodSet (s : State) (l period : Nat) : State :=
  if period = 0 then s else s.modLan l fun x => { x with gapPeriod := period }

theorem State.gapPolicy_gap_free (free : (s.gapPeriodSet l period).gapFree l = true) :
    s.gapPolicy l 2 period hold = ((s.gapPeriodSet l period).startGap l).oculusUpdate :=
  if_pos free

theorem State.gapPolicy_gap_later (busy : (s.gapPeriodSet l period).gapFree l = false) :
    s.gapPolicy l 2 period hold = (s.gapPeriodSet l period).modLan l fun x => { x with gapAsked := true } :=
  if_neg (Bool.eq_false_iff.1 busy)

theorem State.gapPolicy_normal (free : ((s.gapPeriodSet l period).lan l).gapMode ≠ 1) :
    s.gapPolicy l 0 period hold = (s.gapPeriodSet l period).modLan l fun x => { x with gapMode := 0, holdUntil := none } :=
  if_neg (by rw [decide_eq_true_iff]; exact free)

theorem execCalGapPolicy_one (ready : s.Ready t id 0x0620 a u) (one : a.par 16 1 ≠ 0xFF) : execCalGapPolicy t id s =
    .next ((u.gapPolicy (a.par 16 1) (a.par 17 1) (a.par 20 4) (a.par 24 4)).reply a stOK (u.lan (a.par 16 1)).gapPeriod 0
      0) := by
  refine (State.act_of_ready ready _).trans ?_
  rw [State.calGapPolicy, if_neg one, List.foldl_cons, List.foldl_nil, List.headD_cons]

theorem execCalGapPolicy_all (ready : s.Ready t id 0x0620 a u) (all : a.par 16 1 = 0xFF) : execCalGapPolicy t id s =
    .next (((List.range 8).foldl (fun v l => v.gapPolicy l (a.par 17 1) (a.par 20 4) (a.par 24 4)) u).reply a stOK
      (u.lan 0).gapPeriod 0 0) := by
  refine (State.act_of_ready ready _).trans ?_
  rw [State.calGapPolicy, if_pos all]
  rfl

end

/-- Settles O42. -/
theorem calibrationGaps : Obligations.CalibrationGaps := by
  unfold Obligations.CalibrationGaps
  intro t id l s
  refine ⟨fun free due => congrArg _ (State.dueGap_starts free due), fun busy => congrArg _ (State.dueGap_notFree busy),
    State.gapFree_eq_false, fun p g => execCalGapTimeout_late, fun h => execCalGapHoldEnd_holds, fun h held passed => ?_,
    fun period hold => ?_, fun u a ready => ⟨execCalGapPolicy_one ready, execCalGapPolicy_all ready⟩⟩
  · have ends := execCalGapHoldEnd_ends held passed
    exact ⟨fun free due => ends.trans (congrArg _ (State.dueGap_starts free due)),
      fun busy => ends.trans (congrArg _ (State.dueGap_notFree busy))⟩
  · exact ⟨rfl, State.gapPolicy_gap_free, State.gapPolicy_gap_later, State.gapPolicy_normal⟩

end Sys2Proof.Machine
end

section
/-! PROOFS. Wavelengths that drop and come back (chapter 15: R357, R359-R361). -/

namespace Sys2Proof.Machine

/-! ### Reading back a port and a wavelength that were changed -/

section

variable {s : State} {l p k : Nat}

theorem Lantern.port_modPort {x : Lantern} (wf : twf LPort.init x.ports = true) (f : LPort → LPort) :
    (x.modPort p f).port p = f (x.port p) :=
  tget_tmod LPort.init x.ports p f wf

theorem State.port_modLPort (wf : twf Lantern.init s.lans = true) (ports : twf LPort.init (s.lan l).ports = true)
    (f : LPort → LPort) : ((s.modLPort l p f).lan l).port p = f ((s.lan l).port p) := by
  rw [State.modLPort, State.lan_modLan wf, Lantern.port_modPort ports]

theorem State.modLan_wf (wf : twf Lantern.init s.lans = true) (l : Nat) (f : Lantern → Lantern) :
    twf Lantern.init (s.modLan l f).lans = true :=
  twf_tmod Lantern.init l f wf

theorem LPort.wave_modWave {x : LPort} (wf : twf WaveRx.init x.fec = true) (f : WaveRx → WaveRx) :
    (x.modWave k f).wave k = f (x.wave k) :=
  tget_tmod WaveRx.init x.fec k f wf

@[simp] theorem Lantern.count_port (x : Lantern) (i n : Nat) : (x.count i n).port p = x.port p := rfl

theorem Lantern.counts_count {x : Lantern} (wf : twf 0 x.counts = true) (i n : Nat) :
    tget 0 (x.count i n).counts i = tget 0 x.counts i + n :=
  tget_tmod 0 x.counts i (· + n) wf

theorem Lantern.counts_count_ne {x : Lantern} (wf : twf 0 x.counts = true) {i j : Nat} (other : j ≠ i) (n : Nat) :
    tget 0 (x.count i n).counts j = tget 0 x.counts j :=
  tget_tmod_ne 0 x.counts i j (· + n) wf other

end

theorem lambdaAddr_rx (p k : Nat) : lambdaAddr p k false = k * 256 + p := by
  simp only [lambdaAddr, b2n, Bool.false_eq_true, if_false, Nat.zero_mul, Nat.zero_add, Nat.reducePow]

theorem lambdaAddr_tx (p k : Nat) : lambdaAddr p k true = 4096 + k * 256 + p := rfl

/-! ### Codewords (R357, R359) -/

section

variable {s : State} {l p k : Nat} {words : List (List Sym)}

theorem WaveRx.failed_iff {w : WaveRx} : w.failed = true ↔ w.lock.locked = false ∨ 16 < w.bad := by
  rw [WaveRx.failed, Bool.or_eq_true, Bool.not_eq_true', decide_eq_true_iff]

section

/-- A wavelength's receiver after codewords that its decoder takes in. -/
def State.heard (s : State) (l p k : Nat) (words : List (List Sym)) (x : WaveRx) : WaveRx := {
  lock := words.foldl FecLock.take x.lock, line := (LaneRx.run (((s.lan l).port p).wave k).line (wordBlocks words)).line,
  window := s.dieNow (rxDie (portKey l p)) / 10 ^ 6,
  bad := (if x.window = s.dieNow (rxDie (portKey l p)) / 10 ^ 6 then x.bad else 0) + uncorrectable words }

variable (held : (((s.lan l).port p).wave k).lock.held words = words) (wf : twf Lantern.init s.lans = true)
include held wf

theorem State.receiveWords_lan : (s.receiveWords l p k words).lan l =
    (((s.lan l).modPort p fun y => y.modWave k (s.heard l p k words)).count 2 (uncorrectable words)).count (0x20 + p)
      (uncorrectable words) := by
  rw [State.receiveWords, held, State.modLink, State.lan_congr (State.setLink_lans ..), State.modLPort,
    State.lan_modLan (State.modLan_wf wf l _), State.lan_modLan wf]
  rfl

/-- What codewords leave at the wavelength that receives them. -/
theorem State.receiveWords_wave (ports : twf LPort.init (s.lan l).ports = true)
    (fec : twf WaveRx.init ((s.lan l).port p).fec = true) :
    (((s.receiveWords l p k words).lan l).port p).wave k = s.heard l p k words (((s.lan l).port p).wave k) := by
  rw [State.receiveWords_lan held wf, Lantern.count_port, Lantern.count_port, Lantern.port_modPort ports, LPort.wave_modWave fec]

/-- The counts of a Lantern after codewords on one of its wavelengths. -/
theorem State.receiveWords_counts (counts : twf 0 (s.lan l).counts = true) :
    tget 0 ((s.receiveWords l p k words).lan l).counts 2 = tget 0 (s.lan l).counts 2 + uncorrectable words ∧
      tget 0 ((s.receiveWords l p k words).lan l).counts (0x20 + p) =
        tget 0 (s.lan l).counts (0x20 + p) + uncorrectable words := by
  have counted : ((s.receiveWords l p k words).lan l).counts =
      (((s.lan l).count 2 (uncorrectable words)).count (0x20 + p) (uncorrectable words)).counts := by
    rw [State.receiveWords_lan held wf]
    rfl
  have first : twf 0 ((s.lan l).count 2 (uncorrectable words)).counts = true := twf_tmod 0 2 (· + uncorrectable words) counts
  rw [counted]
  constructor
  · rw [Lantern.counts_count_ne first (by omega), Lantern.counts_count counts]
  · rw [Lantern.counts_count first, Lantern.counts_count_ne counts (by omega)]

end

end

section

variable {s : State} {t : Nat} {l : Fin 8} {p k : Fin 16}

section

variable (full : ((s.lan l.val).port p.val).light = lightFull)
include full

theorem execLambdaFail_ring (uses : bitOf ((s.lan l.val).port p.val).rx k.val = true)
    (kept : tget none ((s.lan l.val).port p.val).rxDropped k.val = none) :
    execLambdaFail t l p ⟨k, .ringLost⟩ s = .next ((s.atTime t).lambdaLost l.val p.val k.val) :=
  congrArg _ (if_pos ⟨full, uses, kept⟩)

theorem execLambdaFail_codewords (uses : bitOf ((s.lan l.val).port p.val).rx k.val = true)
    (kept : tget none ((s.lan l.val).port p.val).rxDropped k.val = none) (words : List (List Sym)) :
    execLambdaFail t l p ⟨k, .codewords words⟩ s =
      let v := (s.atTime t).receiveWords l.val p.val k.val words
      let w := ((v.lan l.val).port p.val).wave k.val
      .next (if w.lock.locked = false ∨ 16 < w.bad then v.lambdaLost l.val p.val k.val else v) := by
  refine (congrArg Host.Outcome.next (if_pos ⟨full, uses, kept⟩)).trans ?_
  simp only [WaveRx.failed_iff]

theorem execModRingLockLoss_drops (uses : bitOf ((s.lan l.val).port p.val).tx k.val = true)
    (kept : tget none ((s.lan l.val).port p.val).txDropped k.val = none) :
    execModRingLockLoss t l p k s = .next (((s.atTime t).modLPort l.val p.val fun y => { y with
      txDropped := tset none y.txDropped k.val (some (max s.now t)) }).startWidth (portKey l.val p.val) .drop k.val 0xFF) :=
  congrArg _ (if_pos ⟨full, uses, kept⟩)

end

theorem execLambdaFail_dark (dark : ((s.lan l.val).port p.val).light ≠ lightFull) (c : LambdaCause) :
    execLambdaFail t l p ⟨k, c⟩ s = .next (s.atTime t) :=
  congrArg _ (if_neg fun h => dark h.1)

theorem execModRingLockLoss_dark (dark : ((s.lan l.val).port p.val).light ≠ lightFull) :
    execModRingLockLoss t l p k s = .next (s.atTime t) :=
  congrArg _ (if_neg fun h => dark h.1)

/-! ### A wavelength locked again (R342, R359) -/

/-- A receiver with a clean lock again. -/
def State.relocked (s : State) (l p k : Nat) (words : List (List Sym)) : State :=
  s.modLPort l p fun y => y.modWave k fun x => { x with lock := FecLock.search words, bad := 0 }

/-- A dropped wavelength that its receiver takes in use again. -/
def State.addAgain (s : State) (l p k : Nat) (words : List (List Sym)) : State :=
  ((s.relocked l p k words).modLPort l p fun y => { y with
    dropLogged := y.dropLogged.filter (· ≠ 2 * k), rxDropped := tset none y.rxDropped k none }).requestWidth (portKey l p) .add k
      0xFF

variable {words : List (List Sym)} {skew since : Nat} {clean : Bool}

theorem execLambdaRelockAttempt_unfit (unfit : (FecLock.search words).locked = false ∨ maxSkew < skew) :
    execLambdaRelockAttempt t l p k false ⟨words, skew, clean⟩ s = .next (s.atTime t) := by
  have no : ((FecLock.search words).locked && decide (skew ≤ maxSkew)) = false := by
    obtain lost | far := unfit
    · rw [lost, Bool.false_and]
    · rw [decide_eq_false (Nat.not_le.2 far), Bool.and_false]
  simp only [execLambdaRelockAttempt, no, Bool.not_false, Bool.or_true, Bool.and_false, Bool.false_eq_true, if_true, if_false]
  split
  · rfl
  · split <;> rfl

section

variable (full : ((s.lan l.val).port p.val).light = lightFull)
include full

section

variable (locks : (FecLock.search words).locked = true) (near : skew ≤ maxSkew)
include locks near

theorem execLambdaRelockAttempt_again (dropped : tget none ((s.lan l.val).port p.val).rxDropped k.val = some since) :
    execLambdaRelockAttempt t l p k false ⟨words, skew, true⟩ s =
      let v := (s.atTime t).addAgain l.val p.val k.val words
      .next (if v.now ≤ since + 10 ^ 9 then v.report (srcLantern l.val) .corrected 2 (k.val * 256 + p.val) else v) := by
  simp only [execLambdaRelockAttempt, State.atTime_lan_of, full, dropped, locks, decide_eq_true near, ne_eq, not_true,
    Bool.not_true, Bool.and_self, Bool.or_self, Bool.false_eq_true, if_false, lambdaAddr_rx]
  rfl

theorem execLambdaRelockAttempt_gap (kept : tget none ((s.lan l.val).port p.val).rxDropped k.val = none)
    (gap : ((s.lan l.val).port p.val).rxGap.contains k.val = true) :
    execLambdaRelockAttempt t l p k false ⟨words, skew, clean⟩ s =
      .next ((((s.atTime t).relocked l.val p.val k.val words).modLPort l.val p.val fun y => { y with
        rxGap := y.rxGap.filter (· ≠ k.val) }).requestWidth (portKey l.val p.val) .add k.val 0xFF) := by
  simp only [execLambdaRelockAttempt, State.atTime_lan_of, full, kept, gap, locks, decide_eq_true near, ne_eq, not_true,
    Bool.and_self, Bool.false_eq_true, if_false, if_true]
  rfl

end

theorem execLambdaRelockAttempt_tx (dropped : tget none ((s.lan l.val).port p.val).txDropped k.val ≠ none) :
    execLambdaRelockAttempt t l p k true ⟨words, skew, true⟩ s =
      .next (((s.atTime t).reAdded l.val p.val k.val).startWidth (portKey l.val p.val) .add k.val 0xFF) := by
  simp only [execLambdaRelockAttempt, State.atTime_lan_of, full, Option.isSome_iff_ne_none.2 dropped, ne_eq, not_true,
    Bool.and_self, if_false, if_true]

end

theorem execLambdaRelockAttempt_tx_unclean :
    execLambdaRelockAttempt t l p k true ⟨words, skew, false⟩ s = .next (s.atTime t) := by
  simp only [execLambdaRelockAttempt, Bool.false_and, Bool.false_eq_true, if_false, if_true, ite_self]

theorem execLambdaRelockAttempt_unclean (noGap : ((s.lan l.val).port p.val).rxGap.contains k.val = false) :
    execLambdaRelockAttempt t l p k false ⟨words, skew, false⟩ s = .next (s.atTime t) := by
  simp only [execLambdaRelockAttempt, State.atTime_lan_of, noGap, Bool.not_false, Bool.true_or, Bool.false_and,
    Bool.false_eq_true, if_true, if_false]
  split
  · rfl
  · split <;> rfl

theorem State.reAdded_dropped (dropped : tget none ((s.lan l.val).port p.val).txDropped k.val = some since) :
    s.reAdded l.val p.val k.val =
      let v := s.modLPort l.val p.val fun y => { y with
        txDropped := tset none y.txDropped k.val none, dropLogged := y.dropLogged.filter (· ≠ 2 * k.val + 1) }
      if s.now ≤ since + 10 ^ 9 then v.report (srcLantern l.val) .corrected 2 (4096 + k.val * 256 + p.val) else v := by
  simp only [State.reAdded, dropped]
  rfl

/-! ### Wavelengths that stay away, and symbol errors (R359, R361) -/

theorem execLambdaDropTimeout_logs (dropped : tget none ((s.lan l.val).port p.val).rxDropped k.val = some since)
    (late : since + 10 ^ 9 ≤ max s.now t) (new : ((s.lan l.val).port p.val).dropLogged.contains (2 * k.val) = false) :
    execLambdaDropTimeout t l p k false s = .next (((s.atTime t).modLPort l.val p.val fun y => { y with
      dropLogged := y.dropLogged ++ [2 * k.val] }).report (srcLantern l.val) .contained 3 (k.val * 256 + p.val)) := by
  have lateAt : ¬ (s.atTime t).now < since + 10 ^ 9 := Nat.not_lt.2 late
  have newKey : ((s.lan l.val).port p.val).dropLogged.contains (dropKey k.val false) = false := new
  simp only [execLambdaDropTimeout, State.atTime_lan_of, Bool.false_eq_true, if_false, dropped, lateAt, newKey, or_self,
    lambdaAddr_rx]
  rfl

theorem execLambdaDropTimeout_early {tx : Bool}
    (dropped : tget none (if tx then ((s.lan l.val).port p.val).txDropped else ((s.lan l.val).port p.val).rxDropped) k.val =
      some since)
    (early : max s.now t < since + 10 ^ 9) : execLambdaDropTimeout t l p k tx s = .next (s.atTime t) := by
  have earlyAt : (s.atTime t).now < since + 10 ^ 9 := early
  simp only [execLambdaDropTimeout, State.atTime_lan_of, dropped, earlyAt, true_or, if_true]

/-- The symbol errors of a wavelength's last second kept and counted. -/
def State.noteErrors (s : State) (l p k errors : Nat) : State :=
  (s.modLPort l p fun y => { y with corrected := tset 0 y.corrected k errors }).modLan l fun x => x.count 1 errors

variable {errors symbols : Nat}

theorem execSerCheck_few (few : errors * 10 ^ 6 ≤ symbols) :
    execSerCheck t l p k errors symbols s = .next ((s.atTime t).noteErrors l.val p.val k.val errors) := by
  refine congrArg _ (if_neg ?_)
  rw [decide_eq_false (Nat.not_lt.2 few), Bool.false_and]
  exact Bool.false_ne_true

theorem execSerCheck_many (many : symbols < errors * 10 ^ 6)
    (unlogged : tget none (((s.atTime t).noteErrors l.val p.val k.val errors).lan l.val).serLogged (16 * p.val + k.val) = none) :
    execSerCheck t l p k errors symbols s =
      .next ((((s.atTime t).noteErrors l.val p.val k.val errors).modLan l.val fun x => { x with
        serLogged := tset none x.serLogged (16 * p.val + k.val) (some (max s.now t)) }).report (srcLantern l.val) .corrected 1
          (k.val * 256 + p.val)) := by
  refine congrArg _ (if_pos ?_)
  rw [decide_eq_true many, Bool.true_and]
  change (match tget none (((s.atTime t).noteErrors l.val p.val k.val errors).lan l.val).serLogged (16 * p.val + k.val) with
    | none => true
    | some x => decide (x + 60 * 10 ^ 9 ≤ _)) = true
  rw [unlogged]

end

/-- Settles O43. -/
theorem wavelengths : Obligations.Wavelengths := by
  unfold Obligations.Wavelengths
  intro t l p k s y key
  refine ⟨fun full uses kept => ⟨execLambdaFail_ring full uses kept, execLambdaFail_codewords full uses kept⟩, fun _ => rfl,
    fun words held wf ports fec counts => ?_, execModRingLockLoss_drops,
    fun dark => ⟨execLambdaFail_dark dark, execModRingLockLoss_dark dark⟩, fun since words dropped full locks skew near => ?_,
    fun words clean skew => execLambdaRelockAttempt_unfit,
    fun words clean skew kept gap full locks near => execLambdaRelockAttempt_gap full locks near kept gap,
    fun words skew dropped full => execLambdaRelockAttempt_tx full dropped, fun since dropped => ?_,
    fun words skew => execLambdaRelockAttempt_tx_unclean, fun words skew => execLambdaRelockAttempt_unclean,
    fun since => execLambdaDropTimeout_logs, fun tx since => execLambdaDropTimeout_early,
    fun e n => ⟨execSerCheck_few, execSerCheck_many⟩⟩
  · obtain ⟨all, port⟩ := State.receiveWords_counts (p := p.val) (k := k.val) held wf counts
    intro v w
    have wave : w = s.heard l.val p.val k.val words (y.wave k.val) := State.receiveWords_wave held wf ports fec
    rw [wave]
    exact ⟨rfl, rfl, all, port⟩
  · have again := execLambdaRelockAttempt_again (t := t) full locks near dropped
    exact ⟨fun soon => again.trans (congrArg _ (if_pos soon)), fun late => again.trans (congrArg _ (if_neg (Nat.not_le.2 late)))⟩
  · have added := State.reAdded_dropped dropped
    exact ⟨fun soon => added.trans (if_pos soon), fun late => added.trans (if_neg (Nat.not_le.2 late))⟩

end Sys2Proof.Machine
end

section
/-! PROOFS. Shells, light states and beacons (chapter 15: R374-R378). -/

namespace Sys2Proof.Machine

/-! ### Shutters (R378) -/

section

variable {found : List Nat} {f : Nat}

theorem badFibre_eq_none (tight : ∀ a ∈ found.take 16, 350 ≤ a) : badFibre found = none := by
  refine List.find?_range_eq_none.2 fun i inside => ?_
  have short : i < (found.take 16).length := by rwa [List.length_take]
  have len : i < found.length := by omega
  rw [List.getD_eq_getElem _ _ len, ← List.getElem_take (h := short),
    decide_eq_false (Nat.not_lt.2 (tight _ (List.getElem_mem short)))]
  rfl

theorem badFibre_eq_some (tight : ∀ a ∈ (found.take 16).take f, 350 ≤ a)
    (leaks : ∃ a, (found.take 16)[f]? = some a ∧ a < 350) : badFibre found = some f := by
  obtain ⟨a, place, low⟩ := leaks
  obtain ⟨short, rfl⟩ := List.getElem?_eq_some_iff.1 place
  have inside : f < min 16 found.length := by rwa [List.length_take] at short
  have len : f < found.length := by omega
  refine List.find?_range_eq_some.2 ⟨?_, List.mem_range.2 inside, fun j before => ?_⟩
  · rw [List.getD_eq_getElem _ _ len]
    rw [List.getElem_take] at low
    exact decide_eq_true low
  · have jShort : j < ((found.take 16).take f).length := by rw [List.length_take]; omega
    have jHigh := tight _ (List.getElem_mem jShort)
    rw [List.getElem_take, List.getElem_take] at jHigh
    rw [List.getD_eq_getElem _ _ (by omega), decide_eq_false (Nat.not_lt.2 jHigh)]
    rfl

end

section

variable {s : State} {t : Nat} {l : Fin 8} {p : Fin 16} {found : List Nat}

theorem State.testShutters_tight (tight : ∀ a ∈ found.take 16, 350 ≤ a) : s.testShutters l.val found = s := by
  simp only [State.testShutters, badFibre_eq_none tight]

theorem State.testShutters_leaks {f : Nat} (leaks : badFibre found = some f) (lit : (s.lan l.val).fenced = false) :
    s.testShutters l.val found = (s.report (srcLantern l.val) .contained 8 f).fenceLantern l.val 8 := by
  simp only [State.testShutters, leaks, lit, Bool.false_eq_true, if_false]

/-! ### The shell (R374, R382, R383) -/

section

variable (none : (s.lan l.val).drain = none)
include none

theorem execShellOpen_first (closed : (s.lan l.val).shell ≠ 1) : execShellOpen t ⟨l, found⟩ s =
    .next ((((((((s.atTime t).modLan l.val fun x => { x with present := false }).dropAll l.val lightDark true).modLan l.val
      fun x => { x with shell := 1 }).oculusUpdate).report (srcLantern l.val) .contained 10 0)).testShutters l.val found) := by
  simp only [execShellOpen, State.atTime_lan_of, none, closed, if_false]

theorem execShellOpen_again (opened : (s.lan l.val).shell = 1) : execShellOpen t ⟨l, found⟩ s =
    .next ((((s.atTime t).modLan l.val fun x => { x with present := false }).dropAll l.val lightDark true).testShutters l.val
      found) := by
  simp only [execShellOpen, State.atTime_lan_of, none, opened, if_true]

end

section

variable (drains : (s.lan l.val).drain ≠ none)
include drains

theorem execShellOpen_drained (done : (s.lan l.val).drainDone = true) : execShellOpen t ⟨l, found⟩ s =
    .next ((((((s.atTime t).modLan l.val fun x => { x with present := false }).modLan l.val fun x => { x with
      shell := 1, restoring := false }).dropAll l.val lightDark false).oculusUpdate).testShutters l.val found) := by
  obtain ⟨d, drain⟩ := Option.ne_none_iff_exists'.1 drains
  simp only [execShellOpen, State.atTime_lan_of, drain, done, if_true]

theorem execShellOpen_draining (waits : (s.lan l.val).drainDone = false) : execShellOpen t ⟨l, found⟩ s =
    .next (((((s.atTime t).modLan l.val fun x => { x with present := false }).modLan l.val fun x => { x with
      shell := 1, restoring := false }).completeDrain l.val).testShutters l.val found) := by
  obtain ⟨d, drain⟩ := Option.ne_none_iff_exists'.1 drains
  simp only [execShellOpen, State.atTime_lan_of, drain, waits, Bool.false_eq_true, if_false]

end

/-- A shell seen closed, with its record. -/
def State.closeShell (s : State) (l : Nat) : State :=
  (s.modLan l fun x => { x with present := true, shell := if x.drain.isSome then 2 else 0 }).oculusUpdate

theorem execShellClosed_closes : execShellClosed t l s =
    .next (if (((s.atTime t).closeShell l.val).lan l.val).drain.isSome then (s.atTime t).closeShell l.val
      else (((s.atTime t).closeShell l.val).relight l.val).dueGap l.val) := rfl

theorem execShellClosed_drain (drains : (((s.atTime t).closeShell l.val).lan l.val).drain ≠ none) :
    execShellClosed t l s = .next ((s.atTime t).closeShell l.val) := by
  rw [execShellClosed_closes, if_pos (Option.isSome_iff_ne_none.2 drains)]

theorem execShellClosed_relights (none : (((s.atTime t).closeShell l.val).lan l.val).drain = none) :
    execShellClosed t l s = .next ((((s.atTime t).closeShell l.val).relight l.val).dueGap l.val) := by
  rw [execShellClosed_closes, if_neg fun some => Option.isSome_iff_ne_none.1 some none]

theorem execRxLightLoss_falls
    (lit : ((s.lan l.val).port p.val).light = lightFull ∨ ((s.lan l.val).port p.val).light = lightRamp) :
    execRxLightLoss t l p s = .next (((s.atTime t).dropPort l.val p.val lightKeep true).oculusUpdate) := by
  simp only [execRxLightLoss, State.atTime_lan_of, lit, if_true]

theorem execRxLightLoss_low
    (low : ((s.lan l.val).port p.val).light = lightKeep ∨ ((s.lan l.val).port p.val).light = lightDark) :
    execRxLightLoss t l p s = .next (s.atTime t) := by
  refine congrArg _ (if_neg ?_)
  change ¬ (((s.lan l.val).port p.val).light = lightFull ∨ ((s.lan l.val).port p.val).light = lightRamp)
  obtain keep | dark := low
  · rw [keep]
    decide
  · rw [dark]
    decide

end

/-! ### Beacons (R375-R377) -/

/-- The READY or RAMP frames in a row once one more frame has come. -/
def LPort.framesAfter (y : LPort) (f : Nat) : Nat := if bitsOf f 17 16 = 1 ∨ bitsOf f 17 16 = 2 then y.frames + 1 else 0

/-- A port after a valid beacon frame, with the READY or RAMP frames that it has had in a row. -/
def LPort.readBeacon (y : LPort) (f n now : Nat) : LPort := { y with
  frames := n, lastFrame := some now, farSeen := true,
  farId := if bitOf f 33 then some (bitsOf f 32 18) else none, farLantern := bitsOf f 36 34, farPort := bitsOf f 40 37 }

section

variable {s : State} {t : Nat} {l : Fin 8} {p : Fin 16} {f : BitVec 64}

/-- The state once a port has read a valid frame. -/
def State.readBeacon (s : State) (l p f n : Nat) : State := s.modLPort l p fun y => y.readBeacon f n s.now

theorem execBeaconReceive_invalid (bad : beaconOk f = false) : execBeaconReceive t l p f s = .next (s.atTime t) := by
  simp only [execBeaconReceive, bad, Bool.not_false, if_true]

section

variable (ok : beaconOk f = true)
include ok

/-- A valid frame is read; a port that may sends READY; the third READY or RAMP frame in a row starts the ramp. -/
theorem execBeaconReceive_valid : execBeaconReceive t l p f s =
    let y := (s.lan l.val).port p.val
    let n := y.framesAfter f.toNat
    let v := (s.atTime t).readBeacon l.val p.val f.toNat n
    let w := if y.light = lightKeep ∧ y.retryAt = none ∧ v.ready l.val p.val = true then v.sendReady l.val p.val n else v
    .next (if ((w.lan l.val).port p.val).light = lightReady ∧ 3 ≤ n then
      ((w.setLight l.val p.val lightRamp).modLPort l.val p.val fun y => { y with rampAt := some w.now }).oculusUpdate
    else w) := by
  simp only [execBeaconReceive, ok, Bool.not_true, Bool.false_eq_true, if_false]
  rfl

/-- A port that does not fall under R376 for READY goes on from the frame it has read. -/
theorem execBeaconReceive_other (other : ((s.lan l.val).port p.val).light ≠ lightKeep) :
    let n := ((s.lan l.val).port p.val).framesAfter f.toNat
    let v := (s.atTime t).readBeacon l.val p.val f.toNat n
    execBeaconReceive t l p f s = .next (if ((v.lan l.val).port p.val).light = lightReady ∧ 3 ≤ n then
      ((v.setLight l.val p.val lightRamp).modLPort l.val p.val fun y => { y with rampAt := some v.now }).oculusUpdate
    else v) := by
  simp only [execBeaconReceive_valid ok, other, false_and, if_false]

theorem execBeaconReceive_full (full : ((s.lan l.val).port p.val).light = lightFull) :
    let v := (s.atTime t).readBeacon l.val p.val f.toNat (((s.lan l.val).port p.val).framesAfter f.toNat)
    ((v.lan l.val).port p.val).light = lightFull → execBeaconReceive t l p f s = .next v := by
  intro v still
  refine (execBeaconReceive_other ok (by rw [full]; decide)).trans (congrArg _ (if_neg fun starts => ?_))
  exact absurd (still.symm.trans starts.1) (by decide)

theorem execBeaconReceive_ready (ready : ((s.lan l.val).port p.val).light = lightReady) :
    let n := ((s.lan l.val).port p.val).framesAfter f.toNat
    let v := (s.atTime t).readBeacon l.val p.val f.toNat n
    ((v.lan l.val).port p.val).light = lightReady →
      (n < 3 → execBeaconReceive t l p f s = .next v) ∧
      (3 ≤ n → execBeaconReceive t l p f s = .next ((v.setLight l.val p.val lightRamp).modLPort l.val p.val fun y =>
        { y with rampAt := some v.now }).oculusUpdate) := by
  intro n v still
  have reads := execBeaconReceive_other (t := t) ok (show ((s.lan l.val).port p.val).light ≠ lightKeep by rw [ready]; decide)
  exact ⟨fun few => reads.trans (congrArg _ (if_neg fun starts => Nat.not_le.2 few starts.2)),
    fun third => reads.trans (congrArg _ (if_pos ⟨still, third⟩))⟩

theorem execBeaconReceive_keep (keep : ((s.lan l.val).port p.val).light = lightKeep)
    (free : ((s.lan l.val).port p.val).retryAt = none) (dark : bitsOf f.toNat 17 16 = 0)
    (may : ((s.atTime t).readBeacon l.val p.val f.toNat 0).ready l.val p.val = true) :
    execBeaconReceive t l p f s = .next (((s.atTime t).readBeacon l.val p.val f.toNat 0).sendReady l.val p.val 0) := by
  have no : ((s.lan l.val).port p.val).framesAfter f.toNat = 0 := by
    rw [LPort.framesAfter, dark]
    rfl
  simp only [execBeaconReceive_valid ok, keep, free, no, may, and_self, if_true, Nat.reduceLeDiff, and_false, if_false]

end

/-! ### Waits of a port that end (R376) -/

theorem execRampTimeout_late {r : Nat} (ramps : ((s.lan l.val).port p.val).rampAt = some r)
    (ramp : ((s.lan l.val).port p.val).light = lightRamp) (late : r + 10 ^ 7 ≤ max s.now t) :
    execRampTimeout t l p s = .next ((s.atTime t).backOff l.val p.val) := by
  have lateAt : r + 10 ^ 7 ≤ (s.atTime t).now := late
  simp only [execRampTimeout, State.atTime_lan_of, ramps, ramp, lateAt, and_self, if_true]

theorem execRampTimeout_none (none : ((s.lan l.val).port p.val).rampAt = none) :
    execRampTimeout t l p s = .next (s.atTime t) := by
  simp only [execRampTimeout, State.atTime_lan_of, none]

section

variable {b : Nat} (last : ((s.lan l.val).port p.val).lastFrame = some b)
include last

/-- Whether the beacon is 5 ms away is asked of the frame that came last. -/
theorem execBeaconTimeout_since : execBeaconTimeout t l p s =
    .next (if decide (b + 5 * 10 ^ 6 ≤ max s.now t) && ((s.lan l.val).port p.val).light == lightReady then
        (s.atTime t).backOff l.val p.val
      else if decide (b + 5 * 10 ^ 6 ≤ max s.now t) && ((s.lan l.val).port p.val).light == lightKeep then
        (s.atTime t).modLPort l.val p.val fun y => { y with farSeen := false }
      else s.atTime t) := by
  simp only [execBeaconTimeout, State.atTime_lan_of, last]
  rfl

theorem execBeaconTimeout_ready (late : b + 5 * 10 ^ 6 ≤ max s.now t)
    (ready : ((s.lan l.val).port p.val).light = lightReady) :
    execBeaconTimeout t l p s = .next ((s.atTime t).backOff l.val p.val) := by
  rw [execBeaconTimeout_since last, decide_eq_true late, ready]
  rfl

theorem execBeaconTimeout_keep (late : b + 5 * 10 ^ 6 ≤ max s.now t) (keep : ((s.lan l.val).port p.val).light = lightKeep) :
    execBeaconTimeout t l p s = .next ((s.atTime t).modLPort l.val p.val fun y => { y with farSeen := false }) := by
  rw [execBeaconTimeout_since last, decide_eq_true late, keep]
  rfl

theorem execBeaconTimeout_early (early : max s.now t < b + 5 * 10 ^ 6) : execBeaconTimeout t l p s = .next (s.atTime t) := by
  rw [execBeaconTimeout_since last, decide_eq_false (Nat.not_le.2 early)]
  rfl

end

section

variable {r : Nat} (waits : ((s.lan l.val).port p.val).retryAt = some r)
include waits

theorem execReadyRetry_early (early : max s.now t < r) : execReadyRetry t l p s = .next (s.atTime t) := by
  have earlyAt : (s.atTime t).now < r := early
  simp only [execReadyRetry, State.atTime_lan_of, waits, earlyAt, if_true]

variable (passed : r ≤ max s.now t)
include passed

theorem execReadyRetry_passed : execReadyRetry t l p s =
    let v := (s.atTime t).modLPort l.val p.val fun y => { y with retryAt := none }
    .next (if ((s.lan l.val).port p.val).light = lightKeep ∧ v.ready l.val p.val = true then v.sendReady l.val p.val 0
      else v) := by
  have passedAt : ¬ (s.atTime t).now < r := Nat.not_lt.2 passed
  simp only [execReadyRetry, State.atTime_lan_of, waits, passedAt, if_false] <;> rfl

theorem execReadyRetry_sends (keep : ((s.lan l.val).port p.val).light = lightKeep)
    (may : ((s.atTime t).modLPort l.val p.val fun y => { y with retryAt := none }).ready l.val p.val = true) :
    execReadyRetry t l p s =
      .next (((s.atTime t).modLPort l.val p.val fun y => { y with retryAt := none }).sendReady l.val p.val 0) :=
  (execReadyRetry_passed waits passed).trans (congrArg _ (if_pos ⟨keep, may⟩))

theorem execReadyRetry_other (other : ((s.lan l.val).port p.val).light ≠ lightKeep) :
    execReadyRetry t l p s = .next ((s.atTime t).modLPort l.val p.val fun y => { y with retryAt := none }) :=
  (execReadyRetry_passed waits passed).trans (congrArg _ (if_neg fun h => other h.1))

end

theorem execPortRampComplete_other {found : RampFound} (other : ((s.lan l.val).port p.val).light ≠ lightRamp) :
    execPortRampComplete t l p found s = .next (s.atTime t) :=
  congrArg _ (if_pos other)

theorem execPortRampComplete_ramp {found : RampFound} (ramp : ((s.lan l.val).port p.val).light = lightRamp) :
    execPortRampComplete t l p found s =
      let v := (((s.atTime t).setLight l.val p.val lightFull).resumeSwap l.val).baseLanes l.val p.val found
      let w := v.modLPort l.val p.val fun y => { y with
        tx := maskOf (v.lan l.val).litWaves, rx := found.locked.toNat, txDropped := [], rxDropped := [], dropLogged := [],
        retryAt := none, fec := (wavesOf found.locked.toNat).map fun k => (k, { WaveRx.init with lock := ⟨true, 0, 0⟩ }) }
      .next ((w.modLink (portKey l.val p.val) fun x => { x with
        wire := [], st := if x.st = 3 then 2 else x.st }).modLink (portKey l.val p.val) fun x =>
          if x.st = 0 ∨ x.st = 2 then x.sendHello (portKey l.val p.val) else x).oculusUpdate :=
  congrArg _ (if_neg (not_not.2 ramp))

end

/-- Settles O44. That READY is sent at the next valid beacon or at the retry, what a port receives on after its bring-up, and that
the shutters are tested each time a Lantern goes dark are the model's readings (notes/assumptions, rows 65, 69 and 109). -/
theorem shellsAndBeacons : Obligations.ShellsAndBeacons := by
  unfold Obligations.ShellsAndBeacons
  intro t l p s y u
  refine ⟨fun found => ⟨execShellOpen_first, execShellOpen_again, execShellOpen_drained, execShellOpen_draining,
      State.testShutters_tight, fun f tight leaks => ?_⟩, ?_, ⟨fun due => if_pos due, State.dueGap_waits⟩, execRxLightLoss_falls,
    execRxLightLoss_low, fun f => ⟨execBeaconReceive_invalid, execBeaconReceive_full, execBeaconReceive_keep,
      execBeaconReceive_ready⟩, fun r => execRampTimeout_late, execRampTimeout_none,
    fun b last late => ⟨execBeaconTimeout_ready last late, execBeaconTimeout_keep last late⟩, fun b => execBeaconTimeout_early,
    fun r => execReadyRetry_early, fun r waits passed => ⟨execReadyRetry_sends waits passed, execReadyRetry_other waits passed⟩,
    fun found => execPortRampComplete_other, fun found => execPortRampComplete_ramp⟩
  · have leak := badFibre_eq_some tight leaks
    exact ⟨leak, State.testShutters_leaks leak⟩
  · rintro v rfl
    exact ⟨execShellClosed_drain, execShellClosed_relights⟩

end Sys2Proof.Machine
end

section
/-! PROOFS. Lasers, their checks, their spares and the steps of rings (chapter 15: R281, R347-R350, R367-R371, R385). -/

namespace Sys2Proof.Machine

/-! ### Checks of a laser (R347, R367-R369) -/

/-- The readings of a laser in use kept, its bias no higher than its ceiling. -/
def State.readLaser (s : State) (l i bias : Nat) (delta freq : Int) (warn : Bool) : State :=
  s.modLan l fun x => x.modLaser i fun y => { y with bias := min (s.ceiling l i) bias, delta := delta, freq := freq, warn := warn }

/-- A laser's first warning logged. -/
def State.noteWarning (s : State) (l i : Nat) (warned : Bool) : State :=
  if warned then s else (s.oculusUpdate).report (srcLantern l) .corrected 4 i

/-- What a check does about a laser that serves wavelength `k`: a first warning is logged; past the forced threshold the wavelength
is swapped at once, at a warning a swap may begin. -/
def State.actOnLaser (s : State) (l i k : Nat) (warned warn forced : Bool) : State :=
  let s := if (warn || forced) && !warned then (s.oculusUpdate).report (srcLantern l) .corrected 4 i else s
  if forced then s.forceWave l k else if warn then s.warnSwap l k else s

section

variable {s : State} {l i k : Nat} {warned : Bool}

theorem State.actOnLaser_good : s.actOnLaser l i k warned false false = s := rfl

theorem State.actOnLaser_warns : s.actOnLaser l i k warned true false = (s.noteWarning l i warned).warnSwap l k := by
  cases warned <;> rfl

theorem State.actOnLaser_forced (warn : Bool) :
    s.actOnLaser l i k warned warn true = (s.noteWarning l i warned).forceWave l k := by
  rw [State.actOnLaser, Bool.or_true]
  cases warned <;> rfl

end

section

variable {s : State} {t : Nat} {l : Fin 8} {i : Fin 18} {bias : Nat} {output freq : Int} {off : Bool}

/-- How far a laser's output is from its baseline. -/
def State.outputDelta (s : State) (l i : Nat) (output : Int) : Int := output - s.outputBase l i ((s.lan l).waveOf i)

section

variable (on : ((s.lan l.val).laser i.val).st = 1)
include on

/-- A check of a laser in use judges whether it warns, and whether it is past the forced threshold. -/
theorem execLaserCheck_on {warn forced : Bool}
    (warns : (decide (s.outputDelta l.val i.val output ≤ -100) || decide (9 * s.ceiling l.val i.val ≤ 10 * bias)) = warn)
    (forces : (decide (s.outputDelta l.val i.val output ≤ -200) || off) = forced) :
    execLaserCheck t l i bias output freq off s =
      .next (((s.atTime t).readLaser l.val i.val bias (s.outputDelta l.val i.val output) freq (warn || forced)).actOnLaser l.val
        i.val ((s.lan l.val).waveOf i.val) ((s.lan l.val).laser i.val).warn warn forced) := by
  subst warns forces
  exact congrArg _ (if_neg (not_not.2 on))

theorem execLaserCheck_good (strong : -100 < s.outputDelta l.val i.val output) (low : 10 * bias < 9 * s.ceiling l.val i.val)
    (grid : off = false) : execLaserCheck t l i bias output freq off s =
      .next ((s.atTime t).readLaser l.val i.val bias (s.outputDelta l.val i.val output) freq false) := by
  refine (execLaserCheck_on on (warn := false) (forced := false) ?_ ?_).trans (congrArg _ State.actOnLaser_good)
  · rw [decide_eq_false (by omega), decide_eq_false (Nat.not_le.2 low)]
    rfl
  · rw [decide_eq_false (by omega), grid]
    rfl

theorem execLaserCheck_warns (strong : -200 < s.outputDelta l.val i.val output) (grid : off = false)
    (warns : s.outputDelta l.val i.val output ≤ -100 ∨ 9 * s.ceiling l.val i.val ≤ 10 * bias) :
    execLaserCheck t l i bias output freq off s =
      .next ((((s.atTime t).readLaser l.val i.val bias (s.outputDelta l.val i.val output) freq true).noteWarning l.val i.val
        ((s.lan l.val).laser i.val).warn).warnSwap l.val ((s.lan l.val).waveOf i.val)) := by
  refine (execLaserCheck_on on (warn := true) (forced := false) ?_ ?_).trans (congrArg _ State.actOnLaser_warns)
  · rwa [Bool.or_eq_true, decide_eq_true_iff, decide_eq_true_iff]
  · rw [decide_eq_false (by omega), grid]
    rfl

theorem execLaserCheck_forced (forced : s.outputDelta l.val i.val output ≤ -200 ∨ off = true) :
    execLaserCheck t l i bias output freq off s =
      .next ((((s.atTime t).readLaser l.val i.val bias (s.outputDelta l.val i.val output) freq true).noteWarning l.val i.val
        ((s.lan l.val).laser i.val).warn).forceWave l.val ((s.lan l.val).waveOf i.val)) := by
  refine (execLaserCheck_on on (forced := true) rfl ?_).trans ?_
  · rwa [Bool.or_eq_true, decide_eq_true_iff]
  · rw [State.actOnLaser_forced, Bool.or_true]

theorem execLaserSuddenFade_warned (warned : ((s.lan l.val).laser i.val).warn = true) :
    let v := (s.atTime t).modLan l.val fun x => x.modLaser i.val fun y => { y with warn := true }
    execLaserSuddenFade t l i s = .next (v.forceWave l.val ((v.lan l.val).waveOf i.val)) := by
  simp only [execLaserSuddenFade, State.atTime_lan_of, on, warned, ne_eq, not_true, if_true, if_false]

end

theorem execLaserCheck_off (unused : ((s.lan l.val).laser i.val).st ≠ 1) : execLaserCheck t l i bias output freq off s =
    .next ((s.atTime t).modLan l.val fun x => x.modLaser i.val fun y => { y with
      bias := bias, delta := s.outputDelta l.val i.val output, freq := freq }) :=
  congrArg _ (if_pos unused)

end

/-! ### Swaps begun, waited for and given up (R368-R371) -/

section

variable {s : State} {t l k : Nat}

theorem State.beginSwap_none {now dropped forced : Bool} {want : Option Nat} (taken : (s.lan l).freeSpare want = none) :
    s.beginSwap l k now dropped forced want = none := by
  simp only [State.beginSwap, taken]

theorem State.forceWave_noSpare (idle : (s.lan l).swap = none) (taken : (s.lan l).freeSpare none = none) :
    s.forceWave l k = s.retireWave l k := by
  simp only [State.forceWave, idle, State.beginSwap_none taken]

theorem State.warnSwap_begins {j : Nat} (idle : (s.lan l).swap = none) (auto : bitOf (s.lan l).ctrl 0 = true)
    (free : (s.lan l).freeSpare none = some j) :
    s.warnSwap l k = s.modLan l fun x => { x.modLaser (16 + j) fun y => { y with st := 3, target := k, warn := false } with
      swap := some ⟨k, j, false, false, false, false, false, []⟩ } := by
  simp only [State.warnSwap, auto, idle, State.beginSwap, free, Bool.not_true, Bool.false_eq_true, if_false, Option.getD_some]

theorem State.noSpare_forced {dropped : Bool} :
    s.noSpare l k true dropped = (s.retireWave l k).replySwap l k 0xFF stDegraded := by
  rw [State.noSpare, Bool.true_or, if_pos rfl]

theorem State.noSpare_alone {dropped : Bool} (alone : s.gal.waiters = []) : s.noSpare l k false dropped =
    (if dropped then s.eachPort l allPorts .add k else s).replySwap l k 0xFF stNoResource := by
  simp only [State.noSpare, alone, List.any_nil, Bool.or_self, Bool.false_eq_true, if_false]

end

section

variable {s : State} {t : Nat} {l : Fin 8} {j : Fin 2} {w : Swap}

section

variable (swap : (s.lan l.val).swap = some w) (same : w.spare = j.val) (tuning : w.locked = false)
include swap same tuning

/-- A swap's spare that has locked. -/
theorem execSpareLocked_locks : execSpareLocked t l j s =
    let v := ((s.atTime t).modLan l.val fun x => { x.modLaser (16 + j.val) fun y => { y with st := 2 } with
      swap := some { w with locked := true } }).oculusUpdate
    .next (if w.atOnce then v.runSwap l.val
      else if (v.upPorts l.val).isEmpty && !(v.lan l.val).swapHeld then v.switchSpare l.val [] else v) := by
  simp only [execSpareLocked, State.atTime_lan_of, swap, same, tuning, ne_eq, not_true, Bool.false_eq_true, or_self, if_false]

theorem execSpareLocked_atOnce (now : w.atOnce = true) :
    let v := ((s.atTime t).modLan l.val fun x => { x.modLaser (16 + j.val) fun y => { y with st := 2 } with
      swap := some { w with locked := true } }).oculusUpdate
    execSpareLocked t l j s = .next (v.runSwap l.val) :=
  (execSpareLocked_locks swap same tuning).trans (congrArg _ (if_pos now))

section

variable (gap : w.atOnce = false)
include gap

theorem execSpareLocked_waits :
    let v := ((s.atTime t).modLan l.val fun x => { x.modLaser (16 + j.val) fun y => { y with st := 2 } with
      swap := some { w with locked := true } }).oculusUpdate
    v.upPorts l.val ≠ [] ∨ (v.lan l.val).swapHeld = true → execSpareLocked t l j s = .next v := by
  intro v waits
  have no : ((v.upPorts l.val).isEmpty && !(v.lan l.val).swapHeld) = false := by
    obtain up | held := waits
    · rw [Bool.eq_false_iff.2 (mt List.isEmpty_iff.1 up), Bool.false_and]
    · rw [held, Bool.not_true, Bool.and_false]
  exact (execSpareLocked_locks swap same tuning).trans
    (congrArg _ ((if_neg (Bool.eq_false_iff.1 gap)).trans (if_neg (Bool.eq_false_iff.1 no))))

theorem execSpareLocked_switches :
    let v := ((s.atTime t).modLan l.val fun x => { x.modLaser (16 + j.val) fun y => { y with st := 2 } with
      swap := some { w with locked := true } }).oculusUpdate
    v.upPorts l.val = [] → (v.lan l.val).swapHeld = false → execSpareLocked t l j s = .next (v.switchSpare l.val []) := by
  intro v down free
  have yes : ((v.upPorts l.val).isEmpty && !(v.lan l.val).swapHeld) = true := by
    rw [List.isEmpty_iff.2 down, free]
    rfl
  exact (execSpareLocked_locks swap same tuning).trans (congrArg _ ((if_neg (Bool.eq_false_iff.1 gap)).trans (if_pos yes)))

end

/-- A spare that does not lock marked failed, its swap ended. -/
def State.spareFailed (s : State) (l j : Nat) : State :=
  ((s.modLan l fun x => { x.modLaser (16 + j) fun y => { y with st := 4 } with swap := none }).oculusUpdate).report
    (srcLantern l) .corrected 7 (256 * j)

theorem execSpareLockFail_other {u : State}
    (begins : ((s.atTime t).spareFailed l.val j.val).beginSwap l.val w.wave w.atOnce w.dropped w.forced none = some u) :
    execSpareLockFail t l j s = .next u := by
  rw [State.spareFailed] at begins
  simp only [execSpareLockFail, State.atTime_lan_of, swap, same, tuning, ne_eq, not_true, Bool.false_eq_true, or_self, if_false,
    begins]

theorem execSpareLockFail_noSpare
    (noOther : ((s.atTime t).spareFailed l.val j.val).beginSwap l.val w.wave w.atOnce w.dropped w.forced none = none) :
    execSpareLockFail t l j s =
      .next ((((s.atTime t).spareFailed l.val j.val).noSpare l.val w.wave w.forced w.dropped).nextSwap l.val) := by
  rw [State.spareFailed] at noOther ⊢
  simp only [execSpareLockFail, State.atTime_lan_of, swap, same, tuning, ne_eq, not_true, Bool.false_eq_true, or_self, if_false,
    noOther]

end

/-! ### LASER_SWAP (R281, R371) -/

theorem State.releaseSwap_gap {l : Nat} (swap : (s.lan l).swap = some w) (gap : w.atOnce = false) : s.releaseSwap l = s := by
  simp only [State.releaseSwap, swap, gap, Bool.false_eq_true, if_false]

theorem State.releaseSwap_atOnce {l : Nat} (swap : (s.lan l).swap = some w) (now : w.atOnce = true)
    (unswitched : w.switched = false) (carried : w.dropped = false) (tuning : w.locked = false) :
    s.releaseSwap l = (s.dropWave l w.wave).modLan l fun x => { x with swap := some { w with dropped := true } } := by
  simp only [State.releaseSwap, State.runSwap, swap, now, unswitched, carried, tuning, Bool.false_and, Bool.false_eq_true, if_false,
    if_true]

variable {u : State} {id : Nat} {a : Acc}

section

variable (ready : s.Ready t id 0x0610 a u) (idle : (u.lan (a.par 16 1)).swap = none) (queue : (u.lan (a.par 16 1)).swapQ = [])
  (serves : (u.lan (a.par 16 1)).sourceOf (a.par 17 1) ≠ 3) (whichever : a.par 19 1 = 0xFF)
include ready idle queue serves whichever

theorem execLaserSwap_begins {v : State}
    (begins : u.beginSwap (a.par 16 1) (a.par 17 1) (decide (a.par 18 1 = 1)) false false none = some v) :
    execLaserSwap t id s = .next ((v.releaseSwap (a.par 16 1)).wait a (.swap (a.par 16 1) (a.par 17 1))) := by
  refine (State.act_of_ready ready _).trans ?_
  simp only [State.laserSwap, idle, queue, serves, whichever, begins, List.any_nil, Bool.or_self, Bool.false_eq_true, if_false,
    if_true]

theorem execLaserSwap_retires
    (noOther : u.beginSwap (a.par 16 1) (a.par 17 1) (decide (a.par 18 1 = 1)) false false none = none) :
    execLaserSwap t id s =
      .next ((u.retireWave (a.par 16 1) (a.par 17 1)).reply a stDegraded (255 + 256 * a.par 17 1) 0 0) := by
  refine (State.act_of_ready ready _).trans ?_
  simp only [State.laserSwap, idle, queue, serves, whichever, noOther, List.any_nil, Bool.or_self, Bool.false_eq_true, if_false,
    if_true]

end

theorem State.outputBase_eq (s : State) (l i k : Nat) : s.outputBase l i k = match tget none s.led.outputs (laserKey l i k) with
    | some o => o
    | none => (tget (0, 0, 0) s.fuses.lasers (18 * l + i)).2.2 := by
  rw [State.outputBase]
  cases tget none s.led.outputs (laserKey l i k) <;> rfl

end

/-! ### The steps of a ring (R349, R350) -/

section

variable {old : Nat} {steps : Int}

theorem ringMove_eq : ringMove old steps = (max 0 (min 65535 ((old : Int) + max (-3) (min 3 steps)))).toNat := rfl

theorem ringMove_le (inside : old ≤ 65535) :
    ringMove old steps ≤ old + 3 ∧ old ≤ ringMove old steps + 3 ∧ ringMove old steps ≤ 65535 := by
  rw [ringMove_eq]
  omega

theorem ringMove_up (inside : old ≤ 65535) (up : 0 ≤ steps) : old ≤ ringMove old steps := by
  rw [ringMove_eq]
  omega

theorem ringMove_down (down : steps ≤ 0) : ringMove old steps ≤ old := by
  rw [ringMove_eq]
  omega

theorem ringMove_zero (inside : old ≤ 65535) : ringMove old 0 = old :=
  Nat.le_antisymm (ringMove_down (Int.le_refl 0)) (ringMove_up inside (Int.le_refl 0))

theorem lt_ringMove (room : old < 65535) (up : 0 < steps) : old < ringMove old steps := by
  rw [ringMove_eq]
  omega

theorem ringMove_lt (positive : 0 < old) (inside : old ≤ 65535) (down : steps < 0) : ringMove old steps < old := by
  rw [ringMove_eq]
  omega

end

section

variable {s : State} {l n : Nat} {r : RingId} {a b c : Nat}

theorem State.ringSteps_above (more : b < c) (most : a ≤ c) : s.ringSteps l r n (.currents a b c) = n :=
  if_pos ⟨more, most⟩

theorem State.ringSteps_below (more : b < a) (most : c < a) : s.ringSteps l r n (.currents a b c) = -(n : Int) :=
  (if_neg fun h => Nat.not_le.2 most h.2).trans (if_pos more)

theorem State.ringSteps_best (left : a ≤ b) (right : c ≤ b) : s.ringSteps l r n (.currents a b c) = 0 :=
  (if_neg fun h => Nat.not_le.2 h.1 right).trans (if_neg (Nat.not_lt.2 left))

end

section

variable {s : State} {t : Nat} {l : Fin 8} {r : RingId} {seen : RingReading}

/-- The steps that the loop of a ring takes at an update. -/
def State.loopSteps (s : State) (l : Nat) (r : RingId) (seen : RingReading) : Int :=
  s.ringSteps l r (1 + (Config.freeValue s.free).toNat % ringStep) seen

/-- The state after an update of a ring. -/
def State.ringUpdated (s : State) (l : Nat) (r : RingId) (seen : RingReading) : State :=
  ({ s with free := s.free + 1 } : State).modLan l fun x => { x with
    rings := tmod 0 x.rings (ringKey r) fun old => ringMove old (s.loopSteps l r seen) }

theorem execRingLockUpdate_moves : execRingLockUpdate t l r seen s = .next ((s.atTime t).ringUpdated l.val r seen) := rfl

theorem State.ringUpdated_keepsBut : s.KeepsBut [.now, .free, .lans] ((s.atTime t).ringUpdated l.val r seen) := fun f other => by
  cases f with
  | now | free | lans => exact absurd (by decide) other
  | _ => rfl

section

variable (wf : twf Lantern.init s.lans = true) (rings : twf 0 (s.lan l.val).rings = true)
include wf

theorem State.ringUpdated_rings : (((s.atTime t).ringUpdated l.val r seen).lan l.val).rings =
    tmod 0 (s.lan l.val).rings (ringKey r) fun old => ringMove old ((s.atTime t).loopSteps l.val r seen) :=
  congrArg Lantern.rings (State.lan_modLan (s := { s.atTime t with free := (s.atTime t).free + 1 }) wf l.val _)

include rings

theorem State.ringUpdated_ring : tget 0 (((s.atTime t).ringUpdated l.val r seen).lan l.val).rings (ringKey r) =
    ringMove (tget 0 (s.lan l.val).rings (ringKey r)) ((s.atTime t).loopSteps l.val r seen) := by
  rw [State.ringUpdated_rings wf, tget_tmod 0 _ _ _ rings]

theorem State.ringUpdated_ring_ne {k : Nat} (other : k ≠ ringKey r) :
    tget 0 (((s.atTime t).ringUpdated l.val r seen).lan l.val).rings k = tget 0 (s.lan l.val).rings k := by
  rw [State.ringUpdated_rings wf, tget_tmod_ne 0 _ _ _ _ rings other]

end

end

/-- Settles O41. How a swap ends for which no spare can be locked, the steps of rings and lasers, and a laser's baselines are the
model's readings (notes/assumptions, rows 66, 91 and 92). -/
theorem lasersAndSpares : Obligations.LasersAndSpares := by
  unfold Obligations.LasersAndSpares
  intro t id l i s y k
  refine ⟨fun bias output freq off => ?_, execLaserSuddenFade_warned, fun k idle => ?_, fun w j swap same tuning => ?_,
    fun w j swap same tuning => ?_, fun u a ready idle queue serves whichever => ?_, ?_, State.outputBase_eq s _ _ _,
    fun r seen old wf rings is inside => ?_⟩
  · exact ⟨execLaserCheck_good, execLaserCheck_warns, execLaserCheck_forced, execLaserCheck_off⟩
  · exact ⟨State.forceWave_noSpare idle, fun auto j => State.warnSwap_begins idle auto⟩
  · exact ⟨execSpareLocked_atOnce swap same tuning, execSpareLocked_waits swap same tuning,
      execSpareLocked_switches swap same tuning⟩
  · intro v
    refine ⟨fun u => execSpareLockFail_other swap same tuning, fun noOther forced => ?_, fun noOther warned alone => ?_⟩
    · refine (execSpareLockFail_noSpare swap same tuning noOther).trans ?_
      rw [forced, State.noSpare_forced]
      rfl
    · refine (execSpareLockFail_noSpare swap same tuning noOther).trans ?_
      rw [warned, State.noSpare_alone (s := (s.atTime t).spareFailed l.val j.val) alone]
      rfl
  · exact ⟨fun v => execLaserSwap_begins ready idle queue serves whichever,
      fun v l w swap unswitched carried tuning => ⟨State.releaseSwap_gap swap,
        fun now => State.releaseSwap_atOnce swap now unswitched carried tuning⟩,
      execLaserSwap_retires ready idle queue serves whichever⟩
  · rfl
  · subst is
    refine ⟨_, execRingLockUpdate_moves, State.ringUpdated_keepsBut, fun j => State.ringUpdated_ring_ne wf rings, ?_⟩
    intro new goal
    have moved : new = ringMove (tget 0 (s.lan l.val).rings (ringKey r)) ((s.atTime t).loopSteps l.val r seen) :=
      State.ringUpdated_ring wf rings
    rw [moved]
    obtain ⟨most, least, code⟩ := ringMove_le (steps := (s.atTime t).loopSteps l.val r seen) inside
    refine ⟨most, least, code, ?_, ?_, ?_, ?_⟩
    · rintro d rfl
      have steps : (s.atTime t).loopSteps l.val r (.detuning d) = (goal : Int) - d := rfl
      rw [steps]
      refine ⟨fun below => ringMove_up inside (by omega), fun above => ringMove_down (by omega), ?_⟩
      rintro rfl
      rw [Int.sub_self, ringMove_zero inside]
    · rintro a b c rfl more most
      rw [State.loopSteps, State.ringSteps_above more most]
      exact ⟨ringMove_up inside (by omega), fun room => lt_ringMove room (by omega)⟩
    · rintro a b c rfl more most
      rw [State.loopSteps, State.ringSteps_below more most]
      exact ⟨ringMove_down (by omega), fun positive => ringMove_lt positive inside (by omega)⟩
    · rintro a b c rfl left right
      rw [State.loopSteps, State.ringSteps_best left right, ringMove_zero inside]

end Sys2Proof.Machine
end

section
/-! PROOFS. Starts, resets, power on and off, and the reference clock (R462, R468, R484-R494, R512-R516). -/

namespace Sys2Proof.Machine

/-! ### The kind of a start and Keep's part of it (R485, R487-R489) -/

section

variable {s : State} {t : Nat} {r : StartReport} {cold : Bool}

theorem execColdStart_due (due : (s.atTime t).startKind r ≠ .warm) :
    execColdStart t r s = .next ((s.atTime t).runStart r true) :=
  congrArg _ (if_neg (by rwa [decide_eq_true_iff]))

theorem execColdStart_warm (warm : (s.atTime t).startKind r = .warm) : execColdStart t r s = .next (s.atTime t) :=
  congrArg _ (if_pos (decide_eq_true warm))

theorem execWarmStart_due (due : (s.atTime t).startKind r = .warm) :
    execWarmStart t r s = .next ((s.atTime t).runStart r false) :=
  congrArg _ (if_neg (by rw [decide_eq_true_iff]; exact not_not.2 due))

theorem execWarmStart_cold (cold : (s.atTime t).startKind r ≠ .warm) : execWarmStart t r s = .next (s.atTime t) :=
  congrArg _ (if_pos (decide_eq_true cold))

theorem State.runStart_over (done : s.start.phase ≠ .starting ∨ s.start.safe = true ∨ s.sec.codeLocked = true) :
    s.runStart r cold = s :=
  if_pos done

theorem State.runStart_stops (starting : s.start.phase = .starting) (safe : s.start.safe = false)
    (unlocked : s.sec.codeLocked = false) (stops : (s.keepSteps r).2 = none) :
    s.runStart r cold = { (s.keepSteps r).1 with mgmt := { (s.keepSteps r).1.mgmt with silent := false } } := by
  simp only [State.runStart, starting, safe, unlocked, stops, ne_eq, not_true, Bool.false_eq_true, or_self, if_false]

/-! ### Failed starts (R462, R492, R493) -/

theorem State.releaseGallery_sec (slot : Nat) :
    (s.releaseGallery slot).sec = { s.sec with codeLocked := true, starts := tmod 0 s.sec.starts slot (· + 1) } := rfl

theorem State.releaseGallery_keepsBut (slot : Nat) : s.KeepsBut [.sec, .drm] (s.releaseGallery slot) := fun f other => by
  cases f with
  | sec | drm => exact absurd (by decide) other
  | _ => rfl

/-- The start record once a start has failed. -/
def State.markFailed (s : State) : State := { s with
  start := { s.start with markSet := true, lastWarm := s.warmDue, coldRequested := s.start.coldRequested && s.warmDue },
  mgmt := { s.mgmt with silent := false } }

theorem execStartFailure_over {c : Fin 4} (done : s.start.phase ≠ .starting) : execStartFailure t c s = .next (s.atTime t) :=
  congrArg _ (if_pos (.inl done))

theorem execStartFailure_fails {c : Fin 4} (starting : s.start.phase = .starting) (safe : s.start.safe = false) :
    execStartFailure t c s = .next (((if s.sec.codeLocked then (s.atTime t).markFailed
      else (s.atTime t).markFailed.releaseGallery s.sec.firstSlot).report 0x003 .fatal 2 c.val).safeState true) := by
  have due : ¬ ((s.atTime t).start.phase ≠ .starting ∨ (s.atTime t).start.safe = true) :=
    not_or.2 ⟨not_not.2 starting, Bool.eq_false_iff.1 safe⟩
  exact congrArg _ (if_neg due)

section

variable (starting : s.start.phase = .starting) (marked : s.start.markSet = true) (late : s.start.safeAt + 10 ^ 8 ≤ max s.now t)
include starting marked late

theorem execAutoDeviceReset_resets (few : s.start.failedRun < 3) :
    execAutoDeviceReset t s = .next ((s.atTime t).deviceReset 4) := by
  refine congrArg _ (if_pos ?_)
  simp only [Bool.and_eq_true, decide_eq_true_iff]
  exact ⟨⟨⟨starting, marked⟩, late⟩, Nat.succ_lt_succ few⟩

omit starting marked late in
theorem execAutoDeviceReset_gives_up (many : 3 ≤ s.start.failedRun) : execAutoDeviceReset t s = .next (s.atTime t) := by
  refine congrArg _ (if_neg ?_)
  simp only [Bool.and_eq_true, decide_eq_true_iff]
  exact fun due => Nat.not_le.2 due.2 (Nat.succ_le_succ many)

end

theorem execTrainingParamsWrite_stores (running : s.running = true) :
    execTrainingParamsWrite t s = .next { s.atTime t with start := { s.start with stored := (s.atTime t).capture } } :=
  congrArg _ (if_pos running)

theorem execTrainingParamsWrite_not (stopped : s.running = false) : execTrainingParamsWrite t s = .next (s.atTime t) :=
  congrArg _ (if_neg (Bool.eq_false_iff.1 stopped))

/-! ### Power and the package reset (R512-R516) -/

theorem execPowerOn_off (off : s.start.phase = .off) :
    execPowerOn t s = .next { s with start := { s.start with phase := .held, cause := 0 }, now := 0 } :=
  congrArg _ (if_neg (not_not.2 off))

theorem execPowerOn_on (on : s.start.phase ≠ .off) : execPowerOn t s = .next (s.atTime t) := congrArg _ (if_pos on)

theorem execPackageReset_held {c : PackageCause} (held : s.start.phase = .off ∨ s.start.phase = .held) :
    execPackageReset t c s = .next (s.atTime t) := by
  obtain off | held := held
  · simp only [execPackageReset, State.atTime_start, off]
  · simp only [execPackageReset, State.atTime_start, held]

theorem execPackageReset_resets {c : PackageCause} (on : s.start.phase = .starting ∨ s.start.phase = .running) :
    execPackageReset t c s = .next ((s.atTime t).resetTo 1 .held) := by
  obtain starting | running := on
  · simp only [execPackageReset, State.atTime_start, starting]
  · simp only [execPackageReset, State.atTime_start, running]

theorem execPackageResetRelease_starts {tb : Bool} {a : BitVec 3} (held : s.start.phase = .held) :
    execPackageResetRelease t tb a s = .next { s.atTime t with
      start := { s.start with phase := .starting, startedAt := max s.now t },
      drm := { s.drm with tbPresent := tb, tbLost := false, tbSource := tb }, mgmt := { s.mgmt with addr := 0x60 + a.toNat } } :=
  congrArg _ (if_neg (not_not.2 held))

theorem execPackageResetRelease_other {tb : Bool} {a : BitVec 3} (other : s.start.phase ≠ .held) :
    execPackageResetRelease t tb a s = .next (s.atTime t) :=
  congrArg _ (if_pos other)

/-- What a power off leaves (R514). -/
def State.poweredOff (s : State) : State := { s.resetTo 0 .off with
  now := 0, bel := State.reset.bel, pwr := State.reset.pwr, jtag := State.reset.jtag, mgmt := State.reset.mgmt,
  start := { (s.resetTo 0 .off).start with startedAt := 0 },
  led := { (s.resetTo 0 .off).led with before := (s.resetTo 0 .off).led.before + s.now } }

theorem execPowerOff_off (off : s.start.phase = .off) : execPowerOff t s = .next (s.atTime t) := congrArg _ (if_pos off)

theorem execPowerOff_on (on : s.start.phase ≠ .off) : execPowerOff t s = .next (s.atTime t).poweredOff := congrArg _ (if_neg on)

theorem State.deviceReset_running (running : s.start.phase = .running) (c : Nat) : s.deviceReset c = s.resetTo c .starting := by
  simp only [State.deviceReset, running]

end

/-- Settles O57. That a failed start has released its cores, that a requested cold start is used up by the start it makes cold, and
what a power off adds to the ledger's time are the model's readings (notes/assumptions, rows 106, 36 and 99). -/
theorem startsAndResets : Obligations.StartsAndResets := by
  unfold Obligations.StartsAndResets
  intro t q key s u
  have keyed {action : Nat} (code : action < 16) := (State.writeResetCtrl_cases (s := s) (q := q) t key code).2.2.1
  have dropped {action : Nat} (code : action < 16) := (State.writeResetCtrl_cases (s := s) (q := q) t key code).1
  refine ⟨fun served steward key => ?_, fun served plain => ?_, fun r => ?_, fun c starting safe => ?_,
    fun slot => ⟨State.releaseGallery_sec slot, State.releaseGallery_keepsBut slot⟩, fun c => execStartFailure_over,
    fun starting marked late => ⟨execAutoDeviceReset_resets starting marked late, execAutoDeviceReset_gives_up⟩,
    execTrainingParamsWrite_stores, execTrainingParamsWrite_not, execPowerOn_off, execPowerOn_on,
    fun c => ⟨execPackageReset_held (c := c), execPackageReset_resets (c := c)⟩, fun tb a => execPackageResetRelease_starts,
    fun tb a => execPackageResetRelease_other, execPowerOff_off, execPowerOff_on, rfl,
    fun c running => State.deviceReset_running running c⟩
  · exact ⟨keyed (by decide) served steward key, keyed (by decide) served steward key, keyed (by decide) served steward key,
      keyed (by decide) served steward key⟩
  · exact ⟨dropped (by decide) served plain, dropped (by decide) served plain, dropped (by decide) served plain,
      dropped (by decide) served plain⟩
  · exact ⟨fun cold => ⟨execColdStart_due cold, execWarmStart_cold cold⟩,
      fun warm => ⟨execWarmStart_due warm, execColdStart_warm warm⟩,
      fun cold => State.runStart_stops, fun cold => State.runStart_over⟩
  · have fails := execStartFailure_fails (t := t) (c := c) starting safe
    exact ⟨fun locked => fails.trans (by rw [locked]; rfl), fun unlocked => fails.trans (by rw [unlocked]; rfl)⟩

end Sys2Proof.Machine
end

section
/-! PROOFS. The management port: its types, sensors, effects, events and update (R470, R482, R518). -/

namespace Sys2Proof.Machine

/-! ### What the port serves (R482, R518) -/

section

variable {s : State} {t : Nat}

theorem State.bmc_open (opened : s.mgmtOpen = true) (f : State → State) : s.bmc t f = .next (f (s.atTime t)) :=
  congrArg _ (if_pos opened)

/-- Whether a command's effect is served to the BMC in LOCKED. -/
def lockedServes (op : Nat) : Bool := match cmdRow op with
  | none => true
  | some r => r.security.contains SecState.locked.code

theorem State.effect_served {op : Nat} (opened : s.mgmtOpen = true) (runs : s.start.phase = .running) (locked : s.sec.st = .locked)
    (serves : lockedServes op = true) (f : State → State) : s.effect t op f = .next (f (s.atTime t)) := by
  have running : (s.atTime t).running = true := decide_eq_true runs
  have allowed : (match cmdRow op with
      | none => true
      | some r => r.security.contains (s.atTime t).sec.st.code) = true := by
    rw [← serves, lockedServes]
    split
    · rfl
    · rw [State.atTime_sec, locked]
  refine (State.bmc_open opened _).trans (congrArg _ (if_pos ?_))
  rw [running, Bool.true_and]
  exact allowed

/-- A step of the BMC's own session at its stage. -/
theorem State.update_at {stage : Nat} {x : Session} (opened : s.mgmtOpen = true) (session : s.sec.session = some x)
    (own : x.pldm = true) (turn : s.mgmt.fdStage = stage) (f : Session → State → State) :
    s.update t stage f = .next (f x (s.atTime t)) := by
  rw [State.update, State.bmc_open opened]
  simp only [State.atTime_sec, State.atTime_mgmt, session, own, turn, ne_eq, not_true, Bool.true_eq_false, if_false]

theorem State.update_outOfTurn {stage : Nat} {x : Session} (opened : s.mgmtOpen = true) (session : s.sec.session = some x)
    (own : x.pldm = true) (turn : s.mgmt.fdStage ≠ stage) (f : Session → State → State) :
    s.update t stage f = .next ((s.atTime t).tell (.done pldmBadState)) := by
  rw [State.update, State.bmc_open opened]
  simp only [State.atTime_sec, State.atTime_mgmt, session, own, turn, ne_eq, not_false_eq_true, Bool.true_eq_false, if_false,
    if_true]

end

theorem finOfNat_val (p : Fin 4) : Fin.ofNat 4 p.val = p := Fin.ext (Nat.mod_eq_of_lt p.isLt)

/-! ### Types, sensors and events -/

section

variable {s : State} {t : Nat} (opened : s.mgmtOpen = true)
include opened

theorem execPldmGetTid_answers : execPldmGetTid t s = .next ((s.atTime t).tell (.number Config.pldmTid.toNat)) :=
  State.bmc_open opened _

theorem execPldmGetTypes_answers : execPldmGetTypes t s = .next ((s.atTime t).tell (.list [0, 2, 5])) := State.bmc_open opened _

theorem execPldmGetVersion_answers (type : BitVec 8) : execPldmGetVersion t type s =
    .next ((s.atTime t).tell
      (if [0, 2, 5].contains type.toNat then .number (Config.pldmVersion type.toNat).toNat else .done pldmBadType)) :=
  State.bmc_open opened _

theorem execPldmGetCommands_answers : execPldmGetCommands t 0 s = .next ((s.atTime t).tell (.list [2, 3, 4, 5])) :=
  State.bmc_open opened _

theorem execEndpointIdAssignment_sets {e : BitVec 8} :
    execEndpointIdAssignment t e s = .next { s.atTime t with mgmt := { s.mgmt with eid := e } } :=
  State.bmc_open opened _

theorem execDynamicAddressAssignment_sets {a : BitVec 7} :
    execDynamicAddressAssignment t a s = .next { s.atTime t with mgmt := { s.mgmt with dynamic := some a.toNat } } :=
  State.bmc_open opened _

theorem execPldmReadSensor_running (runs : s.start.phase = .running) {sensor : PldmSensor} {v : Int}
    (value : (s.atTime t).sensorValue sensor = some v) :
    execPldmReadSensor t sensor s = .next ((s.atTime t).tell (.number v)) := by
  have running : (s.atTime t).running = true := decide_eq_true runs
  rw [execPldmReadSensor, State.bmc_open opened, running, value]
  rfl

/-- A poll with nothing to acknowledge hands out the next entry in log order. -/
theorem execPldmPollEvent_next (runs : s.start.phase = .running) : execPldmPollEvent t none s =
    .next ((s.atTime t).tell (.event (((s.bel.log.find? fun e => indexFrom s.mgmt.event e.index).map LogEntry.bytes).getD []))) := by
  have running : (s.atTime t).running = true := decide_eq_true runs
  rw [execPldmPollEvent, State.bmc_open opened, running]
  simp only [Bool.not_true, Bool.false_eq_true, if_false, State.atTime_bel, State.atTime_mgmt]
  cases s.bel.log.find? fun e => indexFrom s.mgmt.event e.index <;> rfl

/-! ### The update (R470) -/

section

theorem execPldmRequestUpdate_opens {n : Nat} (locked : s.sec.st = .locked) (none : s.sec.session = none) (some : 0 < n)
    (fits : n ≤ 2 ^ 23) : execPldmRequestUpdate t n s = .next (({ s.atTime t with
      sec := { s.sec with session := .some ⟨1 - s.sec.runSlot, n, 0, max s.now t, true⟩ } } : State).stage 1) := by
  rw [execPldmRequestUpdate, State.bmc_open opened]
  simp only [State.atTime_sec, none, locked, Option.isSome_none, Bool.false_eq_true, if_false, ne_eq, not_true, and_false,
    Nat.ne_of_gt some, Nat.not_lt.2 fits, or_self]
  rfl

theorem execPldmCancelUpdate_none (none : s.sec.session = none) :
    execPldmCancelUpdate t s = .next ((s.atTime t).tell (.done pldmNoUpdate)) := by
  rw [execPldmCancelUpdate, State.bmc_open opened]
  simp only [State.atTime_sec, none]

variable {x : Session} (session : s.sec.session = some x)
include session

theorem execPldmRequestUpdate_busy {n : Nat} : execPldmRequestUpdate t n s = .next ((s.atTime t).tell (.done pldmInUpdate)) := by
  rw [execPldmRequestUpdate, State.bmc_open opened]
  simp only [State.atTime_sec, session, Option.isSome_some, if_true]

theorem execPldmGetStatus_session :
    execPldmGetStatus t s = .next ((s.atTime t).tell (.list [s.mgmt.fdStage, x.received])) := by
  rw [execPldmGetStatus, State.bmc_open opened, State.atTime_sec, session]
  rfl

variable (own : x.pldm = true)
include own

theorem execPldmCancelUpdate_own : execPldmCancelUpdate t s = .next ((s.atTime t).endSession.tell (.done pldmOk)) := by
  rw [execPldmCancelUpdate, State.bmc_open opened]
  simp only [State.atTime_sec, session, own, if_true]

theorem execPldmPassComponentTable_one (turn : s.mgmt.fdStage = 1) : execPldmPassComponentTable t 1 s =
    .next (({ s.atTime t with mgmt := { s.mgmt with components := 1 } } : State).stage 2) :=
  (State.update_at opened session own turn _).trans rfl

theorem execPldmUpdateComponent_next (turn : s.mgmt.fdStage = 2) :
    execPldmUpdateComponent t s = .next ((s.atTime t).stage 3) :=
  State.update_at opened session own turn _

theorem execPldmUpdateComponent_outOfTurn (turn : s.mgmt.fdStage ≠ 2) :
    execPldmUpdateComponent t s = .next ((s.atTime t).tell (.done pldmBadState)) :=
  State.update_outOfTurn opened session own turn _

theorem execPldmVerifyComplete_verifies (turn : s.mgmt.fdStage = 4) : execPldmVerifyComplete t s =
    .next (if (s.atTime t).imageGood x.slot x.len = true then (s.atTime t).stage 5
      else ((s.atTime t).stage 2).tell (.done pldmError)) :=
  State.update_at opened session own turn _

theorem execPldmApplyComplete_next (turn : s.mgmt.fdStage = 5) : execPldmApplyComplete t s = .next ((s.atTime t).stage 6) :=
  State.update_at opened session own turn _

theorem execPldmActivateFirmware_marks (turn : s.mgmt.fdStage = 6) : execPldmActivateFirmware t s =
    .next (((s.atTime t).markSlot x.slot).endSession.tell (.done pldmOk)) :=
  State.update_at opened session own turn _

theorem execPldmActivateFirmware_outOfTurn (turn : s.mgmt.fdStage ≠ 6) :
    execPldmActivateFirmware t s = .next ((s.atTime t).tell (.done pldmBadState)) :=
  State.update_outOfTurn opened session own turn _

theorem execPldmRequestFirmwareData_writes {off : Nat} {chunk : List Byte} (turn : s.mgmt.fdStage = 3) (some : chunk ≠ [])
    (fits : off + chunk.length ≤ x.len) : execPldmRequestFirmwareData t off chunk s =
      .next (((s.atTime t).writeImage off chunk).tell (.done pldmOk)) :=
  (State.update_at opened session own turn _).trans (congrArg _ (if_neg (not_or.2 ⟨some, Nat.not_lt.2 fits⟩)))

theorem execPldmTransferComplete_all (turn : s.mgmt.fdStage = 3) (all : x.len ≤ x.received) :
    execPldmTransferComplete t s = .next ((s.atTime t).stage 4) :=
  (State.update_at opened session own turn _).trans (congrArg _ (if_neg (Nat.not_lt.2 all)))

end

end

/-! ### Effects (R263, R283, R284, R455, R482) -/

section

variable {s : State} {t : Nat} (opened : s.mgmtOpen = true) (runs : s.start.phase = .running) (locked : s.sec.st = .locked)
include opened runs locked

theorem execPldmSetPowerCap_sets {w : Nat} (low : 600 ≤ w) (high : w ≤ 2400) : execPldmSetPowerCap t w s =
    .next (((s.atTime t).modPwr fun x => { x with cap := w }).tell (.done pldmOk)) :=
  (State.effect_served opened runs locked (by decide) _).trans (congrArg _ (if_neg (by omega)))

theorem execPldmSetPowerCap_outside {w : Nat} (outside : w < 600 ∨ 2400 < w) :
    execPldmSetPowerCap t w s = .next ((s.atTime t).tell (.done pldmInvalid)) :=
  (State.effect_served opened runs locked (by decide) _).trans (congrArg _ (if_pos outside))

theorem execPldmSetPowerState_suspends (still : s.pwr.goal = none) (safe : s.start.safe = false) (idle : s.eng.run = none)
    (other : s.pwr.st ≠ 2) : execPldmSetPowerState t 2 s = .next (((s.atTime t).descend 2).1.tell (.done pldmOk)) := by
  have descends : (s.atTime t).requestPower 2 =
      (((s.atTime t).descend 2).1, .done stOK ((s.atTime t).descend 2).2.1 ((s.atTime t).descend 2).2.2) :=
    State.requestPower_descends (s := s.atTime t) still safe (Nat.le_refl 2) (Ne.symm other) idle
  refine (State.effect_served opened runs locked (by decide) _).trans ?_
  simp only [Nat.reduceLT, if_false, State.atTime_sec, locked, reduceCtorEq, descends, if_true]

theorem execPldmSetPowerState_invalid {n : Nat} (none : 3 < n) :
    execPldmSetPowerState t n s = .next ((s.atTime t).tell (.done pldmInvalid)) :=
  (State.effect_served opened runs locked (by decide) _).trans (congrArg _ (if_pos none))

theorem execPldmSetSteward_invalid {n : Nat} (none : 3 < n) :
    execPldmSetSteward t n s = .next ((s.atTime t).tell (.done pldmInvalid)) :=
  (State.effect_served opened runs locked (by decide) _).trans (congrArg _ (if_pos none))

theorem execPldmPartitionReset_invalid {n : Nat} (none : 3 < n) :
    execPldmPartitionReset t n s = .next ((s.atTime t).tell (.done pldmInvalid)) :=
  (State.effect_served opened runs locked (by decide) _).trans (congrArg _ (if_pos none))

theorem execPldmSetSteward_moves (p : Fin 4) :
    execPldmSetSteward t p.val s = .next (((s.atTime t).moveSteward p).tell (.done pldmOk)) := by
  have running : (s.atTime t).writerOpen .bmc = true := decide_eq_true runs
  have writes : (s.atTime t).writeSteward .bmc p.val = (s.atTime t).moveSteward p := by
    simp only [State.writeSteward, running, Bool.not_true, Bool.false_eq_true, if_false, finOfNat_val]
  refine (State.effect_served opened runs locked (by decide) _).trans ?_
  rw [if_neg (by omega), writes]

theorem execPldmPartitionReset_resets {p : Fin 4} (idle : (s.part p).resetting = false) :
    execPldmPartitionReset t p.val s = .next ((((s.atTime t).partReset p).partBack p).tell (.done pldmOk)) := by
  have running : (s.atTime t).writerOpen .bmc = true := decide_eq_true runs
  have idleAt : ((s.atTime t).part p).resetting = false := idle
  have key : bitsOf 0x52450000 31 16 = 0x5245 := by decide
  have writes : (s.atTime t).writePartReset .bmc p 0x52450000 = ((s.atTime t).partReset p).partBack p := by
    simp only [State.writePartReset, running, key, idleAt, ne_eq, not_true, Bool.not_true, Bool.false_eq_true, if_false]
  refine (State.effect_served opened runs locked (by decide) _).trans ?_
  rw [if_neg (by omega), finOfNat_val, writes]

section

variable {p : Fin 4} {k : QuotaKind} {n : Nat}

theorem execPldmSetQuota_invalid (refused : (s.atTime t).setQuota p k n = none) :
    execPldmSetQuota t p k n s = .next ((s.atTime t).tell (.done pldmInvalid)) := by
  refine (State.effect_served opened runs locked (by decide) _).trans ?_
  rw [refused]

theorem execPldmSetQuota_commits (taken : (s.atTime t).setQuota p k n ≠ none) : execPldmSetQuota t p k n s =
    .next (((s.atTime t).galleryCommit 0 fun s => (s.setQuota p k n).getD s).tell (.done pldmOk)) := by
  obtain ⟨v, sets⟩ := Option.ne_none_iff_exists'.1 taken
  refine (State.effect_served opened runs locked (by decide) _).trans ?_
  rw [sets]

end

section

variable {l : Fin 8} (on : s.pwr.st < 3)
include on

theorem execPldmLanternService_drains : execPldmLanternService t (4 * l.val) s =
    .next (((s.atTime t).askDrain l.val).tell (.done pldmOk)) := by
  refine (State.effect_served opened runs locked (by decide) _).trans ?_
  simp only [show 4 * l.val / 4 = l.val by omega, show 4 * l.val % 4 = 0 by omega, show ¬ 8 ≤ l.val by omega, State.atTime_pwr,
    Nat.not_le.2 on, Nat.reduceEqDiff, or_self, if_false]

theorem execPldmLanternService_abandons : execPldmLanternService t (4 * l.val + 2) s =
    .next (((s.atTime t).abandonDrain l.val).tell (.done pldmOk)) := by
  refine (State.effect_served opened runs locked (by decide) _).trans ?_
  simp only [show (4 * l.val + 2) / 4 = l.val by omega, show (4 * l.val + 2) % 4 = 2 by omega, show ¬ 8 ≤ l.val by omega,
    State.atTime_pwr, Nat.not_le.2 on, Nat.reduceEqDiff, or_self, if_false]

theorem execPldmLanternService_notDrained (waits : (s.lan l.val).drainDone = false) :
    execPldmLanternService t (4 * l.val + 1) s = .next ((s.atTime t).tell (.done pldmNotReady)) := by
  refine (State.effect_served opened runs locked (by decide) _).trans ?_
  simp only [show (4 * l.val + 1) / 4 = l.val by omega, show (4 * l.val + 1) % 4 = 1 by omega, show ¬ 8 ≤ l.val by omega,
    State.atTime_pwr, State.atTime_lan_of, Nat.not_le.2 on, waits, Nat.reduceEqDiff, or_self, or_true, if_false, if_true]

end

theorem execPldmFaultClear_clears {i : BitVec 32} {e : LogEntry} (entry : s.entryAt i = some e) (ended : s.persists e = false) :
    execPldmFaultClear t i s = .next (((s.atTime t).clearEntry i).tell (.done pldmOk)) := by
  have entryAt' : (s.atTime t).entryAt i = some e := entry
  have endedAt : (s.atTime t).persists e = false := ended
  refine (State.effect_served opened runs locked (by decide) _).trans ?_
  simp only [entryAt', endedAt, Bool.false_eq_true, if_false]

end

/-- Settles O55. The completion codes are PLDM's, not the manual's. -/
theorem managementPort : Obligations.ManagementPort := by
  unfold Obligations.ManagementPort
  intro t s opened runs locked u
  refine ⟨⟨execPldmGetTid_answers opened, execPldmGetTypes_answers opened, execPldmGetVersion_answers opened 2,
      execPldmGetVersion_answers opened 1, execPldmGetCommands_answers opened⟩,
    ⟨execPldmReadSensor_running (sensor := .cap) (v := s.pwr.cap) opened runs rfl,
      execPldmReadSensor_running (sensor := .powerState) (v := s.pwr.st) opened runs rfl⟩,
    fun w => ⟨execPldmSetPowerCap_sets opened runs locked, execPldmSetPowerCap_outside opened runs locked⟩,
    fun still safe _ => execPldmSetPowerState_suspends opened runs locked still safe,
    fun n none => ⟨execPldmSetPowerState_invalid opened runs locked none, execPldmSetSteward_invalid opened runs locked none,
      execPldmPartitionReset_invalid opened runs locked none⟩,
    fun p => ⟨execPldmSetSteward_moves opened runs locked p, execPldmPartitionReset_resets opened runs locked⟩,
    fun p k n => ⟨execPldmSetQuota_invalid opened runs locked, execPldmSetQuota_commits opened runs locked⟩,
    fun l on => ⟨execPldmLanternService_drains opened runs locked on, execPldmLanternService_abandons opened runs locked on,
      execPldmLanternService_notDrained opened runs locked on⟩,
    fun e next => ?_, fun empty => ?_, fun i e => execPldmFaultClear_clears opened runs locked,
    fun n some fits none => execPldmRequestUpdate_opens opened locked none some fits, fun x session => ?_,
    execPldmCancelUpdate_none opened,
    fun e a => ⟨execEndpointIdAssignment_sets opened, execDynamicAddressAssignment_sets opened⟩⟩
  · rw [← Option.getD_some (a := e.bytes), ← Option.map_some, ← next]
    exact execPldmPollEvent_next opened runs
  · refine (execPldmPollEvent_next opened runs).trans ?_
    rw [empty]
    rfl
  · refine ⟨execPldmRequestUpdate_busy opened session, execPldmGetStatus_session opened session, fun own => ?_⟩
    exact ⟨execPldmPassComponentTable_one opened session own, execPldmUpdateComponent_next opened session own,
      fun off chunk => execPldmRequestFirmwareData_writes opened session own, execPldmTransferComplete_all opened session own,
      execPldmVerifyComplete_verifies opened session own, execPldmApplyComplete_next opened session own,
      execPldmActivateFirmware_marks opened session own, execPldmUpdateComponent_outOfTurn opened session own,
      execPldmActivateFirmware_outOfTurn opened session own, execPldmCancelUpdate_own opened session own⟩

end Sys2Proof.Machine
end
